-- ==== Sys2Proof/Word.lean ====
section
/-!
DEFINITION. Word.lean: the widths of the machine: the byte, the 32-bit word of the local address space and the 64-bit word.
-/

namespace Sys2Proof

/-- A byte of a frame, an image or memory. -/
abbrev Byte := BitVec 8

/-- A register or memory word (R8). -/
abbrev Word := BitVec 32

end Sys2Proof
end

