-- ==== Sys2Proof/Syntax.lean ====
section
/-!
DEFINITION. Syntax.lean: the commands of the block, one constructor of `Instr` per row of spec/opcode_table.json, and the data that
the world outside hands over with them: frames as they are received, canvas content, pin levels, raw conversions, the origin of an
access. The block has one sender of commands: everything that happens to it, a frame on a lane, a level on a pin, an instant of its
own time base, an access of a core, arrives in its queue in the order in which it happens.
-/

namespace Sys2Proof

/-- The origin of an access or event, as the Cairn log names it (R459): the agent (0 loader, 1–4 service core 0–3, 5 safety pair,
6 hardware, 7 remote session, 8 link reset, 9 boot ROM), the lane, the session and the key; 0xFF: none. -/
structure Origin where
  agent : Nat
  lane : Nat
  sess : Nat
  key : Nat
  deriving DecidableEq, Repr

/-- How the reception of a frame ended (R74, R105, R528): with an EOF, with an ABORT block, with a block of bad sync header, or with a
control block of unknown type; `loneHeader` and `loneType`: no frame at all, one such block between two frames. -/
inductive FrameEnd where
  | eof | abort | badHeader | badType | loneHeader | loneType
  deriving DecidableEq, Repr

/-- A Guyline frame as it stands on a lane (R78 to R80): the SOF fields, the data bytes of the blocks between SOF and EOF, the EOF
fields, and how it ended. `body` holds block b, byte j at index 8(b − 1) + j. `rsv` holds the reserved bits of SOF and EOF (R79): SOF byte 1
[7:6] in bits 0 and 1, SOF byte 3 from bit 2, EFLAGS [7:1] from bit 10, EOF bytes 2 and 3 from bit 17. -/
structure Frame where
  ftype : Nat
  dir : Nat
  wrap : Bool
  hop : Nat
  seq : Nat
  dst : Nat
  body : List Byte
  stomp : Bool
  crc : Word
  ending : FrameEnd
  rsv : Nat := 0
  deriving DecidableEq, Repr

/-- Bytes 1 to 3 of an IDLE block (R75): LSTAT [0] RXOK, [1] BEACON, [2] INRESET, [3] WRAP, and SENDER. -/
structure IdleBlock where
  rxok : Bool
  beacon : Bool
  inreset : Bool
  wrap : Bool
  sender : Nat
  deriving DecidableEq, Repr

/-- WRAP and SENDER of an IDLE block that is received (R75): whether its sender turns Tallies back, and its address. -/
structure IdlePeer where
  wrap : Bool
  sender : Nat
  deriving DecidableEq, Repr

/-- What the device samples at its pins as it comes out of reset: the configuration straps (R412), the level of BYP_RB, closed (R205), and
whether each I/O bank runs at 3.3 V (R505). -/
structure Straps where
  boot : Nat
  clkm : Nat
  lockdly : Nat
  pairsen : Bool
  bypRb : Bool
  vioa33 : Bool
  viob33 : Bool
  deriving DecidableEq, Repr

/-- What a VCAP conversion samples (R212, R215): the sample instant, a further multiple of 200 ns, the internal zero, the internal 3/4
reference. -/
inductive ConvKind where
  | sample | other | calZero | calRef
  deriving DecidableEq, Repr

/-- A source that ROUTING gives a routed slot (R282). -/
inductive LoopSource where
  | none
  | sdm (n : Nat)
  | aux (n : Nat)
  | volts
  | energySi
  | insnow
  | xused
  | iarm
  | vref
  | actseg
  | lead
  /-- VAL0 (`second = false`) or VAL1 of a segment's trunk Tally entry (R300) -/
  | segVal (segment : Nat) (second : Bool)
  | sv (stream chan : Nat)
  | hostIn (n : Nat)
  | mailbox
  deriving DecidableEq, Repr

/-- A destination of a context (R283): its slot, the kind code, the target number, and for kind 0x1 the receiving slot. -/
structure LoopDest where
  slot : Nat
  kind : Nat
  target : Nat
  slot2 : Nat
  deriving DecidableEq, Repr

/-- The program of one context as LOOPS and ROUTING give it (R264, R293): descriptors, the words of bank 0 by index, routed slots with
their sources, destinations. -/
structure LoopProg where
  ctx : Nat
  descs : List Nat
  bank0 : List Nat
  routes : List (Nat × LoopSource)
  dests : List LoopDest
  deriving DecidableEq, Repr

/-- One item of a state transfer (R375). The spec gives what each item carries and no layout of the XFER body, so the item stands beside
its frame: banks of a context (words by bank and index as 256·bank + word, active bank, swap pending); words of its delay lines by word of the
engine memory; stored state and slots after a commit; Scree state of the named tick (held[r], sign of the current, XSHARE, XIN, u values by
segment); reference run and HOSTIN values. -/
inductive XferItem where
  | banks (ctx : Nat) (coef : List (Nat × Nat)) (active : Nat) (swap : Bool)
  | delay (ctx : Nat) (words : List (Nat × Nat))
  | commit (ctx : Nat) (state slots : List (Nat × Nat))
  | scree (tick : Nat) (held : List Nat) (signPos : Bool) (xshare xin : Nat) (u : List (Nat × Nat))
  | refs (tick run : Nat) (hostin : List Nat)
  deriving DecidableEq, Repr

/-- Tick length and schedule offsets in 10 ns (R32, R33), with the defaults of R2 where a canvas leaves one unset. -/
structure Schedule where
  tick : Nat := 500
  tt : Nat := 10
  td : Nat := 170
  to_ : Nat := 200
  apply : Nat := 400
  deriving DecidableEq, Repr

/-- What a section of a canvas gives (R42). The spec names the content of each section and no layout of its bytes, so the content stands
beside them: register writes as address, value, mask; LANES: lanes and their modes; BLOCKS: instantiated blocks; LOCKS: locked blocks; SYSTEM:
tick length and schedule offsets, missed-order count, whether the system has no central, PTP domain and announce receipt timeout; volts per code and nominal capacitance (binary32), which LOOPS of a hub gives for
the segment sums (R298); RINGS: the enabled rings, each with its expected length; ARMTABLE: arm
of each segment (0xFF none) and the bipole form; LOOPS and ROUTING: programs. -/
structure SectionBody where
  writes : List (Nat × Nat × Nat)
  lanes : List (Nat × Nat)
  blocks : Nat
  locks : Nat
  sched : Schedule
  missed : Nat
  noCentral : Bool
  ptpDomain : Nat
  ptpTimeout : Nat
  rings : List (Nat × Nat)
  arms : List Nat
  bipole : Bool
  vpc : Nat
  cNom : Nat
  progs : List LoopProg
  deriving DecidableEq, Repr

/-- How a command reached the device that a register write or a frame can give: a write of the word `v` by `o`, or a frame. -/
inductive Via where
  | write (o : Origin) (v : Nat)
  | frame (lane : Nat) (f : Frame)
  deriving DecidableEq, Repr

/-- A frame on L15 as its receiver counts it (R321): length in bytes, FCS good, VLAN ID (0: untagged or priority-tagged). -/
structure EthHead where
  len : Nat
  fcsOk : Bool
  vid : Nat := 0
  deriving DecidableEq, Repr

/-- One channel of a sampled-value frame (R313, R314): its count, validity of its quality (0 good, 3 questionable, others invalid), test bit. -/
structure SvChan where
  value : Int
  validity : Nat
  test : Bool
  deriving DecidableEq, Repr

/-- A sampled-value frame on L15 (R313): destination MAC, VLAN ID (0: untagged or priority-tagged), APPID, CRC-32 of svID, simulation bit,
whether its 9-2LE structure is well formed, SmpCnt, smpSynch, channels in the order of R313. -/
structure SvFrame where
  dstMac : Nat
  vid : Nat
  appid : Nat
  idCrc : Nat
  simulated : Bool
  wellFormed : Bool
  smpCnt : Nat
  smpSynch : Nat
  chans : List SvChan
  deriving DecidableEq, Repr

/-- One PTP foreign master as an Announce message describes it, in the order of comparison of the default algorithm (R146). -/
structure MasterSt where
  priority1 : Nat
  clockClass : Nat
  accuracy : Nat
  variance : Nat
  priority2 : Nat
  identity : Nat
  steps : Nat
  deriving DecidableEq, Repr

/-- Which PTP message a command brings (R146): the one that its row names, a Follow_Up, or a management message. -/
inductive PtpKind where
  | named | followUp | management
  deriving DecidableEq, Repr

/-- A PTP message on L15 (R146): domain number, two-step flag, logMessageInterval, sequence number, source and requesting port identity,
its time stamp in ns, its correction in 2⁻¹⁶ ns, the master that an Announce describes, the kind. -/
structure PtpMsg where
  domain : Nat
  twoStep : Bool
  logInterval : Int
  seq : Nat
  source : Nat
  requesting : Nat
  time : Int
  corr : Int
  master : MasterSt
  kind : PtpKind := .named
  deriving DecidableEq, Repr

/-- The commands, in the order of the table. -/
inductive Instr where
  /-- R403: A supply leaves or re-enters its band. -/
  | powerOnReset (inBand : Bool)
  /-- R406: A filtered low level on nRESET. -/
  | nresetAssert
  /-- R408: nRESET has been high for `high` cycles of 5 ns. -/
  | nresetRelease (high : Nat)
  /-- R517: TESTEN takes a level; 1 holds POR asserted. -/
  | testenHigh (high : Bool)
  /-- R409: A link reset frame on lane `n`. -/
  | linkResetCommand (n : Nat) (f : Frame)
  /-- R403: RST.SWCMD written. -/
  | softReset (o : Origin) (reach : Nat)
  /-- R411: The start-up at the end of an overlap, with what the straps and the bypass read-back show. -/
  | resetStartUp (straps : Straps)
  /-- R49: The loader obtains, checks and applies a canvas. -/
  | canvasLoad
  /-- R478: A canvas push fragment. -/
  | cpush (n : Nat) (f : Frame)
  /-- R478: A firmware push fragment. -/
  | fwpush (n : Nat) (f : Frame)
  /-- R478: A push has received nothing for 2^20 ticks. -/
  | pushTimeout (firmware : Bool)
  /-- R58: The checks on a completed canvas push finish. -/
  | stageCheckDone
  /-- R448: The checks on a completed firmware push finish. -/
  | fwStageCheckDone
  /-- R59: CNV.CMD.ACTIVATE written, or CACT. -/
  | canvasActivate (via : Via)
  /-- R58: CNV.CMD.DISCARD written. -/
  | canvasDiscard (o : Origin) (v : Nat)
  /-- R446: A public key for an open push. -/
  | keypres (n : Nat) (f : Frame)
  /-- R480: A flash write requested. -/
  | flashwr (n : Nat) (f : Frame)
  /-- R480: The flash write ends; `bad`: it failed, and the slot holds these bytes. -/
  | flashWriteDone (bad : Option (List Byte))
  /-- R3: A write of `width` bits at a local address. -/
  | registerWrite (o : Origin) (addr : Nat) (width : Nat) (value : Nat)
  /-- R119: CNTCLR of a block, or of a lane, written. -/
  | cntclr (o : Origin) (block : Nat) (lane : Nat)
  /-- R76: Block lock on lane `n`; a reference lane after a rate switch relocks the root (R388). -/
  | laneUp (n : Nat)
  /-- R76: Lane `n` loses block lock, or has seen 16 IDLE blocks with RXOK = 0. -/
  | laneDown (n : Nat) (lostLock : Bool)
  /-- R383: Lane `n` has held lock for the lock delay, or holds it no more. -/
  | laneReady (n : Nat) (ready : Bool)
  /-- R495: LOSn takes a level. -/
  | losAssert (n : Nat) (level : Bool)
  /-- R75: An IDLE block on lane `n`: three bits of LSTAT, and what else it says of its sender. -/
  | idleFrame (n : Nat) (rxok : Bool) (beacon : Bool) (inreset : Bool) (peer : IdlePeer)
  /-- R102: A frame passes. -/
  | forwardFrame (n : Nat) (f : Frame)
  /-- R477: The next opportunity of output `n`: what waits there goes out, an aborted frame again. -/
  | frameRelaunch (n : Nat)
  /-- R77: LNK.RATECMD.ARM of lane `n` written. -/
  | ratecmdArm (o : Origin) (n : Nat) (v : Nat)
  /-- R77: RATEAT of lane `n` is reached. -/
  | rateSwitch (n : Nat)
  /-- R112: LNK.UNWRAP.ARM of lane `n` written. -/
  | unwrapArm (o : Origin) (n : Nat) (v : Nat)
  /-- R112: The tick that UNWRAP of lane `n` names. -/
  | unwrapTakeEffect (n : Nat)
  /-- R142: k·T. -/
  | sampleInstant
  /-- R85: t_T. -/
  | tallyLaunch
  /-- R87: A ring Tally at a cell. -/
  | tallyPass (n : Nat) (f : Frame)
  /-- R96: A ring Tally at a hub member. -/
  | ringTallyArrive (n : Nat) (f : Frame)
  /-- R111: The partner's cross-link Tally. -/
  | crossLinkTallyReceive (f : Frame)
  /-- R91: A trunk Tally at a hub. -/
  | trunkTallyPass (n : Nat) (f : Frame)
  /-- R176: A trunk Tally at a central. -/
  | trunkTallyArrive (n : Nat) (f : Frame)
  /-- R160: t_D. -/
  | screeDecision
  /-- R307: REFBLOCK references in a row have been missed. -/
  | referenceLossBlock
  /-- R162: t_O; `cmds`: Order commands by ring, as CMDPOS, CMD, CMDARG. -/
  | orderLaunch (cmds : List (Nat × Nat × Nat × Nat))
  /-- R90: A ring Order at a cell. -/
  | orderReceive (n : Nat) (f : Frame)
  /-- R364: A trunk Order at a hub. -/
  | trunkOrderReceive (n : Nat) (f : Frame)
  /-- R359: The partner's cross-link Order. -/
  | crossLinkOrderReceive (f : Frame)
  /-- R167: The limit of R35 has passed without an Order that the cell can obey. -/
  | orderMissed
  /-- R23: MISSRUN has reached the missed-order count. -/
  | missedOrderBlock
  /-- R181: k·T + D. -/
  | applyInstant
  /-- R184: The apply instant plus L′. -/
  | trimEnd
  /-- R188: The swing window of the edge with dead-time index `idx` ends; the VSW sample at its turn-off, and those after it, one each 2.5 ns, in 2^−20 codes. -/
  | swingCheck (idx : Nat) (v0 : Int) (vsw : List Int)
  /-- R175: Order command 0x10. -/
  | exclude (f : Frame)
  /-- R175: Order command 0x11. -/
  | include (f : Frame)
  /-- R175: Order command 0x12. -/
  | snaprec (f : Frame)
  /-- R175: Order command 0x13. -/
  | clrcnt (f : Frame)
  /-- R206: Order command 0x20. -/
  | localgrant (f : Frame)
  /-- R206: Order command 0x21. -/
  | localend (f : Frame)
  /-- R189: Order command 0x22, or PWM.CTRL.DTRESET written. -/
  | dtreset (via : Via)
  /-- R206: Order command 0x23. -/
  | bypass (f : Frame)
  /-- R194: The on-interval of the local generator ends. -/
  | localDutyEnd
  /-- R194: A period of the local generator ends. -/
  | localPeriodEnd
  /-- R195: The ticks of a grant run out. -/
  | grantExpire
  /-- R196: PWM.CTRL.COMMIT written. -/
  | pwmCommit (o : Origin) (v : Nat)
  /-- R191: PWM.CTRL.CALNOW written; the spare line is within its limits or not, with this deviation. -/
  | calnow (o : Origin) (v : Nat) (ok : Bool) (dev : Nat)
  /-- R191: A multiple of 256 ticks: the spare line has been calibrated. -/
  | delayLineCalibration (ok : Bool) (dev : Nat)
  /-- R199: PWM.FORCE written. -/
  | forceWrite (o : Origin) (v : Nat)
  /-- R208: PWM.SNAPAT.ARM written. -/
  | snapatArm (o : Origin) (v : Nat)
  /-- R208: The apply instant that SNAPAT names. -/
  | counterSnapshot
  /-- R202: A core halts for debug. -/
  | debugHalt (core : Nat)
  /-- R202: Every core has resumed. -/
  | debugResume
  /-- R213: A VCAP conversion ends; its ideal result is r · 2^−20 codes. -/
  | vcapConversion (kind : ConvKind) (r : Int)
  /-- R214: A VCAP conversion fails. -/
  | vcapConversionFail (kind : ConvKind)
  /-- R238: ENERGY has been at or above ETRIP in ETRIPN conversions. -/
  | sleTrip
  /-- R216: VREFADC leaves or re-enters its band. -/
  | vrefOutOfBand (ok : Bool)
  /-- R219: AUX channel `n` has a result. -/
  | auxConversion (n : Nat) (raw : Nat)
  /-- R211: The die sensor has a result. -/
  | dieTempConversion (code : Nat)
  /-- R222: The sinc3 filter of channel `n` has an output; the bits sampled since the previous command of the channel, oldest first. -/
  | sdmOutput (n : Nat) (bits : List Bool)
  /-- R224: The fast filter of channel `n` has an output; the bits as above. -/
  | sdmFastOutput (n : Nat) (bits : List Bool)
  /-- R223: Bits of channel `n` after which its stream has not changed for 64 clocks, or changes again. -/
  | sdmStuck (n : Nat) (bits : List Bool)
  /-- R232: 2^WLOG ticks have passed. -/
  | capWindowClose
  /-- R233: ENV.CCTL.RESTART written. -/
  | capRestart (o : Origin) (v : Nat)
  /-- R228: ENV.CCTL.PKCLR written. -/
  | epeakClear (o : Origin) (v : Nat)
  /-- R242: A hard comparator trips. -/
  | hardSlvTrip
  /-- R245: DSATn has been high for FILT while Gn is on. -/
  | dsatEvent (g : Nat)
  /-- R243: The filtered BYP_RB changes. -/
  | bypRbChange (closed : Bool)
  /-- R243: BYPTIME after the edge of BYP. -/
  | bypassClosureCheck
  /-- R247: SAF.WDOG written. -/
  | watchdogService (o : Origin) (key : Nat)
  /-- R246: The watchdog has not been serviced in time. -/
  | watchdogExpire
  /-- R254: The safety cores differ. -/
  | pairMismatch
  /-- R249: Filtered enable read-backs that differ from their commands. -/
  | enableReadbackMismatch (rb : Nat)
  /-- R244: The test of one comparator; how it answered above and below its threshold. -/
  | comparatorSelfTest (above : Bool) (below : Bool)
  /-- R250: A test falls due, or W is reached. -/
  | testPulseStart
  /-- R251: TPDET after opening. -/
  | testPulseOpenCheck (isOpen : Bool)
  /-- R251: TPLEN. -/
  | testPulseClose
  /-- R251: TPDET after closing. -/
  | testPulseCloseCheck (closed : Bool)
  /-- R253: 65 536 ticks without a complete test of switch `n`. -/
  | testIncompleteTimeout (n : Nat)
  /-- R255: ENV.DISCMD.START written. -/
  | dischargeStart (o : Origin) (v : Nat)
  /-- R255: ENV.DISCMD.STOP written. -/
  | dischargeStop (o : Origin) (v : Nat)
  /-- R255: A millisecond of the check has passed. -/
  | dischargeCompare
  /-- R255: DISTIME has passed. -/
  | dischargeTimeout
  /-- R266: The start instant of context `c`. -/
  | contextStart (c : Nat)
  /-- R268: Engine `e` is free. -/
  | contextRun (e : Nat)
  /-- R283: The commit cycle of engine `e`. -/
  | contextCommit (e : Nat)
  /-- R269: The deadline of a run of context `c`. -/
  | contextDeadline (c : Nat)
  /-- R286: CTXc_CTL.SWAP, or with `bulk` bit c of SWAPREQn, written. -/
  | swapRequest (o : Origin) (c : Nat) (bulk : Bool)
  /-- R289: CTXc_CTL.RESETST written. -/
  | resetst (o : Origin) (c : Nat)
  /-- R285: Word `w` of the coefficient aperture written. -/
  | coefApertureWrite (o : Origin) (w : Nat) (v : Nat)
  /-- R174: SCR.ARMCTL written. -/
  | armctlBlockWrite (o : Origin) (v : Nat)
  /-- R298: The end of a tick k with k mod 4 = 3. -/
  | segmentSumSweep
  /-- R131: A tick k with k mod 256 = 0. -/
  | timeFrameLaunch
  /-- R132: A Time frame, whose SOF arrived `age` time units ago. -/
  | timeFrameReceive (n : Nat) (f : Frame) (age : Nat)
  /-- R138: 768 tick lengths without a frame of domain `x`. -/
  | domainValidityExpire (x : Nat)
  /-- R139: TB.DOMSW.ARM written. -/
  | domswArm (o : Origin) (v : Nat)
  /-- R140: The switch instant. -/
  | domainSwitch
  /-- R129: TB.INCR_HI written. -/
  | tbIncrCommit (o : Origin) (hi : Nat)
  /-- R135: TB.SETCMD.STEP written. -/
  | tbStep (o : Origin) (v : Nat)
  /-- R127: TB.SNAP.CAPTURE written. -/
  | tbSnapshot (o : Origin) (v : Nat)
  /-- R143: TB.CMPn_TARGET, else TB.CMPn_CTRL, written. -/
  | compareArm (o : Origin) (n : Nat) (target : Bool) (v : Nat)
  /-- R143: Unit `n` reaches its target. -/
  | compareFire (n : Nat)
  /-- R146: A Sync. -/
  | ptpSync (h : EthHead) (m : PtpMsg) (age : Nat)
  /-- R146: An Announce. -/
  | ptpAnnounce (h : EthHead) (m : PtpMsg)
  /-- R147: The announce receipt timeout. -/
  | ptpAnnounceTimeout
  /-- R146: A Pdelay_Req. -/
  | ptpPdelayReq (h : EthHead) (m : PtpMsg) (age : Nat)
  /-- R146: The peer-delay interval. -/
  | ptpPdelayInterval
  /-- R146: A Pdelay_Resp. -/
  | ptpPdelayResp (h : EthHead) (m : PtpMsg) (age : Nat)
  /-- R72: A PAUSE frame: counted, and discarded. -/
  | pauseFrame (h : EthHead)
  /-- R314: A sampled-value frame. -/
  | svFrameReceive (h : EthHead) (f : SvFrame) (age : Nat)
  /-- R316: Sample instants over 4 intervals of a stream without a pair. -/
  | svLost (stream : Nat)
  /-- R114: LNK.ECHOCMD.START of lane `n` written. -/
  | echoStart (o : Origin) (n : Nat) (v : Nat)
  /-- R114: A multiple of 65 536 ticks, or the first UP at the full rate. -/
  | echoAuto (n : Nat)
  /-- R115: The request of this tick. -/
  | echoRequestSend (n : Nat)
  /-- R100: An Echo request, whose SOF arrived `age` time units ago. -/
  | echoRequest (n : Nat) (f : Frame) (age : Nat)
  /-- R115: An Echo response. -/
  | echoResponse (n : Nat) (f : Frame) (age : Nat)
  /-- R116: An Echo result. -/
  | echoResult (n : Nat) (f : Frame)
  /-- R115: 32 ticks without 8 exchanges. -/
  | echoAbandon (n : Nat)
  /-- R339: A Mark. -/
  | markReceive (n : Nat) (f : Frame)
  /-- R340: The TAT of an accepted Mark. -/
  | markTatReached
  /-- R325: A base row; VSW sample, in 2^−20 codes, and half of a tick for the bases that take them. -/
  | geoRowLatch (vsw : Int) (half : Bool)
  /-- R344: Measurement and mask testing of a record finish. -/
  | recordProcessingDone
  /-- R331: GEO.CMD.ARM written. -/
  | geoArm (o : Origin) (v : Nat)
  /-- R335: GEO.CMD.STOP written. -/
  | geoStop (o : Origin) (v : Nat)
  /-- R336: GEO.CMD.TRIG written. -/
  | geoTrig (o : Origin) (v : Nat)
  /-- R341: GEO.CMD.MARK written. -/
  | geoMark (o : Origin) (v : Nat)
  /-- R343: GEO.CMD.FREE written. -/
  | geoFree (o : Origin) (v : Nat)
  /-- R342: A slot has been released. -/
  | geoStallRearm
  /-- R349: A capture upload. -/
  | capup (n : Nat) (f : Frame)
  /-- R349: 65 536 ticks without a request for the slot. -/
  | reclockTimeout (slot : Nat)
  /-- R488: A capture assembly. -/
  | capasm (n : Nat) (f : Frame)
  /-- R357: A pair-hello. -/
  | hello (n : Nat) (f : Frame)
  /-- R356: 256 ticks have passed. -/
  | pairHelloSend
  /-- R357: The tick that FORMSEQ names. -/
  | pairForm
  /-- R357: FORMWAIT × 256 ticks without a pair-hello. -/
  | formWaitExpire
  /-- R361: t_O of tick k + 1. -/
  | heartbeatDeadline
  /-- R369: RED.YIELD.ARM written. -/
  | redYieldArm (o : Origin) (v : Nat)
  /-- R369: t_O of the tick that a yield names. -/
  | yieldTakeEffect
  /-- R374: RED.CMD.JOIN written. -/
  | redJoin (o : Origin) (v : Nat)
  /-- R357: RED.CMD.RELEASE written. -/
  | redRelease (o : Origin) (v : Nat)
  /-- R375: A state-transfer notice and the item in it. -/
  | xfer (n : Nat) (f : Frame) (item : XferItem)
  /-- R375: 1024 runs of context `c` without admission. -/
  | transferAdmissionTimeout (c : Nat)
  /-- R471: A journal query. -/
  | jquery (n : Nat) (f : Frame)
  /-- R384: The reference lane is lost. -/
  | referenceLoss
  /-- R389: Holdover runs out. -/
  | holdoverExpire
  /-- R389: The root output has stopped. -/
  | clockStop
  /-- R390: The clock lane is READY after a loss, or one lock delay has passed since the root relocked. -/
  | clockReturn
  /-- R385: CLK.SRCSEL.GO written. -/
  | srcselGo (o : Origin) (v : Nat)
  /-- R385: A reference switch completes. -/
  | referenceSwitchDone
  /-- R387: Ring or trunk ring `r` has entered BROKEN. -/
  | ringClockService (r : Nat)
  /-- R391: CLK.FMCFG.START written. -/
  | frequencyMeterStart (o : Origin) (v : Nat)
  /-- R391: The meter has counted `count` edges. -/
  | frequencyMeterDone (count : Nat)
  /-- R392: CLK.GATE written; `busy`: blocks whose port does not become idle. -/
  | clockGateWrite (o : Origin) (v : Nat) (busy : Nat)
  /-- R397: PWR.CMD.ARM written. -/
  | pwrCmdArm (o : Origin) (v : Nat)
  /-- R398: The instant of a power command. -/
  | powerTransition
  /-- R432: The scrubber of memory `mem` reads a word in which `struck` bits are wrong in truth. -/
  | scrubRead (mem : Nat) (struck : Nat)
  /-- R432: A scrub pass ends. -/
  | scrubPassEnd (mem : Nat)
  /-- R433: The sweep over critical registers; `struck`: those with a bit wrong in truth. -/
  | paritySweep (struck : List Nat)
  /-- R436: SYS.INJCTL.ARM written. -/
  | injectionArm (o : Origin) (v : Nat)
  /-- R427: A core returns from its trap handler. -/
  | pendingTrapTaken (core : Nat)
  /-- R445: FUSE.PROGCMD.GO written, VFUSE in its band or not. -/
  | fuseProgram (o : Origin) (v : Nat) (vfuse : Bool)
  /-- R445: Programming ends; bits that blew in each copy. -/
  | fuseProgramDone (a : Word) (b : Word)
  /-- R451: An attestation request. -/
  | attest (n : Nat) (f : Frame)
  /-- R453: OPEN. -/
  | sopen (n : Nat) (f : Frame)
  /-- R453: CONFIRM. -/
  | sconf (n : Nat) (f : Frame)
  /-- R453: 2^18 ticks since CHALLENGE. -/
  | handshakeTimeout (sess : Nat)
  /-- R453: 2^20 ticks of backoff. -/
  | backoffExpire
  /-- R455: CLOSE. -/
  | sclose (n : Nat) (f : Frame)
  /-- R455: SESSIDLE ticks without a transaction. -/
  | sessionIdleTimeout (sess : Nat)
  /-- R458: A key install. -/
  | keyinst (n : Nat) (f : Frame)
  /-- R482: A discovery. -/
  | discover (n : Nat) (f : Frame)
  /-- R471: A remote read. -/
  | read (n : Nat) (f : Frame)
  /-- R524: A remote write. -/
  | write (n : Nat) (f : Frame)
  /-- R473: A remote timed write. -/
  | twrite (n : Nat) (f : Frame)
  /-- R473: MGT.TWSEQ.ARM written. -/
  | timedWriteArmLocal (o : Origin) (v : Nat)
  /-- R473: k·T. -/
  | timedWriteFire
  /-- R462: A log drain. -/
  | logdrain (n : Nat) (f : Frame)
  /-- R462: LOGACK, or LOG.ACKSEQ_HI written. -/
  | logack (via : Via)
  /-- R461: The LOG unit writes its next entry. -/
  | logEntryWrite
  /-- R462: The firmware copies entries to flash. -/
  | logFlashDrain (count : Nat) (ok : Bool)
  /-- R464: LOG.APPCMD with GO written. -/
  | logAppend (o : Origin) (v : Nat)
  /-- R106: A Mgmt frame for another device. -/
  | mgmtRelay (n : Nat) (f : Frame)
  /-- R471: An ECHOREP notice. -/
  | echorep (n : Nat) (f : Frame)
  /-- R477: A reply. -/
  | replyReceive (n : Nat) (f : Frame)
  /-- R477: TIMEOUT ticks without a reply in context `ctx`. -/
  | replyTimeout (ctx : Nat)
  /-- R486: Service 0x01. -/
  | ecallSend (core : Nat) (payload : List Byte) (dst : Nat)
  /-- R486: Service 0x02. -/
  | ecallPoll (core : Nat) (ctx : Nat)
  /-- R486: Service 0x03. -/
  | ecallIrqreg (core : Nat) (src : Nat) (handler : Nat)
  /-- R486: Service 0x04. -/
  | ecallNote (core : Nat) (typ : Nat) (addr : Nat) (old : Nat) (new : Nat)
  /-- R486: Service 0x05. -/
  | ecallTime (core : Nat)
  /-- R485: SER.SWISET written. -/
  | softwareInterruptSet (o : Origin) (v : Nat)
  /-- R491: A core has retired nothing for 2^20 cycles. -/
  | corelock (core : Nat)
  /-- R499: The diagnostics of lane `n`; none: no transceiver answers. -/
  | ddmRead (n : Nat) (bytes : Option (List Byte))
  /-- R497: PIN.GPIOSET written. -/
  | gpioSet (o : Origin) (v : Nat)
  /-- R497: PIN.GPIOCLR written. -/
  | gpioClr (o : Origin) (v : Nat)
  /-- R505: A bank supply leaves its range or level, or is good again. -/
  | bankSupplyFault (bank : Nat) (ok : Bool)
  /-- R521: The nERR ball against the drive. -/
  | nerrReadbackFault (high : Bool)
  /-- R66: The turn of a discovered cell; `key`: its place in the list. -/
  | basecampPoll (key : Nat)
  /-- R360: The partner's ring Order at this end. -/
  | ringOrderArrive (n : Nat) (f : Frame)
  /-- R360: The partner's trunk Order at this end. -/
  | trunkOrderArrive (n : Nat) (f : Frame)
  /-- R243: The one-shot ends its pulse. -/
  | bypassPulseEnd
  /-- R245: DSATn takes a level. -/
  | dsatRise (g : Nat) (high : Bool)
  /-- R321: The L15 link comes up or goes down. -/
  | ethLinkChange (up : Bool) (speed : Nat) (andone : Bool)
  /-- R466: The entropy source fails its test. -/
  | rngHealthFail
  /-- R451: The quote completes. -/
  | quoteDone
  /-- R398: A power transition completes. -/
  | powerTransitionDone
  /-- R481: 65 536 ticks since the reply of the entry. -/
  | journalEntryExpire (entry : Nat)
  /-- R474: A relayed request has had no reply. -/
  | relayContextTimeout (src : Nat) (sess : Nat) (ctr : Nat)
  /-- R394: A read of a local address; of the low word of a wide value it latches the upper word. -/
  | lowWordRead (o : Origin) (addr : Nat) (width : Nat)
  /-- R472: A request of an operation that is not listed. -/
  | badopRequest (n : Nat) (f : Frame)
  deriving DecidableEq, Repr

end Sys2Proof
end

