-- ==== Sys2Proof/WellFormed.lean ====
section
/-!
DEFINITION. WellFormed.lean: the operands that the world outside can hand over with a command: fields of their width, lanes, blocks, contexts that the
hardware has. The meanings are total; a term that is not well formed describes no event of this hardware.
-/

namespace Sys2Proof

def laneWf (n : Nat) : Bool := decide (n < 16)
def Origin.wf (o : Origin) : Bool := decide (o.agent < 10) && laneWf o.lane && decide (o.sess < 256) && decide (o.key < 256)
def Frame.wf (f : Frame) : Bool :=
  decide (f.ftype < 16) && decide (f.dir < 2) && decide (f.hop < 256) && decide (f.seq < 65536) && decide (f.dst < 65536) &&
    f.body.length % 8 == 0 && decide (f.rsv < 2 ^ 33)
def IdlePeer.wf (p : IdlePeer) : Bool := decide (p.sender < 65536)
def Straps.wf (x : Straps) : Bool := decide (x.boot < 4) && decide (x.clkm < 4) && decide (x.lockdly < 4)
def Via.wf : Via → Bool
  | .write o v => o.wf && decide (v < 2 ^ 32)
  | .frame n f => laneWf n && f.wf
/-- A width that the bus has (R8). -/
def widthWf (w : Nat) : Bool := w == 8 || w == 16 || w == 32 || w == 64
def SvFrame.wf (f : SvFrame) : Bool := decide (f.dstMac < 2 ^ 48) && decide (f.vid < 4096) && decide (f.appid < 65536) && f.chans.length == 8
def PtpMsg.wf (m : PtpMsg) : Bool := decide (m.domain < 256) && decide (m.seq < 65536)

/-- The command is one that can happen. -/
def WellFormed : Instr → Bool
  | .powerOnReset _ => true
  | .nresetAssert => true
  | .nresetRelease _ => true
  | .testenHigh _ => true
  | .linkResetCommand n f => laneWf n && f.wf
  | .softReset o reach => o.wf && decide (reach < 4)
  | .resetStartUp straps => straps.wf
  | .canvasLoad => true
  | .cpush n f => laneWf n && f.wf
  | .fwpush n f => laneWf n && f.wf
  | .pushTimeout _ => true
  | .stageCheckDone => true
  | .fwStageCheckDone => true
  | .canvasActivate via => via.wf
  | .canvasDiscard o v => o.wf && decide (v < 2 ^ 32)
  | .keypres n f => laneWf n && f.wf
  | .flashwr n f => laneWf n && f.wf
  | .flashWriteDone _ => true
  | .registerWrite o addr width value => o.wf && decide (addr < 2 ^ 32) && widthWf width && decide (value < 2 ^ width)
  | .cntclr o block lane => o.wf && decide (block < 23) && laneWf lane
  | .laneUp n => laneWf n
  | .laneDown n _ => laneWf n
  | .laneReady n _ => laneWf n
  | .losAssert n _ => laneWf n
  | .idleFrame n _ _ _ peer => laneWf n && peer.wf
  | .forwardFrame n f => laneWf n && f.wf
  | .frameRelaunch n => laneWf n
  | .ratecmdArm o n v => o.wf && laneWf n && decide (v < 2 ^ 32)
  | .rateSwitch n => laneWf n
  | .unwrapArm o n v => o.wf && laneWf n && decide (v < 2 ^ 32)
  | .unwrapTakeEffect n => laneWf n
  | .sampleInstant => true
  | .tallyLaunch => true
  | .tallyPass n f => laneWf n && f.wf
  | .ringTallyArrive n f => laneWf n && f.wf
  | .crossLinkTallyReceive f => f.wf
  | .trunkTallyPass n f => laneWf n && f.wf
  | .trunkTallyArrive n f => laneWf n && f.wf
  | .screeDecision => true
  | .referenceLossBlock => true
  | .orderLaunch _ => true
  | .orderReceive n f => laneWf n && f.wf
  | .trunkOrderReceive n f => laneWf n && f.wf
  | .crossLinkOrderReceive f => f.wf
  | .orderMissed => true
  | .missedOrderBlock => true
  | .applyInstant => true
  | .trimEnd => true
  | .swingCheck idx _ _ => decide (idx < 8)
  | .exclude f => f.wf
  | .include f => f.wf
  | .snaprec f => f.wf
  | .clrcnt f => f.wf
  | .localgrant f => f.wf
  | .localend f => f.wf
  | .dtreset via => via.wf
  | .bypass f => f.wf
  | .localDutyEnd => true
  | .localPeriodEnd => true
  | .grantExpire => true
  | .pwmCommit o v => o.wf && decide (v < 2 ^ 32)
  | .calnow o v _ dev => o.wf && decide (v < 2 ^ 32) && decide (dev < 2 ^ 16)
  | .delayLineCalibration _ dev => decide (dev < 2 ^ 16)
  | .forceWrite o v => o.wf && decide (v < 2 ^ 32)
  | .snapatArm o v => o.wf && decide (v < 2 ^ 32)
  | .counterSnapshot => true
  | .debugHalt core => decide (core < 10)
  | .debugResume => true
  | .vcapConversion _ _ => true
  | .vcapConversionFail _ => true
  | .sleTrip => true
  | .vrefOutOfBand _ => true
  | .auxConversion n raw => decide (n < 4) && decide (raw < 65536)
  | .dieTempConversion code => decide (code < 2 ^ 16)
  | .sdmOutput n _ => decide (n < 8)
  | .sdmFastOutput n _ => decide (n < 8)
  | .sdmStuck n _ => decide (n < 8)
  | .capWindowClose => true
  | .capRestart o v => o.wf && decide (v < 2 ^ 32)
  | .epeakClear o v => o.wf && decide (v < 2 ^ 32)
  | .hardSlvTrip => true
  | .dsatEvent g => decide (g < 4)
  | .bypRbChange _ => true
  | .bypassClosureCheck => true
  | .watchdogService o key => o.wf && decide (key < 65536)
  | .watchdogExpire => true
  | .pairMismatch => true
  | .enableReadbackMismatch rb => decide (rb < 16)
  | .comparatorSelfTest _ _ => true
  | .testPulseStart => true
  | .testPulseOpenCheck _ => true
  | .testPulseClose => true
  | .testPulseCloseCheck _ => true
  | .testIncompleteTimeout n => decide (n < 4)
  | .dischargeStart o v => o.wf && decide (v < 2 ^ 32)
  | .dischargeStop o v => o.wf && decide (v < 2 ^ 32)
  | .dischargeCompare => true
  | .dischargeTimeout => true
  | .contextStart c => decide (c < 128)
  | .contextRun e => decide (e < 4)
  | .contextCommit e => decide (e < 4)
  | .contextDeadline c => decide (c < 128)
  | .swapRequest o c _ => o.wf && decide (c < 128)
  | .resetst o c => o.wf && decide (c < 128)
  | .coefApertureWrite o w v => o.wf && decide (w < 256) && decide (v < 2 ^ 32)
  | .armctlBlockWrite o v => o.wf && decide (v < 2 ^ 32)
  | .segmentSumSweep => true
  | .timeFrameLaunch => true
  | .timeFrameReceive n f _ => laneWf n && f.wf
  | .domainValidityExpire x => decide (x < 2)
  | .domswArm o v => o.wf && decide (v < 2 ^ 32)
  | .domainSwitch => true
  | .tbIncrCommit o hi => o.wf && decide (hi < 2 ^ 32)
  | .tbStep o v => o.wf && decide (v < 2 ^ 32)
  | .tbSnapshot o v => o.wf && decide (v < 2 ^ 32)
  | .compareArm o n _ v => o.wf && decide (n < 8) && decide (v < 2 ^ 32)
  | .compareFire n => decide (n < 8)
  | .ptpSync _ m _ => m.wf
  | .ptpAnnounce _ m => m.wf
  | .ptpAnnounceTimeout => true
  | .ptpPdelayReq _ m _ => m.wf
  | .ptpPdelayInterval => true
  | .ptpPdelayResp _ m _ => m.wf
  | .pauseFrame _ => true
  | .svFrameReceive _ f _ => f.wf
  | .svLost stream => decide (stream < 8)
  | .echoStart o n v => o.wf && laneWf n && decide (v < 2 ^ 32)
  | .echoAuto n => laneWf n
  | .echoRequestSend n => laneWf n
  | .echoRequest n f _ => laneWf n && f.wf
  | .echoResponse n f _ => laneWf n && f.wf
  | .echoResult n f => laneWf n && f.wf
  | .echoAbandon n => laneWf n
  | .markReceive n f => laneWf n && f.wf
  | .markTatReached => true
  | .geoRowLatch _ _ => true
  | .recordProcessingDone => true
  | .geoArm o v => o.wf && decide (v < 2 ^ 32)
  | .geoStop o v => o.wf && decide (v < 2 ^ 32)
  | .geoTrig o v => o.wf && decide (v < 2 ^ 32)
  | .geoMark o v => o.wf && decide (v < 2 ^ 32)
  | .geoFree o v => o.wf && decide (v < 2 ^ 32)
  | .geoStallRearm => true
  | .capup n f => laneWf n && f.wf
  | .reclockTimeout slot => decide (slot < 64)
  | .capasm n f => laneWf n && f.wf
  | .hello n f => laneWf n && f.wf
  | .pairHelloSend => true
  | .pairForm => true
  | .formWaitExpire => true
  | .heartbeatDeadline => true
  | .redYieldArm o v => o.wf && decide (v < 2 ^ 32)
  | .yieldTakeEffect => true
  | .redJoin o v => o.wf && decide (v < 2 ^ 32)
  | .redRelease o v => o.wf && decide (v < 2 ^ 32)
  | .xfer n f _ => laneWf n && f.wf
  | .transferAdmissionTimeout c => decide (c < 128)
  | .jquery n f => laneWf n && f.wf
  | .referenceLoss => true
  | .holdoverExpire => true
  | .clockStop => true
  | .clockReturn => true
  | .srcselGo o v => o.wf && decide (v < 2 ^ 32)
  | .referenceSwitchDone => true
  | .ringClockService r => decide (r < 12)
  | .frequencyMeterStart o v => o.wf && decide (v < 2 ^ 32)
  | .frequencyMeterDone _ => true
  | .clockGateWrite o v busy => o.wf && decide (v < 2 ^ 32) && decide (busy < 2 ^ 23)
  | .pwrCmdArm o v => o.wf && decide (v < 2 ^ 32)
  | .powerTransition => true
  | .scrubRead mem struck => decide (mem < 6) && decide (struck < 73)
  | .scrubPassEnd mem => decide (mem < 6)
  | .paritySweep _ => true
  | .injectionArm o v => o.wf && decide (v < 2 ^ 32)
  | .pendingTrapTaken core => decide (core < 4)
  | .fuseProgram o v _ => o.wf && decide (v < 2 ^ 32)
  | .fuseProgramDone _ _ => true
  | .attest n f => laneWf n && f.wf
  | .sopen n f => laneWf n && f.wf
  | .sconf n f => laneWf n && f.wf
  | .handshakeTimeout sess => decide (sess < 8)
  | .backoffExpire => true
  | .sclose n f => laneWf n && f.wf
  | .sessionIdleTimeout sess => decide (sess < 8)
  | .keyinst n f => laneWf n && f.wf
  | .discover n f => laneWf n && f.wf
  | .read n f => laneWf n && f.wf
  | .write n f => laneWf n && f.wf
  | .twrite n f => laneWf n && f.wf
  | .timedWriteArmLocal o v => o.wf && decide (v < 2 ^ 32)
  | .timedWriteFire => true
  | .logdrain n f => laneWf n && f.wf
  | .logack via => via.wf
  | .logEntryWrite => true
  | .logFlashDrain _ _ => true
  | .logAppend o v => o.wf && decide (v < 2 ^ 32)
  | .mgmtRelay n f => laneWf n && f.wf
  | .echorep n f => laneWf n && f.wf
  | .replyReceive n f => laneWf n && f.wf
  | .replyTimeout ctx => decide (ctx < 129)
  | .ecallSend core _ dst => decide (core < 4) && decide (dst < 65536)
  | .ecallPoll core ctx => decide (core < 4) && decide (ctx < 129)
  | .ecallIrqreg core src handler => decide (core < 4) && decide (src < 24) && decide (handler < 2 ^ 32)
  | .ecallNote core typ addr old new => decide (core < 4) && decide (typ < 128) && decide (addr < 2 ^ 32) && decide (old < 2 ^ 32) && decide (new < 2 ^ 32)
  | .ecallTime core => decide (core < 4)
  | .softwareInterruptSet o v => o.wf && decide (v < 2 ^ 32)
  | .corelock core => decide (core < 4)
  | .ddmRead n _ => laneWf n
  | .gpioSet o v => o.wf && decide (v < 2 ^ 32)
  | .gpioClr o v => o.wf && decide (v < 2 ^ 32)
  | .bankSupplyFault bank _ => decide (bank < 2)
  | .nerrReadbackFault _ => true
  | .basecampPoll key => decide (key < 1536)
  | .ringOrderArrive n f => laneWf n && f.wf
  | .trunkOrderArrive n f => laneWf n && f.wf
  | .bypassPulseEnd => true
  | .dsatRise g _ => decide (g < 4)
  | .ethLinkChange _ speed _ => decide (speed < 4)
  | .rngHealthFail => true
  | .quoteDone => true
  | .powerTransitionDone => true
  | .journalEntryExpire entry => decide (entry < 256)
  | .relayContextTimeout src sess ctr => decide (src < 65536) && decide (sess < 256) && decide (ctr < 2 ^ 32)
  | .lowWordRead o addr width => o.wf && decide (addr < 2 ^ 32) && widthWf width
  | .badopRequest n f => laneWf n && f.wf

end Sys2Proof
end

