-- ==== Sys2Proof/Decode.lean ====
section
/-!
DEFINITION. Decode.lean: this block decodes no instructions; the table of commands gives its rows no bits, so no word spells a command.
-/

namespace Sys2Proof

/-- The command that `nbits` bits of a word spell by the table: no row of it gives bits. -/
def decodeTableWord (_nbits _w : Nat) : Option Instr := none

end Sys2Proof
end

