-- ==== Sys2Proof/Config.lean ====
section
/-!
DEFINITION. Config.lean: what the spec leaves open. Each constant is opaque and has no body: nothing in Lean can evaluate it, so a
statement about a value it gives holds for every value.
-/

namespace Sys2Proof.Config

/-- A value that the spec leaves open, numbered by the model's own counter `State.free`; fresh at each use. -/
opaque freeNat : Nat → Nat

/-- The random bytes of the SEC entropy source (R466): the i-th draw of n bytes. -/
opaque entropy : Nat → Nat → List Byte

/-- The contents of the boot ROM (R522), by address: the spec gives its place and size and not its bytes. -/
opaque bootRom : Nat → Byte

/-- Fused trims whose place and values the spec does not give (R213): gain in units of 2^−20 and offset in units of 1/16 code of the
VCAP converter. -/
opaque fusedGain : Int
opaque fusedOffset : Int
/-- The same of the VSW converter (R217). -/
opaque fusedVswGain : Int
opaque fusedVswOffset : Int

/-- The content of a canvas section of a type (R42) from its bytes; none where its length or structure is not what the type defines. The spec
gives no layout of section contents. -/
opaque sectionBody : Nat → List Byte → Option SectionBody

end Sys2Proof.Config
end

