-- ==== Sys2Proof/Machine/Bytes.lean ====
section
/-!
DEFINITION. Machine/Bytes.lean: little-endian fields in byte lists (R10, R79), saturating and wrapping counts, signed readings of
unsigned values.
-/

namespace Sys2Proof.Machine

/-- Byte `i` of a byte list; 0 beyond its end. -/
def byteAt (bs : List Byte) (i : Nat) : Nat := (bs.getD i 0).toNat

/-- The little-endian number in bytes `i` to `i + n − 1` (R10, R79). -/
def leAt (bs : List Byte) (i : Nat) : Nat → Nat
  | 0 => 0
  | n + 1 => byteAt bs i + 256 * leAt bs (i + 1) n

/-- The `n` little-endian bytes of `v` (R10, R79). -/
def toLE : Nat → Nat → List Byte
  | 0, _ => []
  | n + 1, v => BitVec.ofNat 8 v :: toLE n (v / 256)

/-- The number of a whole byte list, little-endian. -/
def fromLE (bs : List Byte) : Nat := bs.foldr (fun b n => b.toNat + 256 * n) 0

/-- The number of a whole byte list, big-endian (the order of ECDSA integers in SEC 1). -/
def fromBE (bs : List Byte) : Nat := bs.foldl (fun n b => 256 * n + b.toNat) 0

/-- The `n` big-endian bytes of `v`. -/
def toBE (n v : Nat) : List Byte := (toLE n v).reverse

/-- `bs` with the bytes `xs` written from index `i`; bytes that fall beyond the end are dropped. -/
def putBytes (bs : List Byte) (i : Nat) (xs : List Byte) : List Byte :=
  bs.take i ++ (xs.take (bs.length - i)) ++ bs.drop (i + xs.length)

/-- `bs` with the `n` little-endian bytes of `v` at index `i`. -/
def putLE (bs : List Byte) (i n v : Nat) : List Byte := putBytes bs i (toLE n v)

/-- `n` bytes from index `i`, short at the end of the list. -/
def sliceB (bs : List Byte) (i n : Nat) : List Byte := (bs.drop i).take n

/-- `n` zero bytes. -/
def zeroB (n : Nat) : List Byte := List.replicate n 0

/-- A `Bool` as the value of a one-bit field. -/
def bit (b : Bool) : Nat := if b then 1 else 0

/-- The signed reading of the `w`-bit value `v` (two's complement). -/
def toSigned (w v : Nat) : Int := if v % 2 ^ w < 2 ^ (w - 1) then (v % 2 ^ w : Nat) else (v % 2 ^ w : Nat) - (2 : Int) ^ w

/-- The `w`-bit two's complement of an integer. -/
def ofSigned (w : Nat) (i : Int) : Nat := (i % (2 : Int) ^ w).toNat

/-- `a − b` modulo 2^w, read as a signed number (the sequence comparisons of R84 and R143). -/
def seqDiff (w a b : Nat) : Int := toSigned w (a % 2 ^ w + (2 ^ w - b % 2 ^ w))

/-- Rounded division, halves to the even quotient. -/
def divRoundEven (n : Int) (d : Nat) : Int :=
  let q := n / d
  let r := n % d
  if 2 * r < d then q
  else if 2 * r > d then q + 1
  else if q % 2 = 0 then q else q + 1

/-- Rounded division, halves upwards. -/
def divRoundHalfUp (n : Int) (d : Nat) : Int := (2 * n + d) / (2 * d)

/-- Clamp an integer into [lo, hi]. -/
def clampI (lo hi x : Int) : Int := if x < lo then lo else if hi < x then hi else x

/-- How many of 0 … n − 1 satisfy `p`. -/
def countBelow (p : Nat → Bool) (n : Nat) : Nat := ((List.range n).filter p).length

/-- The number whose bit `i`, for i < n, is `p i`. -/
def maskOf (p : Nat → Bool) (n : Nat) : Nat := (List.range n).foldl (fun m i => m + bit (p i) * 2 ^ i) 0

/-- Rounding to nearest, ties away from zero, of n / d. -/
def divRoundAway (n : Int) (d : Nat) : Int :=
  if 0 ≤ n then (2 * n + d) / (2 * d) else -((2 * (-n) + d) / (2 * d))

end Sys2Proof.Machine
end

