-- ==== Sys2Proof/Machine/Regs.lean ====
section
/-!
DEFINITION. Machine/Regs.lean: the register tables of the spec as data. One `RegGroup` per register (or per group of
registers that repeats at a stride), one `FieldSpec` per field that is not reserved: its bits, access type (R3), reset value
and reach (R6), copied field by field from the defining table that the docstring of each list names (R527 is the index).
A register or bit that no group lists reads as 0 and ignores writes (R7, R9).
-/

namespace Sys2Proof.Machine

/-- The access types of R3. -/
inductive Access where
  | ro | rw | wo | w1c | rwl | rwa
  deriving DecidableEq, Repr

/-- The reaches of R6, narrowest first; `none` is the dash of the tables: no reset but the initialisation of the always-on
domain (R404) restores the field. -/
inductive Reach where
  | block | warm | cold | none
  deriving DecidableEq, Repr

/-- The order of R6: `block < warm < cold`, and `none` above every reset of a reach. -/
def Reach.rank : Reach → Nat
  | .block => 1
  | .warm => 2
  | .cold => 3
  | .none => 4

/-- One field of a register: bits [lo + w − 1 : lo], access, reset value, reach. -/
structure FieldSpec where
  lo : Nat
  w : Nat
  access : Access
  reset : Nat
  reach : Reach
  deriving DecidableEq, Repr

/-- A register at window offset `off`, repeated `d.2` times at stride `d.1` for each `d` of `dims`. -/
structure RegGroup where
  off : Nat
  dims : List (Nat × Nat)
  fields : List FieldSpec
  deriving DecidableEq, Repr

/-- The window offset `x`, counted from a group's first register, is one of its repetitions. -/
def inDims : List (Nat × Nat) → Nat → Bool
  | [], x => x == 0
  | d :: ds, x =>
    -- the strides of the tables fall from left to right, so the outer index is the quotient
    let i := x / d.1
    if i < d.2 then inDims ds (x - d.1 * i) else false

/-- The group holds the register at window offset `off`. -/
def RegGroup.has (g : RegGroup) (off : Nat) : Bool :=
  if off < g.off then false else inDims g.dims (off - g.off)


/-- The registers of SYS (R442, R526), part 1 of 2. -/
def regsSYS_0 : List RegGroup :=
  [ ⟨0x100, [], [⟨0, 1, .rwl, 0x1, .warm⟩, ⟨1, 1, .rwl, 0x1, .warm⟩, ⟨16, 16, .rwl, 0x200, .warm⟩]⟩, -- MEMCFG
    ⟨0x104, [], [⟨0, 32, .rwl, 0x10, .warm⟩]⟩, -- CETHRESH
    ⟨0x110, [(0x10, 3)], [⟨0, 32, .ro, 0x0, .warm⟩]⟩, -- ECC_ADDR
    ⟨0x114, [(0x10, 3)], [⟨0, 8, .ro, 0x0, .warm⟩, ⟨8, 1, .ro, 0x0, .warm⟩, ⟨9, 1, .ro, 0x0, .warm⟩, ⟨10, 2, .ro, 0x0, .warm⟩, ⟨12, 2, .ro, 0x0, .warm⟩]⟩, -- ECC_INFO
    ⟨0x118, [(0x10, 3)], [⟨0, 32, .ro, 0x0, .warm⟩]⟩, -- ECC_CECNT
    ⟨0x11C, [(0x10, 3)], [⟨0, 32, .ro, 0x0, .warm⟩]⟩, -- ECC_UECNT
    ⟨0x140, [], [⟨0, 16, .ro, 0x0, .warm⟩, ⟨16, 16, .ro, 0x0, .warm⟩]⟩, -- SCRUBPASS
    ⟨0x150, [], [⟨0, 32, .ro, 0x0, .warm⟩]⟩, -- PARADDR
    ⟨0x154, [], [⟨0, 32, .ro, 0x0, .warm⟩]⟩, -- PARCNT
    ⟨0x160, [], [⟨0, 16, .w1c, 0x0, .warm⟩]⟩, -- LNKFLT
    ⟨0x164, [], [⟨0, 16, .ro, 0x0, .block⟩]⟩, -- LNKLIVE
    ⟨0x170, [], [⟨0, 4, .rwa, 0x0, .warm⟩, ⟨4, 1, .rwa, 0x0, .warm⟩, ⟨8, 4, .rwa, 0x0, .warm⟩, ⟨12, 1, .wo, 0x0, .none⟩, ⟨13, 1, .ro, 0x0, .warm⟩, ⟨14, 1, .w1c, 0x0, .warm⟩]⟩, -- INJCTL
    ⟨0x174, [], [⟨0, 32, .rwa, 0x0, .warm⟩]⟩, -- INJADDR
    ⟨0x178, [], [⟨0, 1, .w1c, 0x0, .warm⟩, ⟨1, 1, .w1c, 0x0, .warm⟩]⟩, -- INJSTAT
    ⟨0x17C, [], [⟨0, 32, .ro, 0x0, .warm⟩]⟩, -- INJCNT
    ⟨0x180, [], [⟨0, 5, .ro, 0x0, .cold⟩, ⟨8, 5, .ro, 0x0, .cold⟩, ⟨16, 1, .ro, 0x0, .cold⟩]⟩, -- RSTSRC
    ⟨0x1FC, [], [⟨0, 1, .wo, 0x0, .none⟩]⟩, -- CNTCLR
    ⟨0x200, [], [⟨0, 6, .w1c, 0x0, .warm⟩]⟩, -- FLTSTAT
    ⟨0x204, [], [⟨0, 6, .ro, 0x0, .block⟩]⟩, -- FLTLIVE
    ⟨0x208, [], [⟨0, 6, .rw, 0x0, .block⟩]⟩] -- FLTIEN

/-- The registers of SYS (R442, R526), part 2 of 2. -/
def regsSYS_1 : List RegGroup :=
  [ ⟨0x20C, [], [⟨0, 24, .rwl, 0x0, .block⟩]⟩, -- REACT
    ⟨0x0, [], [⟨0, 16, .ro, 0x7316, .none⟩, ⟨16, 8, .ro, 0x1, .none⟩]⟩, -- PARTID
    ⟨0x4, [], [⟨0, 16, .ro, 0x7FFE, .none⟩, ⟨16, 8, .ro, 0xFF, .none⟩]⟩, -- DEVADDR
    ⟨0x8, [], [⟨0, 16, .ro, 0x0, .none⟩]⟩, -- SENIOR
    ⟨0x20, [], [⟨0, 32, .ro, 0x0, .warm⟩]⟩, -- BUSERRADDR
    ⟨0x24, [], [⟨0, 4, .ro, 0x0, .warm⟩, ⟨4, 1, .ro, 0x0, .warm⟩]⟩] -- BUSERRINFO

/-- The registers of the window of SYS. -/
def regsSYS : List RegGroup := regsSYS_0 ++ regsSYS_1

/-- The registers of CLK (R401), part 1 of 1. -/
def regsCLK_0 : List RegGroup :=
  [ ⟨0x0, [], [⟨0, 1, .rwl, 0x1, .block⟩]⟩, -- CTRL
    ⟨0x4, [], [⟨0, 4, .ro, 0x0, .cold⟩, ⟨4, 1, .ro, 0x0, .cold⟩, ⟨5, 1, .ro, 0x0, .cold⟩, ⟨6, 1, .ro, 0x0, .cold⟩, ⟨7, 1, .ro, 0x0, .cold⟩, ⟨8, 2, .ro, 0x0, .cold⟩, ⟨10, 2, .ro, 0x0, .cold⟩]⟩, -- STAT
    ⟨0x8, [], [⟨0, 4, .rwa, 0x0, .cold⟩, ⟨4, 1, .wo, 0x0, .none⟩]⟩, -- SRCSEL
    ⟨0xC, [], [⟨0, 16, .rwl, 0xFFFF, .block⟩]⟩, -- ALTLIST
    ⟨0x10, [], [⟨0, 8, .rwl, 0x2, .warm⟩, ⟨8, 8, .rwl, 0x4, .warm⟩, ⟨16, 8, .rwl, 0xC, .warm⟩]⟩, -- DIV
    ⟨0x14, [], [⟨0, 23, .rwa, 0x7FFFFF, .warm⟩]⟩, -- GATE
    ⟨0x18, [], [⟨0, 32, .ro, 0x0, .cold⟩]⟩, -- HOLDTIME
    ⟨0x20, [], [⟨0, 5, .rw, 0x0, .block⟩, ⟨8, 5, .rw, 0x10, .block⟩, ⟨16, 1, .wo, 0x0, .none⟩, ⟨17, 1, .ro, 0x0, .block⟩, ⟨18, 1, .w1c, 0x0, .block⟩]⟩, -- FMCFG
    ⟨0x24, [], [⟨0, 32, .rw, 0xF4240, .block⟩]⟩, -- FMGATE
    ⟨0x28, [], [⟨0, 32, .ro, 0x0, .block⟩]⟩, -- FMCOUNT
    ⟨0x80, [], [⟨0, 32, .ro, 0x0, .warm⟩]⟩, -- SWITCHES
    ⟨0x84, [], [⟨0, 32, .ro, 0x0, .warm⟩]⟩, -- HOLDOVERS
    ⟨0x88, [], [⟨0, 32, .ro, 0x0, .warm⟩]⟩, -- SAFEENTRY
    ⟨0x8C, [], [⟨0, 32, .ro, 0x0, .warm⟩]⟩, -- ABORTS
    ⟨0x90, [], [⟨0, 32, .ro, 0x0, .warm⟩]⟩, -- REFUSALS
    ⟨0xFC, [], [⟨0, 1, .wo, 0x0, .none⟩]⟩, -- CNTCLR
    ⟨0x100, [], [⟨0, 5, .w1c, 0x0, .warm⟩]⟩, -- FLTSTAT
    ⟨0x104, [], [⟨0, 5, .ro, 0x0, .block⟩]⟩, -- FLTLIVE
    ⟨0x108, [], [⟨0, 5, .rw, 0x0, .block⟩]⟩, -- FLTIEN
    ⟨0x10C, [], [⟨0, 20, .rwl, 0x0, .block⟩]⟩] -- REACT

/-- The registers of the window of CLK. -/
def regsCLK : List RegGroup := regsCLK_0

/-- The registers of PWR (R402), part 1 of 1. -/
def regsPWR_0 : List RegGroup :=
  [ ⟨0x0, [], [⟨0, 16, .rwa, 0x0, .warm⟩, ⟨16, 2, .rwa, 0x1, .warm⟩, ⟨18, 1, .wo, 0x0, .none⟩, ⟨19, 1, .ro, 0x0, .warm⟩, ⟨20, 1, .w1c, 0x0, .warm⟩]⟩, -- CMD
    ⟨0x4, [], [⟨0, 2, .ro, 0x1, .warm⟩, ⟨2, 1, .ro, 0x0, .warm⟩, ⟨3, 4, .ro, 0x0, .warm⟩]⟩, -- STAT
    ⟨0x8, [], [⟨0, 32, .ro, 0x0, .warm⟩]⟩, -- LASTDUR
    ⟨0x80, [], [⟨0, 32, .ro, 0x0, .warm⟩]⟩, -- TRANSITIONS
    ⟨0x84, [], [⟨0, 32, .ro, 0x0, .warm⟩]⟩, -- REFUSED
    ⟨0xFC, [], [⟨0, 1, .wo, 0x0, .none⟩]⟩, -- CNTCLR
    ⟨0x100, [], [⟨0, 1, .w1c, 0x0, .warm⟩]⟩, -- FLTSTAT
    ⟨0x104, [], [⟨0, 1, .ro, 0x0, .warm⟩]⟩, -- FLTLIVE
    ⟨0x108, [], [⟨0, 1, .rw, 0x0, .block⟩]⟩, -- FLTIEN
    ⟨0x10C, [], [⟨0, 4, .rwl, 0x0, .block⟩]⟩] -- REACT

/-- The registers of the window of PWR. -/
def regsPWR : List RegGroup := regsPWR_0

/-- The registers of RST (R420), part 1 of 2. -/
def regsRST_0 : List RegGroup :=
  [ ⟨0x0, [], [⟨0, 10, .w1c, 0x1, .none⟩]⟩, -- CAUSE
    ⟨0x4, [], [⟨0, 2, .ro, 0x3, .none⟩, ⟨2, 1, .ro, 0x1, .none⟩]⟩, -- LAST
    ⟨0x8, [], [⟨0, 23, .ro, 0x0, .none⟩]⟩, -- LASTBLK
    ⟨0xC, [], [⟨0, 1, .rwl, 0x0, .warm⟩, ⟨1, 1, .rwl, 0x0, .warm⟩]⟩, -- CFG
    ⟨0x10, [], [⟨0, 23, .rw, 0x0, .warm⟩]⟩, -- SWMASK
    ⟨0x14, [], [⟨0, 2, .wo, 0x0, .none⟩]⟩, -- SWCMD
    ⟨0x18, [], [⟨0, 2, .ro, 0x0, .warm⟩, ⟨2, 2, .ro, 0x0, .warm⟩, ⟨4, 2, .ro, 0x0, .warm⟩, ⟨6, 1, .ro, 0x0, .warm⟩]⟩, -- STRAPS
    ⟨0x1C, [], [⟨0, 4, .ro, 0x1, .warm⟩]⟩, -- PITCH
    ⟨0x20, [], [⟨0, 32, .ro, 0x0, .none⟩]⟩, -- RCOUNT
    ⟨0x24, [], [⟨0, 32, .ro, 0x0, .none⟩]⟩, -- LASTHELD
    ⟨0x80, [], [⟨0, 32, .ro, 0x0, .none⟩]⟩, -- PINCNT
    ⟨0x84, [], [⟨0, 32, .ro, 0x0, .none⟩]⟩, -- LINKCNT
    ⟨0x88, [], [⟨0, 32, .ro, 0x0, .none⟩]⟩, -- LINKREJ
    ⟨0x8C, [], [⟨0, 32, .ro, 0x0, .none⟩]⟩, -- CRITCNT
    ⟨0x90, [], [⟨0, 32, .ro, 0x0, .none⟩]⟩, -- PAIRCNT
    ⟨0x94, [], [⟨0, 32, .ro, 0x0, .none⟩]⟩, -- BLKCNT
    ⟨0xFC, [], [⟨0, 1, .wo, 0x0, .none⟩]⟩, -- CNTCLR
    ⟨0x100, [], [⟨0, 3, .w1c, 0x0, .none⟩]⟩, -- FLTSTAT
    ⟨0x104, [], [⟨0, 3, .ro, 0x0, .none⟩]⟩, -- FLTLIVE
    ⟨0x108, [], [⟨0, 3, .rw, 0x0, .warm⟩]⟩] -- FLTIEN

/-- The registers of RST (R420), part 2 of 2. -/
def regsRST_1 : List RegGroup :=
  [ ⟨0x10C, [], [⟨0, 12, .rwl, 0x0, .warm⟩]⟩] -- REACT

/-- The registers of the window of RST. -/
def regsRST : List RegGroup := regsRST_0 ++ regsRST_1

/-- The registers of FUSE (R467), part 1 of 1. -/
def regsFUSE_0 : List RegGroup :=
  [ ⟨0x0, [(0x4, 128)], [⟨0, 32, .ro, 0x0, .none⟩]⟩, -- WORD
    ⟨0x400, [], [⟨0, 7, .rwa, 0x0, .warm⟩]⟩, -- PROGADDR
    ⟨0x404, [], [⟨0, 32, .rwa, 0x0, .warm⟩]⟩, -- PROGDATA
    ⟨0x408, [], [⟨0, 1, .wo, 0x0, .none⟩, ⟨1, 1, .ro, 0x0, .warm⟩, ⟨2, 1, .w1c, 0x0, .warm⟩, ⟨3, 1, .w1c, 0x0, .warm⟩, ⟨4, 1, .ro, 0x0, .warm⟩]⟩, -- PROGCMD
    ⟨0x410, [(0x4, 4)], [⟨0, 32, .ro, 0x0, .none⟩]⟩, -- MISMATCH
    ⟨0x480, [], [⟨0, 32, .ro, 0x0, .warm⟩]⟩, -- PROGCNT
    ⟨0x500, [], [⟨0, 2, .w1c, 0x0, .warm⟩]⟩, -- FLTSTAT
    ⟨0x504, [], [⟨0, 2, .ro, 0x0, .block⟩]⟩, -- FLTLIVE
    ⟨0x508, [], [⟨0, 2, .rw, 0x0, .block⟩]⟩, -- FLTIEN
    ⟨0x50C, [], [⟨0, 8, .rwl, 0x0, .block⟩]⟩] -- REACT

/-- The registers of the window of FUSE. -/
def regsFUSE : List RegGroup := regsFUSE_0

/-- The registers of SEC (R468), part 1 of 1. -/
def regsSEC_0 : List RegGroup :=
  [ ⟨0x0, [], [⟨0, 2, .ro, 0x0, .warm⟩, ⟨2, 1, .ro, 0x0, .warm⟩, ⟨3, 8, .ro, 0x0, .warm⟩, ⟨11, 2, .ro, 0x0, .warm⟩, ⟨13, 2, .ro, 0x0, .warm⟩]⟩, -- BOOTSTAT
    ⟨0x4, [], [⟨0, 1, .ro, 0x0, .none⟩, ⟨1, 1, .ro, 0x0, .none⟩, ⟨2, 1, .ro, 0x0, .warm⟩, ⟨3, 1, .ro, 0x0, .warm⟩, ⟨4, 4, .ro, 0x0, .warm⟩]⟩, -- STAT
    ⟨0x8, [], [⟨0, 32, .ro, 0x0, .warm⟩]⟩, -- FWID
    ⟨0xC, [], [⟨0, 32, .ro, 0x0, .warm⟩]⟩, -- FWSECVER
    ⟨0x20, [(0x4, 8)], [⟨0, 32, .ro, 0x0, .cold⟩]⟩, -- FWHASH
    ⟨0x40, [(0x4, 16)], [⟨0, 32, .ro, 0x0, .none⟩]⟩, -- IDPUB
    ⟨0x100, [(0x10, 8)], [⟨0, 1, .ro, 0x0, .warm⟩, ⟨1, 2, .ro, 0x0, .warm⟩, ⟨3, 5, .ro, 0x0, .warm⟩, ⟨8, 8, .ro, 0x0, .warm⟩]⟩, -- SESS_STAT
    ⟨0x104, [(0x10, 8)], [⟨0, 32, .ro, 0x0, .warm⟩]⟩, -- SESS_CTRIN
    ⟨0x108, [(0x10, 8)], [⟨0, 32, .ro, 0x0, .warm⟩]⟩, -- SESS_CTROUT
    ⟨0x180, [], [⟨0, 32, .ro, 0x0, .warm⟩]⟩, -- SIGFAILS
    ⟨0x184, [], [⟨0, 32, .ro, 0x0, .warm⟩]⟩, -- SESSFAILS
    ⟨0x188, [], [⟨0, 32, .ro, 0x0, .warm⟩]⟩, -- HMACFAILS
    ⟨0x18C, [], [⟨0, 32, .ro, 0x0, .warm⟩]⟩, -- KEYREJ
    ⟨0x1FC, [], [⟨0, 1, .wo, 0x0, .none⟩]⟩, -- CNTCLR
    ⟨0x200, [], [⟨0, 5, .w1c, 0x0, .warm⟩]⟩, -- FLTSTAT
    ⟨0x204, [], [⟨0, 5, .ro, 0x0, .block⟩]⟩, -- FLTLIVE
    ⟨0x208, [], [⟨0, 5, .rw, 0x0, .block⟩]⟩, -- FLTIEN
    ⟨0x20C, [], [⟨0, 20, .rwl, 0x0, .block⟩]⟩] -- REACT

/-- The registers of the window of SEC. -/
def regsSEC : List RegGroup := regsSEC_0

/-- The registers of LOG (R469), part 1 of 2. -/
def regsLOG_0 : List RegGroup :=
  [ ⟨0x0, [], [⟨0, 1, .rwl, 0x0, .cold⟩]⟩, -- CTRL
    ⟨0x4, [], [⟨0, 5, .ro, 0x0, .cold⟩]⟩, -- STAT
    ⟨0x8, [], [⟨0, 32, .ro, 0x0, .cold⟩]⟩, -- WRSEQ_LO
    ⟨0xC, [], [⟨0, 32, .ro, 0x0, .cold⟩]⟩, -- WRSEQ_HI
    ⟨0x10, [], [⟨0, 32, .ro, 0x0, .cold⟩]⟩, -- RDSEQ_LO
    ⟨0x14, [], [⟨0, 32, .ro, 0x0, .cold⟩]⟩, -- RDSEQ_HI
    ⟨0x18, [], [⟨0, 32, .ro, 0x0, .cold⟩]⟩, -- LOST
    ⟨0x1C, [], [⟨0, 32, .ro, 0x0, .cold⟩]⟩, -- RUNLOST
    ⟨0x20, [(0x4, 8)], [⟨0, 32, .ro, 0x0, .cold⟩]⟩, -- HEAD
    ⟨0x40, [], [⟨0, 32, .rw, 0x0, .cold⟩]⟩, -- APPADDR
    ⟨0x44, [], [⟨0, 32, .rw, 0x0, .cold⟩]⟩, -- APPOLD
    ⟨0x48, [], [⟨0, 32, .rw, 0x0, .cold⟩]⟩, -- APPNEW
    ⟨0x4C, [], [⟨0, 7, .wo, 0x0, .none⟩, ⟨7, 1, .wo, 0x0, .none⟩]⟩, -- APPCMD
    ⟨0x50, [], [⟨0, 32, .rw, 0x0, .cold⟩]⟩, -- ACKSEQ_LO
    ⟨0x54, [], [⟨0, 32, .rw, 0x0, .cold⟩]⟩, -- ACKSEQ_HI
    ⟨0x100, [], [⟨0, 32, .rwl, 0x210000, .cold⟩]⟩, -- FLASHBASE
    ⟨0x104, [], [⟨0, 32, .rwl, 0x100000, .cold⟩]⟩, -- FLASHSIZE
    ⟨0x200, [], [⟨0, 3, .w1c, 0x0, .warm⟩]⟩, -- FLTSTAT
    ⟨0x204, [], [⟨0, 3, .ro, 0x0, .block⟩]⟩, -- FLTLIVE
    ⟨0x208, [], [⟨0, 3, .rw, 0x0, .block⟩]⟩] -- FLTIEN

/-- The registers of LOG (R469), part 2 of 2. -/
def regsLOG_1 : List RegGroup :=
  [ ⟨0x20C, [], [⟨0, 12, .rwl, 0x0, .block⟩]⟩] -- REACT

/-- The registers of the window of LOG. -/
def regsLOG : List RegGroup := regsLOG_0 ++ regsLOG_1

/-- The registers of CNV (R69), part 1 of 1. -/
def regsCNV_0 : List RegGroup :=
  [ ⟨0x0, [], [⟨0, 1, .ro, 0x0, .warm⟩, ⟨1, 1, .ro, 0x0, .warm⟩, ⟨2, 1, .ro, 0x1, .warm⟩, ⟨3, 1, .ro, 0x0, .warm⟩, ⟨4, 1, .ro, 0x0, .cold⟩, ⟨5, 1, .ro, 0x0, .warm⟩, ⟨6, 2, .ro, 0x0, .warm⟩, ⟨8, 8, .ro, 0x0, .warm⟩, ⟨16, 1, .ro, 0x0, .warm⟩]⟩, -- STAT
    ⟨0x4, [], [⟨0, 1, .wo, 0x0, .none⟩, ⟨1, 1, .wo, 0x0, .none⟩]⟩, -- CMD
    ⟨0x8, [], [⟨0, 2, .ro, 0x0, .warm⟩, ⟨2, 1, .ro, 0x0, .warm⟩, ⟨3, 5, .ro, 0x0, .warm⟩]⟩, -- ROLE
    ⟨0xC, [], [⟨0, 32, .ro, 0x0, .warm⟩]⟩, -- ID
    ⟨0x10, [], [⟨0, 32, .ro, 0x0, .warm⟩]⟩, -- SECVER
    ⟨0x14, [], [⟨0, 32, .ro, 0x0, .warm⟩]⟩, -- PAIRTAG
    ⟨0x18, [], [⟨0, 8, .ro, 0x0, .warm⟩]⟩, -- ERRSECT
    ⟨0x20, [(0x4, 8)], [⟨0, 32, .ro, 0x0, .cold⟩]⟩, -- HASH
    ⟨0x40, [], [⟨0, 23, .ro, 0x0, .warm⟩]⟩, -- LOCK
    ⟨0x44, [], [⟨0, 23, .ro, 0x0, .warm⟩]⟩, -- INST
    ⟨0x48, [], [⟨0, 32, .ro, 0x0, .warm⟩]⟩, -- LOCKVIOL
    ⟨0x4C, [], [⟨0, 32, .ro, 0x0, .warm⟩]⟩, -- LOCKADDR
    ⟨0x50, [], [⟨0, 8, .ro, 0x0, .warm⟩]⟩, -- SKIPPED
    ⟨0x54, [], [⟨0, 32, .ro, 0x0, .warm⟩]⟩, -- LOADTIME
    ⟨0x58, [], [⟨0, 32, .ro, 0x0, .warm⟩]⟩] -- STAGELEN

/-- The registers of the window of CNV. -/
def regsCNV : List RegGroup := regsCNV_0

/-- The registers of TB (R148), part 1 of 2. -/
def regsTB_0 : List RegGroup :=
  [ ⟨0x0, [], [⟨0, 1, .rwl, 0x1, .cold⟩, ⟨1, 4, .rw, 0x0, .cold⟩]⟩, -- CTRL
    ⟨0x4, [], [⟨0, 1, .ro, 0x0, .cold⟩, ⟨1, 1, .ro, 0x0, .cold⟩, ⟨2, 1, .ro, 0x0, .cold⟩, ⟨3, 1, .ro, 0x0, .cold⟩, ⟨4, 1, .ro, 0x0, .cold⟩, ⟨5, 1, .w1c, 0x0, .cold⟩, ⟨6, 1, .ro, 0x0, .cold⟩, ⟨7, 1, .w1c, 0x0, .cold⟩, ⟨8, 1, .w1c, 0x0, .cold⟩, ⟨9, 1, .w1c, 0x0, .cold⟩, ⟨10, 1, .w1c, 0x0, .cold⟩]⟩, -- STAT
    ⟨0x8, [], [⟨0, 32, .ro, 0x0, .cold⟩]⟩, -- SHORT
    ⟨0xC, [], [⟨0, 30, .ro, 0x0, .cold⟩]⟩, -- NSEC
    ⟨0x10, [], [⟨0, 32, .ro, 0x0, .cold⟩]⟩, -- SEC_LO
    ⟨0x14, [], [⟨0, 16, .ro, 0x0, .cold⟩]⟩, -- SEC_HI
    ⟨0x18, [], [⟨0, 32, .ro, 0x0, .cold⟩]⟩, -- TICK_LO
    ⟨0x1C, [], [⟨0, 32, .ro, 0x0, .cold⟩]⟩, -- TICK_HI
    ⟨0x20, [], [⟨0, 1, .wo, 0x0, .none⟩]⟩, -- SNAP
    ⟨0x24, [], [⟨0, 32, .ro, 0x0, .cold⟩]⟩, -- SNAP_SHORT
    ⟨0x28, [], [⟨0, 6, .ro, 0x0, .cold⟩]⟩, -- SNAP_FRAC
    ⟨0x2C, [], [⟨0, 30, .ro, 0x0, .cold⟩]⟩, -- SNAP_NSEC
    ⟨0x30, [], [⟨0, 32, .ro, 0x0, .cold⟩]⟩, -- SNAP_SEC_LO
    ⟨0x34, [], [⟨0, 16, .ro, 0x0, .cold⟩]⟩, -- SNAP_SEC_HI
    ⟨0x38, [], [⟨0, 32, .ro, 0x0, .cold⟩]⟩, -- SNAP_TICK_LO
    ⟨0x3C, [], [⟨0, 32, .ro, 0x0, .cold⟩]⟩, -- SNAP_TICK_HI
    ⟨0x40, [], [⟨0, 32, .rwa, 0x0, .cold⟩]⟩, -- INCR_LO
    ⟨0x44, [], [⟨0, 32, .rwa, 0x5, .cold⟩]⟩, -- INCR_HI
    ⟨0x48, [], [⟨0, 32, .rwa, 0x0, .cold⟩]⟩, -- SETSEC_LO
    ⟨0x4C, [], [⟨0, 16, .rwa, 0x0, .cold⟩]⟩] -- SETSEC_HI

/-- The registers of TB (R148), part 2 of 2. -/
def regsTB_1 : List RegGroup :=
  [ ⟨0x50, [], [⟨0, 30, .rwa, 0x0, .cold⟩]⟩, -- SETNS
    ⟨0x54, [], [⟨0, 1, .wo, 0x0, .none⟩]⟩, -- SETCMD
    ⟨0x58, [], [⟨0, 12, .ro, 0x3E8, .cold⟩]⟩, -- TICKLEN
    ⟨0x5C, [], [⟨0, 16, .ro, 0xA, .cold⟩, ⟨16, 16, .ro, 0xAA, .cold⟩]⟩, -- SCHED0
    ⟨0x60, [], [⟨0, 16, .ro, 0xC8, .cold⟩, ⟨16, 16, .ro, 0x190, .cold⟩]⟩, -- SCHED1
    ⟨0x64, [], [⟨0, 32, .ro, 0x0, .cold⟩]⟩, -- OFFA
    ⟨0x68, [], [⟨0, 32, .ro, 0x0, .cold⟩]⟩, -- OFFB
    ⟨0x6C, [], [⟨0, 32, .ro, 0x0, .cold⟩]⟩, -- HANDOFF
    ⟨0x70, [], [⟨0, 16, .rw, 0x0, .cold⟩, ⟨16, 1, .rw, 0x0, .cold⟩, ⟨17, 1, .wo, 0x0, .none⟩, ⟨18, 1, .ro, 0x0, .cold⟩, ⟨19, 1, .w1c, 0x0, .cold⟩]⟩, -- DOMSW
    ⟨0x74, [], [⟨0, 32, .ro, 0x0, .cold⟩]⟩, -- TACCA
    ⟨0x78, [], [⟨0, 32, .ro, 0x0, .cold⟩]⟩, -- TACCB
    ⟨0x7C, [], [⟨0, 32, .ro, 0x0, .cold⟩]⟩, -- PTPOFF
    ⟨0x100, [(0x10, 8)], [⟨0, 32, .rw, 0x0, .block⟩]⟩, -- CMP_TARGET
    ⟨0x104, [(0x10, 8)], [⟨0, 32, .rw, 0x0, .block⟩]⟩, -- CMP_PERIOD
    ⟨0x108, [(0x10, 8)], [⟨0, 1, .rw, 0x0, .block⟩, ⟨1, 1, .rw, 0x0, .block⟩, ⟨2, 4, .rw, 0x0, .block⟩, ⟨6, 1, .w1c, 0x0, .block⟩, ⟨7, 1, .w1c, 0x0, .block⟩]⟩, -- CMP_CTRL
    ⟨0x10C, [(0x10, 8)], [⟨0, 32, .ro, 0x0, .block⟩]⟩] -- CMP_FIRECNT

/-- The registers of the window of TB. -/
def regsTB : List RegGroup := regsTB_0 ++ regsTB_1

/-- The registers of LNK (R119), part 1 of 2. -/
def regsLNK_0 : List RegGroup :=
  [ ⟨0x0, [(0x1000, 2)], [⟨0, 2, .rwl, 0x1, .none⟩, ⟨2, 1, .rwl, 0x0, .none⟩, ⟨3, 1, .rw, 0x0, .none⟩, ⟨4, 1, .rw, 0x0, .none⟩, ⟨5, 1, .rwl, 0x1, .none⟩]⟩, -- CTRL
    ⟨0x2000, [(0x1000, 14)], [⟨0, 2, .rwl, 0x0, .none⟩, ⟨2, 1, .rwl, 0x0, .none⟩, ⟨3, 1, .rw, 0x0, .none⟩, ⟨4, 1, .rw, 0x0, .none⟩, ⟨5, 1, .rwl, 0x1, .none⟩]⟩, -- CTRL
    ⟨0x4, [(0x1000, 16)], [⟨0, 1, .ro, 0x0, .none⟩, ⟨1, 1, .ro, 0x0, .none⟩, ⟨2, 1, .ro, 0x1, .none⟩, ⟨3, 1, .ro, 0x0, .none⟩, ⟨4, 1, .ro, 0x0, .none⟩, ⟨5, 1, .ro, 0x0, .none⟩, ⟨6, 1, .ro, 0x0, .none⟩, ⟨7, 1, .w1c, 0x0, .none⟩, ⟨8, 8, .ro, 0xFF, .none⟩, ⟨16, 8, .ro, 0xFF, .none⟩]⟩, -- STAT
    ⟨0x8, [(0x1000, 16)], [⟨0, 32, .rw, 0x0, .none⟩]⟩, -- RATEAT
    ⟨0xC, [(0x1000, 16)], [⟨0, 1, .rw, 0x1, .none⟩, ⟨1, 1, .wo, 0x0, .none⟩, ⟨2, 1, .ro, 0x0, .none⟩, ⟨3, 1, .w1c, 0x0, .none⟩]⟩, -- RATECMD
    ⟨0x10, [(0x1000, 16)], [⟨0, 16, .rw, 0x0, .none⟩, ⟨16, 1, .wo, 0x0, .none⟩, ⟨17, 1, .ro, 0x0, .none⟩, ⟨18, 1, .w1c, 0x0, .none⟩]⟩, -- UNWRAP
    ⟨0x14, [(0x1000, 16)], [⟨0, 32, .ro, 0x0, .none⟩]⟩, -- DELAY
    ⟨0x18, [(0x1000, 16)], [⟨0, 16, .rwl, 0x0, .none⟩]⟩, -- ASYM
    ⟨0x1C, [(0x1000, 16)], [⟨0, 1, .wo, 0x0, .none⟩, ⟨1, 1, .ro, 0x0, .none⟩]⟩, -- ECHOCMD
    ⟨0x20, [(0x1000, 16)], [⟨0, 16, .ro, 0xFFFF, .none⟩]⟩, -- ARRIVE
    ⟨0x40, [(0x1000, 16)], [⟨0, 32, .ro, 0x0, .none⟩]⟩, -- SYNCERR
    ⟨0x44, [(0x1000, 16)], [⟨0, 32, .ro, 0x0, .none⟩]⟩, -- BLKERR
    ⟨0x48, [(0x1000, 16)], [⟨0, 32, .ro, 0x0, .none⟩]⟩, -- CRCERR
    ⟨0x4C, [(0x1000, 16)], [⟨0, 32, .ro, 0x0, .none⟩]⟩, -- STOMPED
    ⟨0x50, [(0x1000, 16)], [⟨0, 32, .ro, 0x0, .none⟩]⟩, -- SEQERR
    ⟨0x54, [(0x1000, 16)], [⟨0, 32, .ro, 0x0, .none⟩]⟩, -- PREEMPT
    ⟨0x58, [(0x1000, 16)], [⟨0, 32, .ro, 0x0, .none⟩]⟩, -- OVERFLOW
    ⟨0x5C, [(0x1000, 16)], [⟨0, 32, .ro, 0x0, .none⟩]⟩, -- BRKDROP
    ⟨0x60, [(0x1000, 16)], [⟨0, 32, .ro, 0x0, .none⟩]⟩, -- UNROUTE
    ⟨0x64, [(0x1000, 16)], [⟨0, 32, .ro, 0x0, .none⟩]⟩] -- BADLEN

/-- The registers of LNK (R119), part 2 of 2. -/
def regsLNK_1 : List RegGroup :=
  [ ⟨0x68, [(0x1000, 16)], [⟨0, 32, .ro, 0x0, .none⟩]⟩, -- DUPDROP
    ⟨0x6C, [(0x1000, 16)], [⟨0, 32, .ro, 0x0, .none⟩]⟩, -- LOCKLOSS
    ⟨0x80, [(0x1000, 16)], [⟨0, 32, .ro, 0x0, .none⟩]⟩, -- RXFRM_LO
    ⟨0x84, [(0x1000, 16)], [⟨0, 16, .ro, 0x0, .none⟩]⟩, -- RXFRM_HI
    ⟨0x88, [(0x1000, 16)], [⟨0, 32, .ro, 0x0, .none⟩]⟩, -- TXFRM_LO
    ⟨0x8C, [(0x1000, 16)], [⟨0, 16, .ro, 0x0, .none⟩]⟩, -- TXFRM_HI
    ⟨0xFC, [(0x1000, 16)], [⟨0, 1, .wo, 0x0, .none⟩]⟩] -- CNTCLR

/-- The registers of the window of LNK. -/
def regsLNK : List RegGroup := regsLNK_0 ++ regsLNK_1

/-- The registers of SCR (R177), part 1 of 4. -/
def regsSCR_0 : List RegGroup :=
  [ ⟨0x0, [], [⟨0, 4, .rwl, 0x0, .block⟩, ⟨4, 4, .rwl, 0x0, .block⟩, ⟨8, 1, .rwl, 0x0, .block⟩, ⟨9, 1, .rwl, 0x1, .block⟩, ⟨16, 8, .rwl, 0x9D, .block⟩]⟩, -- CFG
    ⟨0x4, [], [⟨0, 8, .rwl, 0x60, .block⟩]⟩, -- EXCLMASK
    ⟨0x8, [], [⟨0, 32, .rwl, 0x41200000, .block⟩]⟩, -- ISIGNDB
    ⟨0xC, [], [⟨0, 32, .rwl, 0x40000, .block⟩]⟩, -- SHAREMAX
    ⟨0x40, [], [⟨0, 16, .ro, 0x0, .block⟩, ⟨16, 16, .rwl, 0x400, .block⟩]⟩, -- BINEDGE
    ⟨0x44, [], [⟨0, 16, .rwl, 0x800, .block⟩, ⟨16, 16, .rwl, 0xC00, .block⟩]⟩, -- BINEDGE
    ⟨0x48, [], [⟨0, 16, .rwl, 0x1000, .block⟩, ⟨16, 16, .rwl, 0x1400, .block⟩]⟩, -- BINEDGE
    ⟨0x4C, [], [⟨0, 16, .rwl, 0x1800, .block⟩, ⟨16, 16, .rwl, 0x1C00, .block⟩]⟩, -- BINEDGE
    ⟨0x50, [], [⟨0, 16, .rwl, 0x2000, .block⟩, ⟨16, 16, .rwl, 0x2400, .block⟩]⟩, -- BINEDGE
    ⟨0x54, [], [⟨0, 16, .rwl, 0x2800, .block⟩, ⟨16, 16, .rwl, 0x2C00, .block⟩]⟩, -- BINEDGE
    ⟨0x58, [], [⟨0, 16, .rwl, 0x3000, .block⟩, ⟨16, 16, .rwl, 0x3400, .block⟩]⟩, -- BINEDGE
    ⟨0x5C, [], [⟨0, 16, .rwl, 0x3800, .block⟩, ⟨16, 16, .rwl, 0x3C00, .block⟩]⟩, -- BINEDGE
    ⟨0x60, [], [⟨0, 16, .rwl, 0x4000, .block⟩, ⟨16, 16, .rwl, 0x4400, .block⟩]⟩, -- BINEDGE
    ⟨0x64, [], [⟨0, 16, .rwl, 0x4800, .block⟩, ⟨16, 16, .rwl, 0x4C00, .block⟩]⟩, -- BINEDGE
    ⟨0x68, [], [⟨0, 16, .rwl, 0x5000, .block⟩, ⟨16, 16, .rwl, 0x5400, .block⟩]⟩, -- BINEDGE
    ⟨0x6C, [], [⟨0, 16, .rwl, 0x5800, .block⟩, ⟨16, 16, .rwl, 0x5C00, .block⟩]⟩, -- BINEDGE
    ⟨0x70, [], [⟨0, 16, .rwl, 0x6000, .block⟩, ⟨16, 16, .rwl, 0x6400, .block⟩]⟩, -- BINEDGE
    ⟨0x74, [], [⟨0, 16, .rwl, 0x6800, .block⟩, ⟨16, 16, .rwl, 0x6C00, .block⟩]⟩, -- BINEDGE
    ⟨0x78, [], [⟨0, 16, .rwl, 0x7000, .block⟩, ⟨16, 16, .rwl, 0x7400, .block⟩]⟩, -- BINEDGE
    ⟨0x7C, [], [⟨0, 16, .rwl, 0x7800, .block⟩, ⟨16, 16, .rwl, 0x7C00, .block⟩]⟩] -- BINEDGE

/-- The registers of SCR (R177), part 2 of 4. -/
def regsSCR_1 : List RegGroup :=
  [ ⟨0x80, [], [⟨0, 16, .rwl, 0x8000, .block⟩, ⟨16, 16, .rwl, 0x8400, .block⟩]⟩, -- BINEDGE
    ⟨0x84, [], [⟨0, 16, .rwl, 0x8800, .block⟩, ⟨16, 16, .rwl, 0x8C00, .block⟩]⟩, -- BINEDGE
    ⟨0x88, [], [⟨0, 16, .rwl, 0x9000, .block⟩, ⟨16, 16, .rwl, 0x9400, .block⟩]⟩, -- BINEDGE
    ⟨0x8C, [], [⟨0, 16, .rwl, 0x9800, .block⟩, ⟨16, 16, .rwl, 0x9C00, .block⟩]⟩, -- BINEDGE
    ⟨0x90, [], [⟨0, 16, .rwl, 0xA000, .block⟩, ⟨16, 16, .rwl, 0xA400, .block⟩]⟩, -- BINEDGE
    ⟨0x94, [], [⟨0, 16, .rwl, 0xA800, .block⟩, ⟨16, 16, .rwl, 0xAC00, .block⟩]⟩, -- BINEDGE
    ⟨0x98, [], [⟨0, 16, .rwl, 0xB000, .block⟩, ⟨16, 16, .rwl, 0xB400, .block⟩]⟩, -- BINEDGE
    ⟨0x9C, [], [⟨0, 16, .rwl, 0xB800, .block⟩, ⟨16, 16, .rwl, 0xBC00, .block⟩]⟩, -- BINEDGE
    ⟨0xA0, [], [⟨0, 16, .rwl, 0xC000, .block⟩, ⟨16, 16, .rwl, 0xC400, .block⟩]⟩, -- BINEDGE
    ⟨0xA4, [], [⟨0, 16, .rwl, 0xC800, .block⟩, ⟨16, 16, .rwl, 0xCC00, .block⟩]⟩, -- BINEDGE
    ⟨0xA8, [], [⟨0, 16, .rwl, 0xD000, .block⟩, ⟨16, 16, .rwl, 0xD400, .block⟩]⟩, -- BINEDGE
    ⟨0xAC, [], [⟨0, 16, .rwl, 0xD800, .block⟩, ⟨16, 16, .rwl, 0xDC00, .block⟩]⟩, -- BINEDGE
    ⟨0xB0, [], [⟨0, 16, .rwl, 0xE000, .block⟩, ⟨16, 16, .rwl, 0xE400, .block⟩]⟩, -- BINEDGE
    ⟨0xB4, [], [⟨0, 16, .rwl, 0xE800, .block⟩, ⟨16, 16, .rwl, 0xEC00, .block⟩]⟩, -- BINEDGE
    ⟨0xB8, [], [⟨0, 16, .rwl, 0xF000, .block⟩, ⟨16, 16, .rwl, 0xF400, .block⟩]⟩, -- BINEDGE
    ⟨0xBC, [], [⟨0, 16, .rwl, 0xF800, .block⟩, ⟨16, 16, .rwl, 0xFC00, .block⟩]⟩, -- BINEDGE
    ⟨0x100, [], [⟨0, 32, .rw, 0x0, .block⟩]⟩, -- XIN
    ⟨0x104, [], [⟨0, 32, .ro, 0x0, .block⟩]⟩, -- XSHARE
    ⟨0x108, [], [⟨0, 32, .ro, 0x0, .block⟩]⟩, -- XUSED
    ⟨0x10C, [], [⟨0, 6, .ro, 0x0, .block⟩, ⟨6, 1, .ro, 0x0, .block⟩, ⟨7, 1, .ro, 0x0, .block⟩, ⟨8, 1, .ro, 0x0, .block⟩, ⟨9, 1, .ro, 0x0, .block⟩, ⟨12, 4, .ro, 0x0, .block⟩, ⟨16, 8, .ro, 0x0, .block⟩]⟩] -- DEC

/-- The registers of SCR (R177), part 3 of 4. -/
def regsSCR_2 : List RegGroup :=
  [ ⟨0x110, [], [⟨0, 16, .ro, 0x0, .block⟩, ⟨16, 16, .ro, 0x0, .block⟩]⟩, -- DECN
    ⟨0x114, [], [⟨0, 16, .ro, 0x0, .block⟩, ⟨16, 16, .ro, 0x0, .block⟩]⟩, -- AVAIL
    ⟨0x118, [], [⟨0, 24, .ro, 0xFFFFFF, .block⟩]⟩, -- MODES
    ⟨0x11C, [], [⟨0, 16, .ro, 0x0, .block⟩]⟩, -- INSNOW
    ⟨0x120, [(0x4, 3)], [⟨0, 32, .ro, 0x0, .warm⟩]⟩, -- RINGLEN
    ⟨0x130, [], [⟨0, 1, .rwa, 0x1, .block⟩]⟩, -- ARMCTL
    ⟨0x200, [], [⟨0, 6, .ro, 0x0, .block⟩, ⟨6, 1, .ro, 0x0, .block⟩, ⟨7, 1, .ro, 0x0, .block⟩, ⟨8, 1, .ro, 0x0, .warm⟩, ⟨9, 1, .ro, 0x0, .block⟩, ⟨10, 1, .ro, 0x0, .block⟩, ⟨11, 1, .ro, 0x0, .block⟩, ⟨16, 8, .ro, 0x0, .block⟩]⟩, -- CSTAT
    ⟨0x204, [], [⟨0, 8, .ro, 0x0, .block⟩, ⟨8, 8, .ro, 0x0, .block⟩, ⟨16, 6, .ro, 0x0, .block⟩, ⟨22, 1, .ro, 0x0, .block⟩, ⟨24, 8, .ro, 0x0, .block⟩]⟩, -- CSNAP
    ⟨0x280, [], [⟨0, 32, .ro, 0x0, .warm⟩]⟩, -- MISSED
    ⟨0x284, [], [⟨0, 32, .ro, 0x0, .warm⟩]⟩, -- DWELLHOLD
    ⟨0x288, [], [⟨0, 32, .ro, 0x0, .warm⟩]⟩, -- REFUSED
    ⟨0x28C, [], [⟨0, 32, .ro, 0x0, .warm⟩]⟩, -- XLATE
    ⟨0x290, [], [⟨0, 32, .ro, 0x0, .warm⟩]⟩, -- SAT
    ⟨0x294, [], [⟨0, 32, .ro, 0x0, .warm⟩]⟩, -- SHORT
    ⟨0x298, [], [⟨0, 32, .ro, 0x0, .warm⟩]⟩, -- COUNTERR
    ⟨0x29C, [], [⟨0, 32, .ro, 0x0, .warm⟩]⟩, -- MARGIN
    ⟨0x2A0, [], [⟨0, 32, .ro, 0x0, .warm⟩]⟩, -- SHARELATE
    ⟨0x2A4, [], [⟨0, 32, .ro, 0x0, .warm⟩]⟩, -- NEGCLAMP
    ⟨0x2FC, [], [⟨0, 1, .wo, 0x0, .none⟩]⟩, -- CNTCLR
    ⟨0x300, [], [⟨0, 8, .w1c, 0x0, .warm⟩]⟩] -- FLTSTAT

/-- The registers of SCR (R177), part 4 of 4. -/
def regsSCR_3 : List RegGroup :=
  [ ⟨0x304, [], [⟨0, 8, .ro, 0x0, .block⟩]⟩, -- FLTLIVE
    ⟨0x308, [], [⟨0, 8, .rw, 0x0, .block⟩]⟩, -- FLTIEN
    ⟨0x30C, [], [⟨0, 32, .rwl, 0x0, .block⟩]⟩, -- REACT
    ⟨0x800, [(0x80, 6), (0x10, 8), (0x4, 4)], [⟨0, 32, .ro, 0x0, .block⟩]⟩] -- TENTRY

/-- The registers of the window of SCR. -/
def regsSCR : List RegGroup := regsSCR_0 ++ regsSCR_1 ++ regsSCR_2 ++ regsSCR_3

/-- The registers of PWM (R210), part 1 of 3. -/
def regsPWM_0 : List RegGroup :=
  [ ⟨0x0, [], [⟨0, 1, .wo, 0x0, .none⟩, ⟨1, 1, .wo, 0x0, .none⟩, ⟨2, 1, .wo, 0x0, .none⟩]⟩, -- CTRL
    ⟨0x4, [], [⟨0, 1, .rwl, 0x0, .block⟩, ⟨1, 1, .rwl, 0x0, .block⟩, ⟨2, 1, .rwl, 0x1, .block⟩, ⟨3, 1, .rwl, 0x1, .block⟩]⟩, -- CFG
    ⟨0x8, [], [⟨0, 3, .ro, 0x0, .block⟩, ⟨3, 1, .ro, 0x0, .block⟩, ⟨4, 1, .ro, 0x0, .block⟩, ⟨5, 1, .ro, 0x0, .block⟩, ⟨6, 1, .ro, 0x0, .block⟩, ⟨7, 1, .ro, 0x0, .block⟩, ⟨8, 1, .w1c, 0x0, .block⟩, ⟨9, 1, .w1c, 0x0, .block⟩, ⟨10, 1, .w1c, 0x0, .block⟩, ⟨11, 1, .w1c, 0x0, .block⟩]⟩, -- STAT
    ⟨0xC, [], [⟨0, 16, .rw, 0x3E8, .block⟩]⟩, -- PERIOD
    ⟨0x10, [], [⟨0, 18, .rw, 0x0, .block⟩]⟩, -- DUTY
    ⟨0x14, [], [⟨0, 2, .rw, 0x0, .block⟩, ⟨4, 2, .rw, 0x0, .block⟩]⟩, -- LSTATE
    ⟨0x18, [], [⟨0, 16, .rw, 0x500, .block⟩]⟩, -- DTFLOOR
    ⟨0x1C, [], [⟨0, 16, .rwl, 0x1400, .block⟩]⟩, -- DTCEIL
    ⟨0x20, [], [⟨0, 16, .rwl, 0x300, .block⟩]⟩, -- DTMIN
    ⟨0x24, [], [⟨0, 12, .rwl, 0x20, .block⟩, ⟨16, 12, .rwl, 0x100, .block⟩]⟩, -- DTADJ
    ⟨0x28, [], [⟨0, 16, .rwl, 0x1900, .block⟩]⟩, -- TRIMMIN
    ⟨0x2C, [], [⟨0, 32, .rwl, 0x41A00000, .block⟩]⟩, -- IDB
    ⟨0x30, [], [⟨0, 8, .rwl, 0x40, .block⟩, ⟨8, 8, .rwl, 0xC0, .block⟩, ⟨16, 16, .rwl, 0xF00, .block⟩]⟩, -- VSWTH
    ⟨0x34, [], [⟨0, 16, .rwl, 0x1000, .block⟩]⟩, -- SWVMIN
    ⟨0x40, [], [⟨0, 16, .ro, 0x3E8, .block⟩]⟩, -- ACTPERIOD
    ⟨0x44, [], [⟨0, 18, .ro, 0x0, .block⟩]⟩, -- ACTDUTY
    ⟨0x48, [], [⟨0, 6, .ro, 0x0, .block⟩]⟩, -- ACTLSTATE
    ⟨0x4C, [], [⟨0, 16, .ro, 0x500, .block⟩]⟩, -- ACTFLOOR
    ⟨0x50, [], [⟨0, 18, .ro, 0x0, .block⟩]⟩, -- TRIMLEN
    ⟨0x54, [], [⟨0, 16, .ro, 0x0, .block⟩]⟩] -- LGRANT

/-- The registers of PWM (R210), part 2 of 3. -/
def regsPWM_1 : List RegGroup :=
  [ ⟨0x60, [], [⟨0, 4, .rwa, 0x0, .block⟩, ⟨4, 4, .rwa, 0x0, .block⟩]⟩, -- FORCE
    ⟨0x80, [(0x4, 8)], [⟨0, 16, .ro, 0x1400, .block⟩, ⟨16, 16, .ro, 0xFFFF, .block⟩]⟩, -- DT
    ⟨0xA0, [], [⟨0, 1, .ro, 0x0, .block⟩, ⟨1, 3, .ro, 0x4, .block⟩, ⟨4, 5, .ro, 0x0, .warm⟩]⟩, -- CAL
    ⟨0xA4, [], [⟨0, 16, .ro, 0x0, .block⟩]⟩, -- CALDEV
    ⟨0x100, [(0x8, 4)], [⟨0, 32, .ro, 0x0, .cold⟩]⟩, -- ON_LO
    ⟨0x104, [(0x8, 4)], [⟨0, 16, .ro, 0x0, .cold⟩]⟩, -- ON_HI
    ⟨0x120, [(0x8, 4)], [⟨0, 32, .ro, 0x0, .cold⟩]⟩, -- SNAP_LO
    ⟨0x124, [(0x8, 4)], [⟨0, 16, .ro, 0x0, .cold⟩]⟩, -- SNAP_HI
    ⟨0x140, [], [⟨0, 16, .rw, 0x0, .block⟩, ⟨16, 1, .wo, 0x0, .none⟩, ⟨17, 1, .ro, 0x0, .block⟩, ⟨18, 1, .w1c, 0x0, .block⟩]⟩, -- SNAPAT
    ⟨0x180, [], [⟨0, 32, .ro, 0x0, .warm⟩]⟩, -- BLOCKS
    ⟨0x184, [], [⟨0, 32, .ro, 0x0, .warm⟩]⟩, -- LATECNT
    ⟨0x188, [], [⟨0, 32, .ro, 0x0, .warm⟩]⟩, -- TRIMSHORT
    ⟨0x18C, [], [⟨0, 32, .ro, 0x0, .warm⟩]⟩, -- TRIMLONG
    ⟨0x190, [], [⟨0, 32, .ro, 0x0, .warm⟩]⟩, -- INTERLOCK
    ⟨0x194, [], [⟨0, 32, .ro, 0x0, .warm⟩]⟩, -- NOSWING
    ⟨0x198, [], [⟨0, 32, .ro, 0x0, .warm⟩]⟩, -- DTCEILHIT
    ⟨0x19C, [], [⟨0, 32, .ro, 0x0, .warm⟩]⟩, -- HALTS
    ⟨0x1A0, [], [⟨0, 32, .ro, 0x0, .warm⟩]⟩, -- BADCMD
    ⟨0x1FC, [], [⟨0, 1, .wo, 0x0, .none⟩]⟩, -- CNTCLR
    ⟨0x200, [], [⟨0, 7, .w1c, 0x0, .warm⟩]⟩] -- FLTSTAT

/-- The registers of PWM (R210), part 3 of 3. -/
def regsPWM_2 : List RegGroup :=
  [ ⟨0x204, [], [⟨0, 7, .ro, 0x0, .block⟩]⟩, -- FLTLIVE
    ⟨0x208, [], [⟨0, 7, .rw, 0x0, .block⟩]⟩, -- FLTIEN
    ⟨0x20C, [], [⟨0, 28, .rwl, 0x0, .block⟩]⟩] -- REACT

/-- The registers of the window of PWM. -/
def regsPWM : List RegGroup := regsPWM_0 ++ regsPWM_1 ++ regsPWM_2

/-- The registers of ADC (R235), part 1 of 2. -/
def regsADC_0 : List RegGroup :=
  [ ⟨0x0, [], [⟨0, 1, .rwl, 0x1, .block⟩, ⟨1, 1, .rwl, 0x1, .block⟩, ⟨2, 1, .rwl, 0x0, .block⟩, ⟨3, 1, .rwl, 0x1, .block⟩]⟩, -- CTRL
    ⟨0x4, [], [⟨0, 1, .ro, 0x0, .block⟩, ⟨1, 1, .ro, 0x0, .block⟩]⟩, -- STAT
    ⟨0x8, [], [⟨0, 32, .rwl, 0x3D800000, .block⟩]⟩, -- VCAPSCALE
    ⟨0xC, [], [⟨0, 16, .rwl, 0x0, .block⟩, ⟨16, 16, .rwl, 0x0, .block⟩]⟩, -- VCAPTRIM
    ⟨0x10, [], [⟨0, 8, .rwl, 0x0, .block⟩]⟩, -- VCAPDLY
    ⟨0x14, [], [⟨0, 16, .ro, 0xFFFF, .block⟩]⟩, -- VCAP
    ⟨0x18, [], [⟨0, 16, .ro, 0xFFFF, .block⟩]⟩, -- VCAPSI
    ⟨0x1C, [], [⟨0, 16, .ro, 0x0, .warm⟩, ⟨16, 16, .ro, 0x0, .warm⟩]⟩, -- CALCORR
    ⟨0x20, [], [⟨0, 32, .rwl, 0x200, .block⟩]⟩, -- VSWK
    ⟨0x24, [], [⟨0, 10, .ro, 0x0, .block⟩]⟩, -- VSW
    ⟨0x30, [], [⟨0, 4, .rwl, 0x0, .block⟩, ⟨4, 1, .rwl, 0x0, .block⟩, ⟨5, 3, .rwl, 0x0, .block⟩, ⟨8, 3, .rwl, 0x4, .block⟩, ⟨11, 4, .rwl, 0x0, .block⟩]⟩, -- AUXCTL
    ⟨0x34, [], [⟨0, 16, .ro, 0x0, .block⟩]⟩, -- DIETEMP
    ⟨0x38, [], [⟨0, 8, .ro, 0xFF, .block⟩]⟩, -- TEMP
    ⟨0x40, [(0x4, 4)], [⟨0, 12, .ro, 0x0, .block⟩, ⟨12, 1, .ro, 0x0, .block⟩]⟩, -- AUXRAW
    ⟨0x50, [(0x4, 4)], [⟨0, 32, .ro, 0x0, .block⟩]⟩, -- AUXVAL
    ⟨0x60, [(0x4, 4)], [⟨0, 32, .rwl, 0x3F800000, .block⟩]⟩, -- AUXGAIN
    ⟨0x70, [(0x4, 4)], [⟨0, 32, .rwl, 0x0, .block⟩]⟩, -- AUXOFF
    ⟨0x180, [], [⟨0, 32, .ro, 0x0, .warm⟩]⟩, -- VCAPFAIL
    ⟨0x184, [], [⟨0, 32, .ro, 0x0, .warm⟩]⟩, -- AUXOVR
    ⟨0x188, [], [⟨0, 32, .ro, 0x0, .warm⟩]⟩] -- OVERCNT

/-- The registers of ADC (R235), part 2 of 2. -/
def regsADC_1 : List RegGroup :=
  [ ⟨0x18C, [], [⟨0, 32, .ro, 0x0, .warm⟩]⟩, -- CALCNT
    ⟨0x1FC, [], [⟨0, 1, .wo, 0x0, .none⟩]⟩, -- CNTCLR
    ⟨0x200, [], [⟨0, 7, .w1c, 0x0, .warm⟩]⟩, -- FLTSTAT
    ⟨0x204, [], [⟨0, 7, .ro, 0x0, .block⟩]⟩, -- FLTLIVE
    ⟨0x208, [], [⟨0, 7, .rw, 0x0, .block⟩]⟩, -- FLTIEN
    ⟨0x20C, [], [⟨0, 28, .rwl, 0x0, .block⟩]⟩, -- REACT
    ⟨0x300, [(0x80, 4), (0x4, 17)], [⟨0, 32, .rwl, 0x0, .block⟩]⟩] -- AUXTAB

/-- The registers of the window of ADC. -/
def regsADC : List RegGroup := regsADC_0 ++ regsADC_1

/-- The registers of ENV (R237, R261), part 1 of 3. -/
def regsENV_0 : List RegGroup :=
  [ ⟨0x0, [], [⟨0, 1, .rwl, 0x1, .block⟩, ⟨1, 1, .rwl, 0x1, .block⟩, ⟨2, 5, .rwl, 0x14, .block⟩]⟩, -- LCFG
    ⟨0x4, [], [⟨0, 32, .rwl, 0x3C23D70A, .block⟩]⟩, -- CNOM
    ⟨0x8, [], [⟨0, 32, .rwl, 0x42480000, .block⟩]⟩, -- CIMIN
    ⟨0xC, [], [⟨0, 24, .rwl, 0x10000, .block⟩]⟩, -- NMIN
    ⟨0x10, [], [⟨0, 32, .rwl, 0x3F7851EC, .block⟩]⟩, -- CWARN
    ⟨0x14, [], [⟨0, 32, .rwl, 0x3F666666, .block⟩]⟩, -- CFAIL
    ⟨0x18, [], [⟨0, 32, .rwl, 0x3B03126F, .block⟩]⟩, -- SIGREL
    ⟨0x20, [], [⟨0, 32, .ro, 0x0, .block⟩]⟩, -- VOLTS
    ⟨0x24, [], [⟨0, 32, .ro, 0x0, .block⟩]⟩, -- ENERGY
    ⟨0x28, [], [⟨0, 32, .ro, 0x0, .block⟩]⟩, -- ENERGYSI
    ⟨0x2C, [], [⟨0, 32, .ro, 0x3C23D70A, .block⟩]⟩, -- CLEDGER
    ⟨0x30, [], [⟨0, 32, .ro, 0x0, .warm⟩]⟩, -- CEST
    ⟨0x34, [], [⟨0, 32, .ro, 0x0, .warm⟩]⟩, -- CSIGMA
    ⟨0x38, [], [⟨0, 32, .ro, 0x0, .warm⟩]⟩, -- CLEAK
    ⟨0x3C, [], [⟨0, 24, .ro, 0x0, .warm⟩]⟩, -- CNUSED
    ⟨0x40, [], [⟨0, 2, .ro, 0x0, .warm⟩, ⟨2, 1, .ro, 0x0, .warm⟩, ⟨3, 1, .ro, 0x0, .block⟩]⟩, -- CSTAT
    ⟨0x44, [], [⟨0, 32, .ro, 0x0, .warm⟩]⟩, -- CWINCNT
    ⟨0x48, [], [⟨0, 1, .wo, 0x0, .none⟩, ⟨1, 1, .wo, 0x0, .none⟩]⟩, -- CCTL
    ⟨0x4C, [], [⟨0, 24, .ro, 0x0, .block⟩]⟩, -- CPROG
    ⟨0x50, [], [⟨0, 32, .ro, 0x0, .block⟩]⟩] -- EPEAK

/-- The registers of ENV (R237, R261), part 2 of 3. -/
def regsENV_1 : List RegGroup :=
  [ ⟨0x100, [], [⟨0, 3, .w1c, 0x0, .warm⟩]⟩, -- FLTSTAT
    ⟨0x104, [], [⟨0, 3, .ro, 0x0, .block⟩]⟩, -- FLTLIVE
    ⟨0x108, [], [⟨0, 3, .rw, 0x0, .block⟩]⟩, -- FLTIEN
    ⟨0x10C, [], [⟨0, 12, .rwl, 0x0, .block⟩]⟩, -- REACT
    ⟨0x200, [], [⟨0, 16, .rwl, 0xC800, .block⟩, ⟨16, 16, .rwl, 0x140, .block⟩]⟩, -- VSOFT
    ⟨0x204, [], [⟨0, 32, .rwl, 0x474B2000, .block⟩]⟩, -- EMAX
    ⟨0x208, [], [⟨0, 32, .rwl, 0x447A0000, .block⟩]⟩, -- EHYS
    ⟨0x20C, [], [⟨0, 32, .rwl, 0x4756D800, .block⟩]⟩, -- ETRIP
    ⟨0x210, [], [⟨0, 4, .rwl, 0x4, .block⟩]⟩, -- ETRIPN
    ⟨0x214, [], [⟨0, 32, .rwl, 0x41A00000, .block⟩]⟩, -- SDFDB
    ⟨0x218, [], [⟨0, 32, .rwl, 0x41480000, .block⟩]⟩, -- ERESID
    ⟨0x21C, [], [⟨0, 32, .rwl, 0xDBBA0, .block⟩]⟩, -- DISTIME
    ⟨0x220, [], [⟨0, 1, .wo, 0x0, .none⟩, ⟨1, 1, .wo, 0x0, .none⟩]⟩, -- DISCMD
    ⟨0x224, [], [⟨0, 2, .ro, 0x0, .block⟩, ⟨2, 1, .ro, 0x0, .block⟩]⟩, -- DISSTAT
    ⟨0x228, [], [⟨0, 32, .ro, 0x0, .block⟩]⟩, -- DISELAPSED
    ⟨0x22C, [], [⟨0, 1, .ro, 0x0, .block⟩, ⟨1, 1, .ro, 0x0, .block⟩, ⟨2, 1, .ro, 0x0, .block⟩, ⟨3, 1, .ro, 0x0, .cold⟩]⟩, -- SSTAT
    ⟨0x280, [], [⟨0, 32, .ro, 0x0, .warm⟩]⟩, -- SOFTCNT
    ⟨0x284, [], [⟨0, 32, .ro, 0x0, .warm⟩]⟩, -- SLECNT
    ⟨0x288, [], [⟨0, 32, .ro, 0x0, .warm⟩]⟩, -- SDFMID
    ⟨0x2FC, [], [⟨0, 1, .wo, 0x0, .none⟩]⟩] -- CNTCLR

/-- The registers of ENV (R237, R261), part 3 of 3. -/
def regsENV_2 : List RegGroup :=
  [ ⟨0x300, [], [⟨0, 5, .w1c, 0x0, .warm⟩]⟩, -- SFLTSTAT
    ⟨0x304, [], [⟨0, 5, .ro, 0x0, .block⟩]⟩, -- SFLTLIVE
    ⟨0x308, [], [⟨0, 5, .rw, 0x0, .block⟩]⟩, -- SFLTIEN
    ⟨0x30C, [], [⟨0, 20, .rwl, 0x0, .block⟩]⟩] -- SREACT

/-- The registers of the window of ENV. -/
def regsENV : List RegGroup := regsENV_0 ++ regsENV_1 ++ regsENV_2

/-- The registers of SAF (R262), part 1 of 2. -/
def regsSAF_0 : List RegGroup :=
  [ ⟨0x0, [], [⟨0, 1, .rwl, 0x0, .block⟩, ⟨1, 1, .rwl, 0x1, .block⟩, ⟨2, 1, .rwl, 0x1, .block⟩, ⟨3, 1, .rwl, 0x1, .block⟩]⟩, -- CFG
    ⟨0x4, [], [⟨0, 2, .ro, 0x0, .block⟩, ⟨2, 4, .ro, 0x0, .block⟩, ⟨6, 1, .ro, 0x0, .block⟩, ⟨7, 1, .ro, 0x0, .cold⟩, ⟨8, 1, .ro, 0x0, .cold⟩, ⟨9, 1, .ro, 0x0, .cold⟩, ⟨10, 1, .ro, 0x0, .block⟩, ⟨11, 1, .ro, 0x0, .warm⟩]⟩, -- STAT
    ⟨0x8, [], [⟨0, 12, .rwl, 0xC00, .block⟩]⟩, -- HARDV
    ⟨0xC, [], [⟨0, 8, .rwl, 0x14, .block⟩, ⟨8, 4, .rwl, 0xF, .block⟩]⟩, -- DSATCFG
    ⟨0x10, [], [⟨0, 16, .rwl, 0x96, .block⟩, ⟨16, 16, .rwl, 0x12C, .block⟩]⟩, -- TWOFF
    ⟨0x14, [], [⟨0, 8, .rwl, 0x3C, .block⟩, ⟨8, 8, .rwl, 0x1E, .block⟩, ⟨16, 8, .rwl, 0x40, .block⟩, ⟨24, 8, .rwl, 0xA, .block⟩]⟩, -- TPCFG
    ⟨0x18, [], [⟨0, 16, .rwl, 0x1388, .block⟩]⟩, -- BYPCFG
    ⟨0x1C, [], [⟨0, 16, .rwl, 0x100, .block⟩]⟩, -- CMPTEST
    ⟨0x20, [], [⟨0, 32, .ro, 0x0, .block⟩]⟩, -- INCRUN
    ⟨0x30, [], [⟨0, 32, .wo, 0x0, .none⟩]⟩, -- WDOG
    ⟨0x180, [], [⟨0, 32, .ro, 0x0, .warm⟩]⟩, -- TPDONE
    ⟨0x184, [], [⟨0, 32, .ro, 0x0, .warm⟩]⟩, -- TPABORT
    ⟨0x188, [], [⟨0, 32, .ro, 0x0, .warm⟩]⟩, -- TPDELAY
    ⟨0x18C, [], [⟨0, 32, .ro, 0x0, .warm⟩]⟩, -- TWSKIP
    ⟨0x190, [], [⟨0, 32, .ro, 0x0, .warm⟩]⟩, -- DSATIDLE
    ⟨0x194, [], [⟨0, 32, .ro, 0x0, .warm⟩]⟩, -- CMPTDONE
    ⟨0x1FC, [], [⟨0, 1, .wo, 0x0, .none⟩]⟩, -- CNTCLR
    ⟨0x200, [], [⟨0, 11, .w1c, 0x0, .warm⟩]⟩, -- FLTSTAT
    ⟨0x204, [], [⟨0, 11, .ro, 0x0, .block⟩]⟩, -- FLTLIVE
    ⟨0x208, [], [⟨0, 11, .rw, 0x0, .block⟩]⟩] -- FLTIEN

/-- The registers of SAF (R262), part 2 of 2. -/
def regsSAF_1 : List RegGroup :=
  [ ⟨0x20C, [], [⟨0, 12, .rwl, 0x0, .block⟩]⟩] -- REACT

/-- The registers of the window of SAF. -/
def regsSAF : List RegGroup := regsSAF_0 ++ regsSAF_1

/-- The registers of LPE (R293), part 1 of 2. -/
def regsLPE_0 : List RegGroup :=
  [ ⟨0x0, [], [⟨0, 4, .rwl, 0x0, .block⟩]⟩, -- CTRL
    ⟨0x4, [], [⟨0, 4, .ro, 0x0, .block⟩, ⟨4, 4, .ro, 0x0, .block⟩]⟩, -- STAT
    ⟨0x8, [], [⟨0, 7, .rw, 0x0, .block⟩]⟩, -- CBSEL
    ⟨0x10, [(0x4, 4)], [⟨0, 32, .wo, 0x0, .none⟩]⟩, -- SWAPREQ
    ⟨0x20, [(0x4, 4)], [⟨0, 32, .ro, 0x0, .warm⟩]⟩, -- PROGCRC
    ⟨0x30, [(0x4, 4)], [⟨0, 16, .ro, 0x0, .block⟩, ⟨16, 16, .ro, 0x0, .block⟩]⟩, -- LOAD
    ⟨0x40, [(0x4, 4)], [⟨0, 32, .ro, 0x0, .block⟩]⟩, -- FLTCTX
    ⟨0x1FC, [], [⟨0, 1, .wo, 0x0, .none⟩]⟩, -- CNTCLR
    ⟨0x200, [], [⟨0, 6, .w1c, 0x0, .warm⟩]⟩, -- FLTSTAT
    ⟨0x204, [], [⟨0, 6, .ro, 0x0, .block⟩]⟩, -- FLTLIVE
    ⟨0x208, [], [⟨0, 6, .rw, 0x0, .block⟩]⟩, -- FLTIEN
    ⟨0x20C, [], [⟨0, 24, .rwl, 0x0, .block⟩]⟩, -- REACT
    ⟨0x400, [(0x4, 32)], [⟨0, 32, .rw, 0x0, .block⟩]⟩, -- HOSTIN
    ⟨0x500, [(0x4, 64)], [⟨0, 32, .ro, 0x0, .block⟩]⟩, -- OUT
    ⟨0x1000, [(0x20, 128)], [⟨0, 1, .rwl, 0x0, .block⟩, ⟨1, 8, .rwl, 0x0, .block⟩, ⟨9, 8, .rwl, 0x0, .block⟩, ⟨17, 2, .rwl, 0x0, .block⟩, ⟨19, 6, .rwl, 0x0, .block⟩, ⟨25, 1, .rwl, 0x1, .block⟩]⟩, -- CTX_CFG
    ⟨0x1004, [(0x20, 128)], [⟨0, 16, .rwl, 0x0, .block⟩, ⟨16, 16, .rwl, 0x0, .block⟩]⟩, -- CTX_TIME
    ⟨0x1008, [(0x20, 128)], [⟨0, 1, .wo, 0x0, .none⟩, ⟨1, 1, .wo, 0x0, .none⟩]⟩, -- CTX_CTL
    ⟨0x100C, [(0x20, 128)], [⟨0, 1, .ro, 0x0, .block⟩, ⟨1, 1, .ro, 0x0, .block⟩, ⟨2, 1, .ro, 0x0, .block⟩, ⟨3, 1, .ro, 0x0, .block⟩, ⟨4, 1, .ro, 0x0, .block⟩, ⟨5, 1, .ro, 0x0, .block⟩, ⟨8, 1, .w1c, 0x0, .warm⟩, ⟨9, 1, .w1c, 0x0, .warm⟩, ⟨10, 1, .w1c, 0x0, .warm⟩, ⟨11, 1, .w1c, 0x0, .warm⟩, ⟨12, 1, .w1c, 0x0, .warm⟩, ⟨13, 1, .w1c, 0x0, .warm⟩, ⟨16, 2, .ro, 0x0, .block⟩, ⟨18, 1, .ro, 0x0, .block⟩, ⟨19, 1, .ro, 0x0, .block⟩]⟩, -- CTX_STAT
    ⟨0x1010, [(0x20, 128)], [⟨0, 32, .ro, 0x0, .block⟩]⟩, -- CTX_RUNS
    ⟨0x1014, [(0x20, 128)], [⟨0, 16, .ro, 0x0, .block⟩, ⟨16, 16, .ro, 0x0, .block⟩]⟩] -- CTX_LAST

/-- The registers of LPE (R293), part 2 of 2. -/
def regsLPE_1 : List RegGroup :=
  [ ⟨0x1018, [(0x20, 128)], [⟨0, 32, .ro, 0x0, .warm⟩]⟩, -- CTX_OVR
    ⟨0x101C, [(0x20, 128)], [⟨0, 32, .ro, 0x0, .warm⟩]⟩, -- CTX_SKIP
    ⟨0x8000, [(0x4, 256)], [⟨0, 32, .rw, 0x0, .block⟩]⟩, -- COEF
    ⟨0x8400, [(0x4, 256)], [⟨0, 32, .ro, 0x0, .block⟩]⟩, -- ACOEF
    ⟨0x8800, [(0x4, 256)], [⟨0, 32, .ro, 0x0, .block⟩]⟩, -- STATEW
    ⟨0x8C00, [(0x4, 64)], [⟨0, 32, .ro, 0x0, .block⟩]⟩] -- SLOT

/-- The registers of the window of LPE. -/
def regsLPE : List RegGroup := regsLPE_0 ++ regsLPE_1

/-- The registers of GEO (R352), part 1 of 3. -/
def regsGEO_0 : List RegGroup :=
  [ ⟨0x0, [], [⟨0, 2, .rw, 0x1, .block⟩, ⟨2, 8, .rw, 0x1, .block⟩, ⟨10, 1, .rw, 0x0, .block⟩, ⟨11, 2, .rw, 0x0, .block⟩, ⟨13, 3, .rw, 0x0, .block⟩, ⟨16, 1, .rw, 0x0, .block⟩, ⟨17, 1, .rw, 0x1, .block⟩]⟩, -- CFG
    ⟨0x4, [], [⟨0, 1, .wo, 0x0, .none⟩, ⟨1, 1, .wo, 0x0, .none⟩, ⟨2, 1, .wo, 0x0, .none⟩, ⟨3, 1, .wo, 0x0, .none⟩, ⟨4, 1, .wo, 0x0, .none⟩]⟩, -- CMD
    ⟨0x8, [], [⟨0, 3, .ro, 0x0, .block⟩, ⟨3, 1, .w1c, 0x0, .block⟩, ⟨4, 6, .ro, 0x0, .block⟩, ⟨10, 1, .ro, 0x0, .block⟩]⟩, -- STAT
    ⟨0x40, [(0x4, 16)], [⟨0, 8, .rw, 0x0, .block⟩, ⟨8, 8, .rw, 0x0, .block⟩]⟩, -- CH
    ⟨0x80, [], [⟨0, 1, .rw, 0x1, .block⟩, ⟨1, 5, .rw, 0x10, .block⟩]⟩, -- STR_CFG
    ⟨0xA0, [], [⟨0, 1, .rw, 0x0, .block⟩, ⟨1, 5, .rw, 0x0, .block⟩]⟩, -- STR_CFG
    ⟨0xC0, [], [⟨0, 1, .rw, 0x0, .block⟩, ⟨1, 5, .rw, 0x0, .block⟩]⟩, -- STR_CFG
    ⟨0xE0, [], [⟨0, 1, .rw, 0x0, .block⟩, ⟨1, 5, .rw, 0x0, .block⟩]⟩, -- STR_CFG
    ⟨0x84, [], [⟨0, 32, .rw, 0x1, .block⟩]⟩, -- STR_DEC
    ⟨0xA4, [], [⟨0, 32, .rw, 0x19, .block⟩]⟩, -- STR_DEC
    ⟨0xC4, [], [⟨0, 32, .rw, 0xFA, .block⟩]⟩, -- STR_DEC
    ⟨0xE4, [], [⟨0, 32, .rw, 0x61A8, .block⟩]⟩, -- STR_DEC
    ⟨0x88, [(0x20, 4)], [⟨0, 32, .rw, 0x0, .block⟩]⟩, -- STR_PRE
    ⟨0x8C, [(0x20, 4)], [⟨0, 32, .rw, 0x400, .block⟩]⟩, -- STR_POST
    ⟨0x90, [(0x20, 4)], [⟨0, 32, .ro, 0x0, .block⟩]⟩, -- STR_DEPTH
    ⟨0x94, [(0x20, 4)], [⟨0, 32, .ro, 0x0, .block⟩]⟩, -- STR_POSTUSED
    ⟨0x98, [(0x20, 4)], [⟨0, 16, .ro, 0x0, .block⟩]⟩, -- STR_ROWB
    ⟨0x100, [(0x20, 8)], [⟨0, 1, .rw, 0x0, .block⟩, ⟨1, 4, .rw, 0x0, .block⟩, ⟨5, 4, .rw, 0x0, .block⟩, ⟨9, 1, .rw, 0x0, .block⟩, ⟨10, 1, .rw, 0x0, .block⟩]⟩, -- TRG_CFG
    ⟨0x104, [(0x20, 8)], [⟨0, 32, .rw, 0x0, .block⟩]⟩, -- TRG_A
    ⟨0x108, [(0x20, 8)], [⟨0, 32, .rw, 0x0, .block⟩]⟩] -- TRG_B

/-- The registers of GEO (R352), part 2 of 3. -/
def regsGEO_1 : List RegGroup :=
  [ ⟨0x10C, [(0x20, 8)], [⟨0, 16, .rw, 0x0, .block⟩, ⟨16, 4, .rw, 0x0, .block⟩]⟩, -- TRG_EVT
    ⟨0x110, [(0x20, 8)], [⟨0, 32, .ro, 0x0, .warm⟩]⟩, -- TRG_FIRES
    ⟨0x200, [], [⟨0, 16, .rw, 0xFFFF, .block⟩]⟩, -- MARKCLASS
    ⟨0x204, [], [⟨0, 16, .rw, 0x1, .block⟩]⟩, -- MARKOUT
    ⟨0x208, [], [⟨0, 32, .rw, 0x0, .block⟩]⟩, -- MARKLEAD
    ⟨0x20C, [], [⟨0, 32, .ro, 0x0, .warm⟩]⟩, -- MARKSEQ
    ⟨0x210, [], [⟨0, 32, .ro, 0x0, .warm⟩]⟩, -- LASTMARK
    ⟨0x214, [], [⟨0, 16, .ro, 0x0, .warm⟩]⟩, -- LASTORIG
    ⟨0x300, [], [⟨0, 16, .rw, 0x0, .block⟩, ⟨16, 4, .rw, 0x0, .block⟩]⟩, -- MEASCFG
    ⟨0x310, [(0x4, 4)], [⟨0, 32, .rw, 0x0, .block⟩]⟩, -- MEASLVL
    ⟨0x320, [(0x4, 4)], [⟨0, 32, .rw, 0x0, .block⟩]⟩, -- MEASHYS
    ⟨0x340, [(0x20, 4), (0x4, 8)], [⟨0, 32, .ro, 0x0, .block⟩]⟩, -- MEAS
    ⟨0x400, [], [⟨0, 4, .rw, 0x0, .block⟩, ⟨4, 4, .rw, 0x0, .block⟩, ⟨8, 1, .rw, 0x0, .block⟩, ⟨9, 1, .rw, 0x0, .block⟩]⟩, -- MASKCFG
    ⟨0x404, [], [⟨0, 1, .ro, 0x0, .block⟩, ⟨1, 1, .ro, 0x0, .block⟩]⟩, -- MASKRES
    ⟨0x408, [], [⟨0, 32, .ro, 0x0, .block⟩]⟩, -- MASKROW
    ⟨0x440, [(0xC0, 2), (0xC, 16)], [⟨0, 32, .rw, 0x7FFFFFFF, .block⟩]⟩, -- MASKSEG
    ⟨0x444, [(0xC0, 2), (0xC, 16)], [⟨0, 32, .rw, 0xFF800000, .block⟩]⟩, -- MASKSEG
    ⟨0x448, [(0xC0, 2), (0xC, 16)], [⟨0, 32, .rw, 0x7F800000, .block⟩]⟩, -- MASKSEG
    ⟨0x600, [], [⟨0, 32, .rw, 0x0, .cold⟩]⟩, -- RECHOLD_LO
    ⟨0x604, [], [⟨0, 32, .rw, 0x0, .cold⟩]⟩] -- RECHOLD_HI

/-- The registers of GEO (R352), part 3 of 3. -/
def regsGEO_2 : List RegGroup :=
  [ ⟨0x608, [], [⟨0, 32, .ro, 0x0, .cold⟩]⟩, -- RECDONE_LO
    ⟨0x60C, [], [⟨0, 32, .ro, 0x0, .cold⟩]⟩, -- RECDONE_HI
    ⟨0x610, [], [⟨0, 32, .ro, 0x0, .block⟩]⟩, -- RECLOCK_LO
    ⟨0x614, [], [⟨0, 32, .ro, 0x0, .block⟩]⟩, -- RECLOCK_HI
    ⟨0x618, [], [⟨0, 6, .ro, 0x0, .cold⟩]⟩, -- LASTREC
    ⟨0x61C, [], [⟨0, 32, .ro, 0x0, .cold⟩]⟩, -- RECNUM
    ⟨0x680, [], [⟨0, 32, .ro, 0x0, .warm⟩]⟩, -- RECORDS
    ⟨0x684, [], [⟨0, 32, .ro, 0x0, .warm⟩]⟩, -- EARLYTRIG
    ⟨0x688, [], [⟨0, 32, .ro, 0x0, .warm⟩]⟩, -- MARKRX
    ⟨0x68C, [], [⟨0, 32, .ro, 0x0, .warm⟩]⟩, -- MARKIGN
    ⟨0x690, [], [⟨0, 32, .ro, 0x0, .warm⟩]⟩, -- MARKRANGE
    ⟨0x694, [], [⟨0, 32, .ro, 0x0, .warm⟩]⟩, -- OVERWRITE
    ⟨0x698, [], [⟨0, 32, .ro, 0x0, .warm⟩]⟩, -- STALLS
    ⟨0x69C, [], [⟨0, 32, .ro, 0x0, .warm⟩]⟩, -- CFGBUSY
    ⟨0x6FC, [], [⟨0, 1, .wo, 0x0, .none⟩]⟩, -- CNTCLR
    ⟨0x700, [], [⟨0, 6, .w1c, 0x0, .warm⟩]⟩, -- FLTSTAT
    ⟨0x704, [], [⟨0, 6, .ro, 0x0, .block⟩]⟩, -- FLTLIVE
    ⟨0x708, [], [⟨0, 6, .rw, 0x0, .block⟩]⟩, -- FLTIEN
    ⟨0x70C, [], [⟨0, 24, .rwl, 0x0, .block⟩]⟩] -- REACT

/-- The registers of the window of GEO. -/
def regsGEO : List RegGroup := regsGEO_0 ++ regsGEO_1 ++ regsGEO_2

/-- The registers of RED (R379), part 1 of 2. -/
def regsRED_0 : List RegGroup :=
  [ ⟨0x0, [], [⟨0, 4, .rwl, 0x3, .block⟩, ⟨4, 4, .rwl, 0x4, .block⟩, ⟨8, 1, .rwl, 0x1, .block⟩, ⟨16, 16, .rwl, 0x100, .block⟩]⟩, -- CFG
    ⟨0x4, [], [⟨0, 3, .ro, 0x0, .block⟩, ⟨3, 1, .ro, 0x0, .cold⟩, ⟨4, 1, .ro, 0x0, .block⟩, ⟨5, 1, .ro, 0x0, .block⟩, ⟨6, 1, .ro, 0x0, .block⟩, ⟨7, 1, .ro, 0x0, .block⟩, ⟨8, 8, .ro, 0x0, .block⟩, ⟨16, 4, .ro, 0x0, .block⟩]⟩, -- STAT
    ⟨0x8, [], [⟨0, 16, .ro, 0x0, .block⟩, ⟨16, 16, .ro, 0x0, .block⟩]⟩, -- EPOCH
    ⟨0xC, [], [⟨0, 16, .ro, 0x0, .block⟩, ⟨16, 16, .ro, 0x0, .block⟩]⟩, -- SEEN
    ⟨0x10, [], [⟨0, 16, .rwl, 0x0, .block⟩]⟩, -- SEENTOT
    ⟨0x14, [], [⟨0, 7, .rwl, 0x8, .block⟩]⟩, -- REFCFG
    ⟨0x18, [], [⟨0, 7, .ro, 0x0, .block⟩]⟩, -- REFSTAT
    ⟨0x20, [], [⟨0, 32, .ro, 0x0, .block⟩]⟩, -- DIGOWN_LO
    ⟨0x24, [], [⟨0, 32, .ro, 0x0, .block⟩]⟩, -- DIGOWN_HI
    ⟨0x28, [], [⟨0, 32, .ro, 0x0, .block⟩]⟩, -- DIGPART_LO
    ⟨0x2C, [], [⟨0, 32, .ro, 0x0, .block⟩]⟩, -- DIGPART_HI
    ⟨0x30, [], [⟨0, 1, .wo, 0x0, .none⟩, ⟨1, 1, .wo, 0x0, .none⟩]⟩, -- CMD
    ⟨0x34, [], [⟨0, 16, .rw, 0x0, .block⟩, ⟨16, 1, .wo, 0x0, .none⟩, ⟨17, 1, .ro, 0x0, .block⟩, ⟨18, 1, .w1c, 0x0, .block⟩]⟩, -- YIELD
    ⟨0x38, [], [⟨0, 7, .ro, 0x0, .block⟩, ⟨7, 1, .ro, 0x0, .block⟩, ⟨8, 1, .ro, 0x0, .block⟩, ⟨16, 8, .ro, 0x0, .block⟩, ⟨24, 3, .ro, 0x0, .block⟩]⟩, -- JOINSTAT
    ⟨0x80, [], [⟨0, 32, .ro, 0x0, .warm⟩]⟩, -- TAKEOVERS
    ⟨0x84, [], [⟨0, 32, .ro, 0x0, .warm⟩]⟩, -- XMISS
    ⟨0x88, [], [⟨0, 32, .ro, 0x0, .warm⟩]⟩, -- PMISS
    ⟨0x8C, [], [⟨0, 32, .ro, 0x0, .warm⟩]⟩, -- DIGMISCNT
    ⟨0x90, [], [⟨0, 32, .ro, 0x0, .warm⟩]⟩, -- REFMISS
    ⟨0x94, [], [⟨0, 32, .ro, 0x0, .warm⟩]⟩] -- JOINS

/-- The registers of RED (R379), part 2 of 2. -/
def regsRED_1 : List RegGroup :=
  [ ⟨0x98, [], [⟨0, 32, .ro, 0x0, .warm⟩]⟩, -- REPLAYED
    ⟨0x9C, [], [⟨0, 32, .ro, 0x0, .warm⟩]⟩, -- YIELDS
    ⟨0xFC, [], [⟨0, 1, .wo, 0x0, .none⟩]⟩, -- CNTCLR
    ⟨0x100, [], [⟨0, 10, .w1c, 0x0, .warm⟩]⟩, -- FLTSTAT
    ⟨0x104, [], [⟨0, 10, .ro, 0x0, .block⟩]⟩, -- FLTLIVE
    ⟨0x108, [], [⟨0, 10, .rw, 0x0, .block⟩]⟩, -- FLTIEN
    ⟨0x10C, [], [⟨0, 32, .rwl, 0x0, .block⟩]⟩, -- REACT0
    ⟨0x110, [], [⟨0, 8, .rwl, 0x0, .block⟩]⟩] -- REACT1

/-- The registers of the window of RED. -/
def regsRED : List RegGroup := regsRED_0 ++ regsRED_1

/-- The registers of MGT (R490), part 1 of 1. -/
def regsMGT_0 : List RegGroup :=
  [ ⟨0x0, [], [⟨0, 16, .rwl, 0x100, .block⟩, ⟨16, 4, .rwl, 0x3, .block⟩]⟩, -- CTRL
    ⟨0x4, [], [⟨0, 8, .ro, 0x80, .block⟩, ⟨8, 9, .ro, 0x100, .cold⟩, ⟨17, 1, .ro, 0x0, .warm⟩, ⟨18, 1, .ro, 0x0, .warm⟩, ⟨19, 1, .ro, 0x0, .warm⟩]⟩, -- STAT
    ⟨0x8, [], [⟨0, 32, .ro, 0x0, .warm⟩]⟩, -- FWSTAGELEN
    ⟨0xC, [], [⟨0, 8, .ro, 0x0, .warm⟩, ⟨8, 1, .ro, 0x0, .warm⟩, ⟨9, 1, .ro, 0x0, .warm⟩]⟩, -- FWSTAT
    ⟨0x10, [], [⟨0, 8, .ro, 0x0, .warm⟩, ⟨8, 1, .ro, 0x0, .warm⟩, ⟨9, 1, .ro, 0x0, .warm⟩]⟩, -- FLASHSTAT
    ⟨0x14, [], [⟨0, 8, .ro, 0x0, .cold⟩]⟩, -- JNEXT
    ⟨0x20, [], [⟨0, 16, .rw, 0x0, .block⟩, ⟨16, 1, .wo, 0x0, .none⟩, ⟨17, 5, .ro, 0x0, .warm⟩, ⟨22, 1, .w1c, 0x0, .warm⟩, ⟨23, 1, .w1c, 0x0, .warm⟩]⟩, -- TWSEQ
    ⟨0x24, [], [⟨0, 32, .rw, 0x0, .block⟩]⟩, -- TWADDR
    ⟨0x28, [], [⟨0, 32, .rw, 0x0, .block⟩]⟩, -- TWVAL
    ⟨0x2C, [], [⟨0, 32, .rw, 0xFFFFFFFF, .block⟩]⟩, -- TWMASK
    ⟨0x80, [], [⟨0, 32, .ro, 0x0, .warm⟩]⟩, -- RXREQ
    ⟨0x84, [], [⟨0, 32, .ro, 0x0, .warm⟩]⟩, -- DUPANS
    ⟨0x88, [], [⟨0, 32, .ro, 0x0, .warm⟩]⟩, -- RETRYCNT
    ⟨0x8C, [], [⟨0, 32, .ro, 0x0, .warm⟩]⟩, -- RELAUNCH
    ⟨0x90, [], [⟨0, 32, .ro, 0x0, .warm⟩]⟩, -- REFUSED
    ⟨0xFC, [], [⟨0, 1, .wo, 0x0, .none⟩]⟩, -- CNTCLR
    ⟨0x100, [], [⟨0, 5, .w1c, 0x0, .warm⟩]⟩, -- FLTSTAT
    ⟨0x104, [], [⟨0, 5, .ro, 0x0, .block⟩]⟩, -- FLTLIVE
    ⟨0x108, [], [⟨0, 5, .rw, 0x0, .block⟩]⟩, -- FLTIEN
    ⟨0x10C, [], [⟨0, 20, .rwl, 0x0, .block⟩]⟩] -- REACT

/-- The registers of the window of MGT. -/
def regsMGT : List RegGroup := regsMGT_0

/-- The registers of SDM (R236), part 1 of 1. -/
def regsSDM_0 : List RegGroup :=
  [ ⟨0x0, [], [⟨0, 2, .rwl, 0x0, .block⟩, ⟨2, 2, .rwl, 0x0, .block⟩]⟩, -- CLKCFG
    ⟨0x4, [], [⟨0, 8, .ro, 0x0, .block⟩]⟩, -- STAT
    ⟨0x100, [(0x20, 8)], [⟨0, 1, .rwl, 0x0, .block⟩, ⟨1, 1, .rwl, 0x0, .block⟩, ⟨2, 9, .rwl, 0x64, .block⟩, ⟨11, 1, .rwl, 0x0, .block⟩, ⟨12, 6, .rwl, 0x10, .block⟩]⟩, -- CH_CFG
    ⟨0x104, [(0x20, 8)], [⟨0, 32, .rwl, 0x3F800000, .block⟩]⟩, -- CH_GAIN
    ⟨0x108, [(0x20, 8)], [⟨0, 32, .rwl, 0x0, .block⟩]⟩, -- CH_OFFSET
    ⟨0x10C, [(0x20, 8)], [⟨0, 32, .ro, 0x0, .block⟩]⟩, -- CH_VALUE
    ⟨0x110, [(0x20, 8)], [⟨0, 32, .rwl, 0x7F800000, .block⟩]⟩, -- CH_FASTHI
    ⟨0x114, [(0x20, 8)], [⟨0, 32, .rwl, 0xFF800000, .block⟩]⟩, -- CH_FASTLO
    ⟨0x118, [(0x20, 8)], [⟨0, 32, .ro, 0x0, .block⟩]⟩, -- CH_LIVE
    ⟨0x11C, [(0x20, 8)], [⟨0, 32, .ro, 0x0, .warm⟩]⟩, -- CH_LIMCNT
    ⟨0x200, [], [⟨0, 24, .w1c, 0x0, .warm⟩]⟩, -- FLTSTAT
    ⟨0x204, [], [⟨0, 24, .ro, 0x0, .block⟩]⟩, -- FLTLIVE
    ⟨0x208, [], [⟨0, 24, .rw, 0x0, .block⟩]⟩, -- FLTIEN
    ⟨0x20C, [(0x4, 3)], [⟨0, 32, .rwl, 0x0, .block⟩]⟩, -- REACT
    ⟨0x2FC, [], [⟨0, 1, .wo, 0x0, .none⟩]⟩] -- CNTCLR

/-- The registers of the window of SDM. -/
def regsSDM : List RegGroup := regsSDM_0

/-- The registers of ETH (R321), part 1 of 2. -/
def regsETH_0 : List RegGroup :=
  [ ⟨0x0, [], [⟨0, 1, .rwl, 0x0, .block⟩, ⟨1, 1, .rwl, 0x0, .block⟩, ⟨2, 1, .rwl, 0x0, .block⟩]⟩, -- CTRL
    ⟨0x4, [], [⟨0, 1, .ro, 0x0, .block⟩, ⟨1, 2, .ro, 0x0, .block⟩, ⟨3, 1, .ro, 0x0, .block⟩]⟩, -- STAT
    ⟨0x8, [], [⟨0, 32, .rwl, 0x0, .block⟩]⟩, -- MACLO
    ⟨0xC, [], [⟨0, 16, .rwl, 0x0, .block⟩]⟩, -- MACHI
    ⟨0x10, [], [⟨0, 8, .rwl, 0x0, .block⟩, ⟨8, 1, .rwl, 0x0, .block⟩]⟩, -- SVCTL
    ⟨0x14, [], [⟨0, 8, .ro, 0x0, .block⟩, ⟨8, 8, .ro, 0x0, .block⟩]⟩, -- SVSTAT
    ⟨0x18, [], [⟨0, 4, .rw, 0x1, .block⟩]⟩, -- PTPSTAT
    ⟨0x80, [], [⟨0, 32, .ro, 0x0, .warm⟩]⟩, -- RXFRM
    ⟨0x84, [], [⟨0, 32, .ro, 0x0, .warm⟩]⟩, -- RXFCS
    ⟨0x88, [], [⟨0, 32, .ro, 0x0, .warm⟩]⟩, -- RXNOMATCH
    ⟨0x8C, [], [⟨0, 32, .ro, 0x0, .warm⟩]⟩, -- RXLONG
    ⟨0x90, [], [⟨0, 32, .ro, 0x0, .warm⟩]⟩, -- PTPDISC
    ⟨0xFC, [], [⟨0, 1, .wo, 0x0, .none⟩]⟩, -- CNTCLR
    ⟨0x100, [(0x40, 8)], [⟨0, 16, .rwl, 0x4000, .block⟩, ⟨16, 12, .rwl, 0x0, .block⟩, ⟨28, 1, .rwl, 0x1, .block⟩, ⟨29, 1, .rwl, 0x0, .block⟩, ⟨30, 1, .rwl, 0x0, .block⟩]⟩, -- SV_CFG
    ⟨0x104, [(0x40, 8)], [⟨0, 32, .rwl, 0x0, .block⟩]⟩, -- SV_DSTLO
    ⟨0x108, [(0x40, 8)], [⟨0, 16, .rwl, 0x0, .block⟩]⟩, -- SV_DSTHI
    ⟨0x10C, [(0x40, 8)], [⟨0, 32, .rwl, 0x0, .block⟩]⟩, -- SV_IDCRC
    ⟨0x110, [(0x40, 8)], [⟨0, 16, .rwl, 0x1F4, .block⟩]⟩, -- SV_DLY
    ⟨0x114, [(0x40, 8)], [⟨0, 13, .ro, 0x0, .block⟩, ⟨13, 2, .ro, 0x0, .block⟩, ⟨15, 1, .ro, 0x0, .block⟩]⟩, -- SV_STAT
    ⟨0x118, [(0x40, 8)], [⟨0, 32, .ro, 0x0, .warm⟩]⟩] -- SV_GAP

/-- The registers of ETH (R321), part 2 of 2. -/
def regsETH_1 : List RegGroup :=
  [ ⟨0x11C, [(0x40, 8)], [⟨0, 32, .ro, 0x0, .warm⟩]⟩, -- SV_BAD
    ⟨0x120, [(0x40, 8), (0x4, 8)], [⟨0, 32, .ro, 0x7FC00000, .block⟩]⟩, -- SV_CH
    ⟨0x300, [], [⟨0, 9, .w1c, 0x0, .warm⟩]⟩, -- FLTSTAT
    ⟨0x304, [], [⟨0, 9, .ro, 0x0, .block⟩]⟩, -- FLTLIVE
    ⟨0x308, [], [⟨0, 9, .rw, 0x0, .block⟩]⟩, -- FLTIEN
    ⟨0x30C, [], [⟨0, 32, .rwl, 0x0, .block⟩]⟩, -- REACT0
    ⟨0x310, [], [⟨0, 4, .rwl, 0x0, .block⟩]⟩] -- REACT1

/-- The registers of the window of ETH. -/
def regsETH : List RegGroup := regsETH_0 ++ regsETH_1

/-- The registers of PIN (R521), part 1 of 1. -/
def regsPIN_0 : List RegGroup :=
  [ ⟨0x0, [], [⟨0, 2, .rwl, 0x0, .block⟩, ⟨2, 2, .rwl, 0x0, .block⟩, ⟨4, 1, .rwl, 0x0, .block⟩]⟩, -- BANKCFG
    ⟨0x4, [], [⟨0, 1, .ro, 0x0, .warm⟩, ⟨1, 1, .ro, 0x0, .block⟩, ⟨2, 1, .ro, 0x0, .warm⟩, ⟨3, 1, .ro, 0x0, .block⟩, ⟨4, 1, .ro, 0x0, .block⟩, ⟨5, 1, .ro, 0x0, .block⟩]⟩, -- STAT
    ⟨0x8, [], [⟨0, 16, .rwl, 0x0, .block⟩]⟩, -- LOSEN
    ⟨0xC, [], [⟨0, 16, .ro, 0x0, .block⟩]⟩, -- LOSSTAT
    ⟨0x10, [], [⟨0, 24, .ro, 0x0, .block⟩]⟩, -- GPIOIN
    ⟨0x14, [], [⟨0, 24, .rw, 0x0, .warm⟩]⟩, -- GPIOOUT
    ⟨0x18, [], [⟨0, 24, .wo, 0x0, .none⟩]⟩, -- GPIOSET
    ⟨0x1C, [], [⟨0, 24, .wo, 0x0, .none⟩]⟩, -- GPIOCLR
    ⟨0x20, [], [⟨0, 16, .rwl, 0x0, .block⟩, ⟨16, 1, .rwl, 0x0, .block⟩]⟩, -- I2CCFG
    ⟨0x100, [(0x4, 34)], [⟨0, 4, .rwl, 0x0, .warm⟩, ⟨4, 4, .rwl, 0x0, .warm⟩, ⟨8, 1, .rwl, 0x0, .warm⟩, ⟨9, 2, .rwl, 0x1, .warm⟩, ⟨11, 1, .rwl, 0x0, .warm⟩, ⟨12, 2, .rwl, 0x0, .warm⟩, ⟨14, 1, .rw, 0x0, .warm⟩]⟩, -- PAD
    ⟨0x200, [], [⟨0, 2, .w1c, 0x0, .warm⟩]⟩, -- FLTSTAT
    ⟨0x204, [], [⟨0, 2, .ro, 0x0, .block⟩]⟩, -- FLTLIVE
    ⟨0x208, [], [⟨0, 2, .rw, 0x0, .block⟩]⟩, -- FLTIEN
    ⟨0x20C, [], [⟨0, 8, .rwl, 0x0, .block⟩]⟩, -- REACT
    ⟨0x400, [(0x10, 16)], [⟨0, 16, .ro, 0x0, .warm⟩, ⟨16, 16, .ro, 0x0, .warm⟩]⟩, -- DDM_TV
    ⟨0x404, [(0x10, 16)], [⟨0, 16, .ro, 0x0, .warm⟩, ⟨16, 16, .ro, 0x0, .warm⟩]⟩, -- DDM_TX
    ⟨0x408, [(0x10, 16)], [⟨0, 16, .ro, 0x0, .warm⟩, ⟨16, 1, .ro, 0x0, .warm⟩, ⟨17, 1, .ro, 0x0, .warm⟩]⟩, -- DDM_RX
    ⟨0x40C, [(0x10, 16)], [⟨0, 32, .ro, 0x0, .warm⟩]⟩] -- DDM_TIME

/-- The registers of the window of PIN. -/
def regsPIN : List RegGroup := regsPIN_0

/-- The registers of SER (R491), part 1 of 1. -/
def regsSER_0 : List RegGroup :=
  [ ⟨0x0, [], [⟨0, 4, .ro, 0x0, .block⟩, ⟨4, 4, .ro, 0x0, .warm⟩, ⟨8, 4, .ro, 0x0, .warm⟩, ⟨12, 4, .ro, 0x0, .block⟩]⟩, -- CORESTAT
    ⟨0x4, [], [⟨0, 4, .rwa, 0xF, .warm⟩]⟩, -- CUSTEN
    ⟨0x10, [], [⟨0, 32, .rw, 0x0, .block⟩]⟩, -- IRQROUTE0
    ⟨0x14, [], [⟨0, 16, .rw, 0x0, .block⟩]⟩, -- IRQROUTE1
    ⟨0x20, [(0x4, 4)], [⟨0, 24, .ro, 0x0, .block⟩]⟩, -- PEND
    ⟨0x30, [], [⟨0, 4, .wo, 0x0, .none⟩]⟩, -- SWISET
    ⟨0x34, [], [⟨0, 4, .w1c, 0x0, .block⟩]⟩, -- SWI
    ⟨0x40, [], [⟨0, 32, .rw, 0x100, .warm⟩]⟩, -- NMIVEC
    ⟨0x50, [(0x4, 4)], [⟨0, 32, .ro, 0x0, .cold⟩]⟩, -- IMGID
    ⟨0x100, [(0x20, 4), (0x4, 8)], [⟨0, 32, .ro, 0x0, .cold⟩]⟩, -- IMGHASH
    ⟨0x200, [], [⟨0, 3, .w1c, 0x0, .warm⟩]⟩, -- FLTSTAT
    ⟨0x204, [], [⟨0, 3, .ro, 0x0, .block⟩]⟩, -- FLTLIVE
    ⟨0x208, [], [⟨0, 3, .rw, 0x0, .block⟩]⟩, -- FLTIEN
    ⟨0x20C, [], [⟨0, 12, .rwl, 0x0, .block⟩]⟩, -- REACT
    ⟨0x210, [], [⟨0, 2, .ro, 0x0, .warm⟩, ⟨8, 8, .ro, 0x0, .warm⟩]⟩, -- EXCINFO
    ⟨0x214, [], [⟨0, 32, .ro, 0x0, .warm⟩]⟩] -- EXCPC

/-- The registers of the window of SER. -/
def regsSER : List RegGroup := regsSER_0

/-- The register table of block `n`, numbered as R429 and R523 number the blocks. -/
def blockRegs : Nat → List RegGroup
  | 0 => regsSYS
  | 1 => regsCLK
  | 2 => regsPWR
  | 3 => regsRST
  | 4 => regsFUSE
  | 5 => regsSEC
  | 6 => regsLOG
  | 7 => regsCNV
  | 8 => regsTB
  | 9 => regsLNK
  | 10 => regsSCR
  | 11 => regsPWM
  | 12 => regsADC
  | 13 => regsENV
  | 14 => regsSAF
  | 15 => regsLPE
  | 16 => regsGEO
  | 17 => regsRED
  | 18 => regsMGT
  | 19 => regsSDM
  | 20 => regsETH
  | 21 => regsPIN
  | 22 => regsSER
  | _ => []

/-- Base of the register windows (R523). -/
def windowBase : Nat := 0x40000000

/-- The local address lies in one of the 23 register windows (R522, R523). -/
def isWindow (a : Nat) : Bool := decide (windowBase ≤ a) && decide (a < windowBase + 23 * 0x10000)

/-- The block whose window holds the local address (R523). -/
def blockOf (a : Nat) : Nat := (a - windowBase) / 0x10000

/-- The fields of the register at local address `a`; none where no register stands there (R9). -/
def fieldsAt (a : Nat) : List FieldSpec :=
  if isWindow a then
    match (blockRegs (blockOf a)).find? (fun g => g.has ((a - windowBase) % 0x10000)) with
    | some g => g.fields
    | none => []
  else []

/-- The word of the listed reset values of these fields. -/
def resetWord (fs : List FieldSpec) : Nat := fs.foldl (fun w f => w + f.reset <<< f.lo) 0

/-- The word that the register at local address `a` holds after every reset: the reset values that the tables list. -/
def regDefault (a : Nat) : BitVec 32 := BitVec.ofNat 32 (resetWord (fieldsAt a))

end Sys2Proof.Machine
end

