-- ==== Sys2Proof/Machine/Fields.lean ====
section
/-!
DEFINITION. Machine/Fields.lean: a name for every register field of the spec, `BLOCK.REGISTER.FIELD` as the spec writes it, with
its local address (R523 and the defining table), lowest bit and width. Repeated registers take their index (lane, unit,
channel, context, stream, session, core) as an argument.
-/

namespace Sys2Proof.Machine

/-- A field of a register: its local address, lowest bit and width. -/
structure Fld where
  addr : Nat
  lo : Nat
  w : Nat
  deriving DecidableEq, Repr

/-- The whole register at a local address. -/
def Fld.word (addr : Nat) : Fld := ⟨addr, 0, 32⟩

-- CNV.STAT (R69)
/-- RO, reset 0, reach W: 1: a canvas is applied -/
def CNV.STAT.ACTIVE : Fld := ⟨0x40070000, 0, 1⟩
/-- RO, reset 0, reach W: 1: device runs Basecamp -/
def CNV.STAT.BASECAMP : Fld := ⟨0x40070000, 1, 1⟩
/-- RO, reset 1, reach W: 1: loader running -/
def CNV.STAT.LOADING : Fld := ⟨0x40070000, 2, 1⟩
/-- RO, reset 0, reach W: 1: a verified image is in the staging area -/
def CNV.STAT.STAGED : Fld := ⟨0x40070000, 3, 1⟩
/-- RO, reset 0, reach C: 1: activation in progress; cleared when the loader finishes -/
def CNV.STAT.PENDING : Fld := ⟨0x40070000, 4, 1⟩
/-- RO, reset 0, reach W: 1: the staged image failed at activation and the previous active copy runs -/
def CNV.STAT.FALLBACK : Fld := ⟨0x40070000, 5, 1⟩
/-- RO, reset 0b00, reach W: source of the active canvas: 0b00 flash slot A, 0b01 flash slot B, 0b10 push, 0b11 SRAM active copy -/
def CNV.STAT.SRC : Fld := ⟨0x40070000, 6, 2⟩
/-- RO, reset 0x00, reach W: code of the latest failed check (R45, R59) -/
def CNV.STAT.ERR : Fld := ⟨0x40070000, 8, 8⟩
/-- RO, reset 0, reach W: 1: a completed push is being checked (R58) -/
def CNV.STAT.CHECKING : Fld := ⟨0x40070000, 16, 1⟩
-- CNV.CMD (R69)
/-- WO, reset 0, reach —: 1: activate the staged image (R59) -/
def CNV.CMD.ACTIVATE : Fld := ⟨0x40070004, 0, 1⟩
/-- WO, reset 0, reach —: 1: clear STAGED and the staging area -/
def CNV.CMD.DISCARD : Fld := ⟨0x40070004, 1, 1⟩
-- CNV.ROLE (R69)
/-- RO, reset 0b00, reach W: 0b00 cell, 0b01 hub, 0b10 central -/
def CNV.ROLE.ROLE : Fld := ⟨0x40070008, 0, 2⟩
/-- RO, reset 0, reach W: 0 member A, 1 member B -/
def CNV.ROLE.MEMBER : Fld := ⟨0x40070008, 2, 1⟩
/-- RO, reset 0x00, reach W: segment of a hub -/
def CNV.ROLE.SEGMENT : Fld := ⟨0x40070008, 3, 5⟩
-- CNV.ID (R69)
/-- RO, reset 0x0000_0000, reach W: CANVAS_ID of the active canvas -/
def CNV.ID.CANVAS_ID : Fld := ⟨0x4007000C, 0, 32⟩
-- CNV.SECVER (R69)
/-- RO, reset 0x0000_0000, reach W: SECVER of the active canvas -/
def CNV.SECVER.SECVER : Fld := ⟨0x40070010, 0, 32⟩
-- CNV.PAIRTAG (R69)
/-- RO, reset 0x0000_0000, reach W: PAIRTAG of the active canvas -/
def CNV.PAIRTAG.PAIRTAG : Fld := ⟨0x40070014, 0, 32⟩
-- CNV.ERRSECT (R69)
/-- RO, reset 0x00, reach W: directory index of the failing section; 0xFF: header or trailer -/
def CNV.ERRSECT.INDEX : Fld := ⟨0x40070018, 0, 8⟩
-- CNV.HASH (R69)
/-- RO, reset 0x0000_0000, reach C: SHA-256 of the active canvas, written when a canvas is applied and compared under R61; HASH0 holds bytes 0–3 -/
def CNV.HASH.HASH (n : Nat) : Fld := ⟨0x40070020 + 0x4 * n, 0, 32⟩
-- CNV.LOCK (R69)
/-- RO, reset 0x00_0000, reach W: one bit per block (R55) -/
def CNV.LOCK.LOCK : Fld := ⟨0x40070040, 0, 23⟩
-- CNV.INST (R69)
/-- RO, reset 0x00_0000, reach W: one bit per block; 1: instantiated -/
def CNV.INST.INST : Fld := ⟨0x40070044, 0, 23⟩
-- CNV.LOCKVIOL (R69)
/-- RO, reset 0x0000_0000, reach W: discarded RWL writes; saturates at 0xFFFF_FFFF -/
def CNV.LOCKVIOL.COUNT : Fld := ⟨0x40070048, 0, 32⟩
-- CNV.LOCKADDR (R69)
/-- RO, reset 0x0000_0000, reach W: local address of the latest discarded write -/
def CNV.LOCKADDR.ADDR : Fld := ⟨0x4007004C, 0, 32⟩
-- CNV.SKIPPED (R69)
/-- RO, reset 0x00, reach W: non-critical sections skipped (R46) -/
def CNV.SKIPPED.COUNT : Fld := ⟨0x40070050, 0, 8⟩
-- CNV.LOADTIME (R69)
/-- RO, reset 0x0000_0000, reach W: duration of the latest load from the loader's start to ACTIVE, in µs -/
def CNV.LOADTIME.US : Fld := ⟨0x40070054, 0, 32⟩
-- CNV.STAGELEN (R69)
/-- RO, reset 0x0000_0000, reach W: bytes received by the open or latest push -/
def CNV.STAGELEN.BYTES : Fld := ⟨0x40070058, 0, 32⟩
-- LNK.CTRL (R119)
/-- RWL, reset see meaning, reach —: 0b00 Off, 0b01 Guyline, 0b10 1000BASE-X, 0b11 SGMII (R72); reset 0b01 on L0, L1 and the lane that CLKM selects at the release of power-on reset, 0b00 on the others (R120) -/
def LNK.CTRL.MODE (n : Nat) : Fld := ⟨0x40090000 + 0x1000 * n, 0, 2⟩
/-- RWL, reset 0, reach —: L15 only: 1 enables clause 37 auto-negotiation -/
def LNK.CTRL.ANEN (n : Nat) : Fld := ⟨0x40090000 + 0x1000 * n, 2, 1⟩
/-- RW, reset 0, reach —: 1: near-end loopback for test -/
def LNK.CTRL.LOOP (n : Nat) : Fld := ⟨0x40090000 + 0x1000 * n, 3, 1⟩
/-- RW, reset 0, reach —: 1: send and check PRBS31 in place of blocks -/
def LNK.CTRL.PRBS (n : Nat) : Fld := ⟨0x40090000 + 0x1000 * n, 4, 1⟩
/-- RWL, reset 1, reach —: 1: periodic Echo measurement (R114) -/
def LNK.CTRL.ECHOAUTO (n : Nat) : Fld := ⟨0x40090000 + 0x1000 * n, 5, 1⟩
-- LNK.STAT (R119)
/-- RO, reset 0, reach —: block lock held -/
def LNK.STAT.LOCK (n : Nat) : Fld := ⟨0x40090004 + 0x1000 * n, 0, 1⟩
/-- RO, reset 0, reach —: lane UP (R76) -/
def LNK.STAT.UP (n : Nat) : Fld := ⟨0x40090004 + 0x1000 * n, 1, 1⟩
/-- RO, reset 1, reach —: 0 full, 1 Beacon -/
def LNK.STAT.RATE (n : Nat) : Fld := ⟨0x40090004 + 0x1000 * n, 2, 1⟩
/-- RO, reset 0, reach —: RXOK of the last IDLE received -/
def LNK.STAT.PEERRX (n : Nat) : Fld := ⟨0x40090004 + 0x1000 * n, 3, 1⟩
/-- RO, reset 0, reach —: recovered clock fit to serve as root reference -/
def LNK.STAT.READY (n : Nat) : Fld := ⟨0x40090004 + 0x1000 * n, 4, 1⟩
/-- RO, reset 0, reach —: this device turns Tally frames back at this lane -/
def LNK.STAT.WRAP (n : Nat) : Fld := ⟨0x40090004 + 0x1000 * n, 5, 1⟩
/-- RO, reset 0, reach —: INRESET of the last IDLE received -/
def LNK.STAT.PEERRST (n : Nat) : Fld := ⟨0x40090004 + 0x1000 * n, 6, 1⟩
/-- W1C, reset 0, reach —: sticky: the lane left UP -/
def LNK.STAT.DOWN (n : Nat) : Fld := ⟨0x40090004 + 0x1000 * n, 7, 1⟩
/-- RO, reset 0xFF, reach —: HOP on arrival of the latest discovery frame -/
def LNK.STAT.HOPIN (n : Nat) : Fld := ⟨0x40090004 + 0x1000 * n, 8, 8⟩
/-- RO, reset 0xFF, reach —: hub ring lanes: WRAPPOS of the latest wrapped Tally -/
def LNK.STAT.WRAPPOS (n : Nat) : Fld := ⟨0x40090004 + 0x1000 * n, 16, 8⟩
-- LNK.RATEAT (R119)
/-- RW, reset 0x0000_0000, reach —: short count of the rate switch -/
def LNK.RATEAT.AT (n : Nat) : Fld := ⟨0x40090008 + 0x1000 * n, 0, 32⟩
-- LNK.RATECMD (R119)
/-- RW, reset 1, reach —: 0 full, 1 Beacon -/
def LNK.RATECMD.TARGET (n : Nat) : Fld := ⟨0x4009000C + 0x1000 * n, 0, 1⟩
/-- WO, reset 0, reach —: 1: arm the switch (R77) -/
def LNK.RATECMD.ARM (n : Nat) : Fld := ⟨0x4009000C + 0x1000 * n, 1, 1⟩
/-- RO, reset 0, reach —: switch armed -/
def LNK.RATECMD.ARMED (n : Nat) : Fld := ⟨0x4009000C + 0x1000 * n, 2, 1⟩
/-- W1C, reset 0, reach —: switch refused: AT not ahead -/
def LNK.RATECMD.LATE (n : Nat) : Fld := ⟨0x4009000C + 0x1000 * n, 3, 1⟩
-- LNK.UNWRAP (R119)
/-- RW, reset 0x0000, reach —: tick (modulo 65 536) from which wrapping stops -/
def LNK.UNWRAP.SEQ (n : Nat) : Fld := ⟨0x40090010 + 0x1000 * n, 0, 16⟩
/-- WO, reset 0, reach —: 1: arm (R112) -/
def LNK.UNWRAP.ARM (n : Nat) : Fld := ⟨0x40090010 + 0x1000 * n, 16, 1⟩
/-- RO, reset 0, reach —: armed -/
def LNK.UNWRAP.ARMED (n : Nat) : Fld := ⟨0x40090010 + 0x1000 * n, 17, 1⟩
/-- W1C, reset 0, reach —: arming refused: tick fewer than 16 ahead (R112) -/
def LNK.UNWRAP.LATE (n : Nat) : Fld := ⟨0x40090010 + 0x1000 * n, 18, 1⟩
-- LNK.DELAY (R119)
/-- RO, reset 0x0000_0000, reach —: mean link delay, units of 78.125 ps (R115) -/
def LNK.DELAY.DELAY (n : Nat) : Fld := ⟨0x40090014 + 0x1000 * n, 0, 32⟩
-- LNK.ASYM (R119)
/-- RWL, reset 0x0000, reach —: signed asymmetry, units of 78.125 ps -/
def LNK.ASYM.ASYM (n : Nat) : Fld := ⟨0x40090018 + 0x1000 * n, 0, 16⟩
-- LNK.ECHOCMD (R119)
/-- WO, reset 0, reach —: 1: start a measurement -/
def LNK.ECHOCMD.START (n : Nat) : Fld := ⟨0x4009001C + 0x1000 * n, 0, 1⟩
/-- RO, reset 0, reach —: measurement running -/
def LNK.ECHOCMD.BUSY (n : Nat) : Fld := ⟨0x4009001C + 0x1000 * n, 1, 1⟩
-- LNK.ARRIVE (R119)
/-- RO, reset 0xFFFF, reach —: hub lanes: last-block arrival of the latest Tally, ns after its sample instant; 0xFFFF: none -/
def LNK.ARRIVE.NS (n : Nat) : Fld := ⟨0x40090020 + 0x1000 * n, 0, 16⟩
-- LNK.SYNCERR (R119)
/-- RO, reset 0x0000_0000, reach —: blocks with invalid sync header -/
def LNK.SYNCERR.COUNT (n : Nat) : Fld := ⟨0x40090040 + 0x1000 * n, 0, 32⟩
-- LNK.BLKERR (R119)
/-- RO, reset 0x0000_0000, reach —: control blocks of unknown type -/
def LNK.BLKERR.COUNT (n : Nat) : Fld := ⟨0x40090044 + 0x1000 * n, 0, 32⟩
-- LNK.CRCERR (R119)
/-- RO, reset 0x0000_0000, reach —: frames with a bad CRC found here -/
def LNK.CRCERR.COUNT (n : Nat) : Fld := ⟨0x40090048 + 0x1000 * n, 0, 32⟩
-- LNK.STOMPED (R119)
/-- RO, reset 0x0000_0000, reach —: frames arriving with STOMP set -/
def LNK.STOMPED.COUNT (n : Nat) : Fld := ⟨0x4009004C + 0x1000 * n, 0, 32⟩
-- LNK.SEQERR (R119)
/-- RO, reset 0x0000_0000, reach —: Tally or Order frames with an unexpected SEQ -/
def LNK.SEQERR.COUNT (n : Nat) : Fld := ⟨0x40090050 + 0x1000 * n, 0, 32⟩
-- LNK.PREEMPT (R119)
/-- RO, reset 0x0000_0000, reach —: frames ended by ABORT at this output -/
def LNK.PREEMPT.COUNT (n : Nat) : Fld := ⟨0x40090054 + 0x1000 * n, 0, 32⟩
-- LNK.OVERFLOW (R119)
/-- RO, reset 0x0000_0000, reach —: frames dropped at a full forward buffer -/
def LNK.OVERFLOW.COUNT (n : Nat) : Fld := ⟨0x40090058 + 0x1000 * n, 0, 32⟩
-- LNK.BRKDROP (R119)
/-- RO, reset 0x0000_0000, reach —: frames dropped at a DOWN output -/
def LNK.BRKDROP.COUNT (n : Nat) : Fld := ⟨0x4009005C + 0x1000 * n, 0, 32⟩
-- LNK.UNROUTE (R119)
/-- RO, reset 0x0000_0000, reach —: frames to reserved addresses (R25) -/
def LNK.UNROUTE.COUNT (n : Nat) : Fld := ⟨0x40090060 + 0x1000 * n, 0, 32⟩
-- LNK.BADLEN (R119)
/-- RO, reset 0x0000_0000, reach —: frames of unknown type or wrong length -/
def LNK.BADLEN.COUNT (n : Nat) : Fld := ⟨0x40090064 + 0x1000 * n, 0, 32⟩
-- LNK.DUPDROP (R119)
/-- RO, reset 0x0000_0000, reach —: duplicate copies discarded (R107) -/
def LNK.DUPDROP.COUNT (n : Nat) : Fld := ⟨0x40090068 + 0x1000 * n, 0, 32⟩
-- LNK.LOCKLOSS (R119)
/-- RO, reset 0x0000_0000, reach —: losses of block lock -/
def LNK.LOCKLOSS.COUNT (n : Nat) : Fld := ⟨0x4009006C + 0x1000 * n, 0, 32⟩
-- LNK.RXFRM_LO (R119)
/-- RO, reset 0x0000_0000, reach —: frames received, bits [31:0] -/
def LNK.RXFRM_LO.COUNT (n : Nat) : Fld := ⟨0x40090080 + 0x1000 * n, 0, 32⟩
-- LNK.RXFRM_HI (R119)
/-- RO, reset 0x0000, reach —: frames received, bits [47:32] -/
def LNK.RXFRM_HI.COUNT (n : Nat) : Fld := ⟨0x40090084 + 0x1000 * n, 0, 16⟩
-- LNK.TXFRM_LO (R119)
/-- RO, reset 0x0000_0000, reach —: frames sent, bits [31:0] -/
def LNK.TXFRM_LO.COUNT (n : Nat) : Fld := ⟨0x40090088 + 0x1000 * n, 0, 32⟩
-- LNK.TXFRM_HI (R119)
/-- RO, reset 0x0000, reach —: frames sent, bits [47:32] -/
def LNK.TXFRM_HI.COUNT (n : Nat) : Fld := ⟨0x4009008C + 0x1000 * n, 0, 16⟩
-- LNK.CNTCLR (R119)
/-- WO, reset 0, reach —: 1: clear the counters 0x040 to 0x06C of this lane -/
def LNK.CNTCLR.CLR (n : Nat) : Fld := ⟨0x400900FC + 0x1000 * n, 0, 1⟩
-- TB.CTRL (R148)
/-- RWL, reset 1, reach C: 1: automatic domain switch (R139) -/
def TB.CTRL.AUTOSW : Fld := ⟨0x40080000, 0, 1⟩
/-- RW, reset 0x0, reach C: interrupt enables: [1] compare fire, [2] SWITCHED, [3] OFFBIG, [4] HOLD -/
def TB.CTRL.IEN : Fld := ⟨0x40080000, 1, 4⟩
-- TB.STAT (R148)
/-- RO, reset 0, reach C: local time aligned (R134; centrals R135) -/
def TB.STAT.ALIGNED : Fld := ⟨0x40080004, 0, 1⟩
/-- RO, reset 0, reach C: governing domain: 0 A, 1 B -/
def TB.STAT.GOV : Fld := ⟨0x40080004, 1, 1⟩
/-- RO, reset 0, reach C: R138 -/
def TB.STAT.VALIDA : Fld := ⟨0x40080004, 2, 1⟩
/-- RO, reset 0, reach C: R138 -/
def TB.STAT.VALIDB : Fld := ⟨0x40080004, 3, 1⟩
/-- RO, reset 0, reach C: neither domain valid (R141) -/
def TB.STAT.HOLD : Fld := ⟨0x40080004, 4, 1⟩
/-- W1C, reset 0, reach C: sticky: \ -/
def TB.STAT.OFFBIG : Fld := ⟨0x40080004, 5, 1⟩
/-- RO, reset 0, reach C: \ -/
def TB.STAT.LIVE : Fld := ⟨0x40080004, 6, 1⟩
/-- W1C, reset 0, reach C: INCR write refused (R129) -/
def TB.STAT.INCRERR : Fld := ⟨0x40080004, 7, 1⟩
/-- W1C, reset 0, reach C: step refused in Run (R135) -/
def TB.STAT.STEPERR : Fld := ⟨0x40080004, 8, 1⟩
/-- W1C, reset 0, reach C: governing domain changed -/
def TB.STAT.SWITCHED : Fld := ⟨0x40080004, 9, 1⟩
/-- W1C, reset 0, reach C: an offset saturated (R133) -/
def TB.STAT.OFFSAT : Fld := ⟨0x40080004, 10, 1⟩
-- TB.SHORT (R148)
/-- RO, reset 0x0000_0000, reach C: short counter -/
def TB.SHORT.COUNT : Fld := ⟨0x40080008, 0, 32⟩
-- TB.NSEC (R148)
/-- RO, reset 0x0000_0000, reach C: nanoseconds -/
def TB.NSEC.NS : Fld := ⟨0x4008000C, 0, 30⟩
-- TB.SEC_LO (R148)
/-- RO, reset 0x0000_0000, reach C: seconds [31:0] -/
def TB.SEC_LO.SEC : Fld := ⟨0x40080010, 0, 32⟩
-- TB.SEC_HI (R148)
/-- RO, reset 0x0000, reach C: seconds [47:32] -/
def TB.SEC_HI.SEC : Fld := ⟨0x40080014, 0, 16⟩
-- TB.TICK_LO (R148)
/-- RO, reset 0x0000_0000, reach C: tick number [31:0] -/
def TB.TICK_LO.TICK : Fld := ⟨0x40080018, 0, 32⟩
-- TB.TICK_HI (R148)
/-- RO, reset 0x0000_0000, reach C: tick number [63:32] -/
def TB.TICK_HI.TICK : Fld := ⟨0x4008001C, 0, 32⟩
-- TB.SNAP (R148)
/-- WO, reset 0, reach —: 1: snapshot (R127) -/
def TB.SNAP.CAPTURE : Fld := ⟨0x40080020, 0, 1⟩
-- TB.SNAP_SHORT (R148)
/-- RO, reset 0x0000_0000, reach C: short count at snapshot -/
def TB.SNAP_SHORT.COUNT : Fld := ⟨0x40080024, 0, 32⟩
-- TB.SNAP_FRAC (R148)
/-- RO, reset 0x00, reach C: fraction, units of 78.125 ps -/
def TB.SNAP_FRAC.FRAC : Fld := ⟨0x40080028, 0, 6⟩
-- TB.SNAP_NSEC (R148)
/-- RO, reset 0x0000_0000, reach C: nanoseconds at snapshot -/
def TB.SNAP_NSEC.NS : Fld := ⟨0x4008002C, 0, 30⟩
-- TB.SNAP_SEC_LO (R148)
/-- RO, reset 0x0000_0000, reach C: seconds [31:0] -/
def TB.SNAP_SEC_LO.SEC : Fld := ⟨0x40080030, 0, 32⟩
-- TB.SNAP_SEC_HI (R148)
/-- RO, reset 0x0000, reach C: seconds [47:32] -/
def TB.SNAP_SEC_HI.SEC : Fld := ⟨0x40080034, 0, 16⟩
-- TB.SNAP_TICK_LO (R148)
/-- RO, reset 0x0000_0000, reach C: tick [31:0] -/
def TB.SNAP_TICK_LO.TICK : Fld := ⟨0x40080038, 0, 32⟩
-- TB.SNAP_TICK_HI (R148)
/-- RO, reset 0x0000_0000, reach C: tick [63:32] -/
def TB.SNAP_TICK_HI.TICK : Fld := ⟨0x4008003C, 0, 32⟩
-- TB.INCR_LO (R148)
/-- RWA, reset 0x0000_0000, reach C: increment fraction (R129, R130) -/
def TB.INCR_LO.FRAC : Fld := ⟨0x40080040, 0, 32⟩
-- TB.INCR_HI (R148)
/-- RWA, reset 0x0000_0005, reach C: increment integer; write commits -/
def TB.INCR_HI.NS : Fld := ⟨0x40080044, 0, 32⟩
-- TB.SETSEC_LO (R148)
/-- RWA, reset 0x0000_0000, reach C: central: seconds [31:0] to set -/
def TB.SETSEC_LO.SEC : Fld := ⟨0x40080048, 0, 32⟩
-- TB.SETSEC_HI (R148)
/-- RWA, reset 0x0000, reach C: central: seconds [47:32] to set -/
def TB.SETSEC_HI.SEC : Fld := ⟨0x4008004C, 0, 16⟩
-- TB.SETNS (R148)
/-- RWA, reset 0x0000_0000, reach C: central: nanoseconds to set -/
def TB.SETNS.NS : Fld := ⟨0x40080050, 0, 30⟩
-- TB.SETCMD (R148)
/-- WO, reset 0, reach —: central: 1 steps to the SET values (R135) -/
def TB.SETCMD.STEP : Fld := ⟨0x40080054, 0, 1⟩
-- TB.TICKLEN (R148)
/-- RO, reset 0x3E8, reach C: T_u in 5 ns units, 500 to 4000, from SYSTEM -/
def TB.TICKLEN.TU : Fld := ⟨0x40080058, 0, 12⟩
-- TB.SCHED0 (R148)
/-- RO, reset 0x000A, reach C: t_T in 10 ns units -/
def TB.SCHED0.TT : Fld := ⟨0x4008005C, 0, 16⟩
/-- RO, reset 0x00AA, reach C: t_D in 10 ns units -/
def TB.SCHED0.TD : Fld := ⟨0x4008005C, 16, 16⟩
-- TB.SCHED1 (R148)
/-- RO, reset 0x00C8, reach C: t_O in 10 ns units -/
def TB.SCHED1.TO : Fld := ⟨0x40080060, 0, 16⟩
/-- RO, reset 0x0190, reach C: D in 10 ns units -/
def TB.SCHED1.D : Fld := ⟨0x40080060, 16, 16⟩
-- TB.OFFA (R148)
/-- RO, reset 0x0000_0000, reach C: domain A − local, signed, 2^−16 ns -/
def TB.OFFA.OFF : Fld := ⟨0x40080064, 0, 32⟩
-- TB.OFFB (R148)
/-- RO, reset 0x0000_0000, reach C: domain B − local, signed, 2^−16 ns -/
def TB.OFFB.OFF : Fld := ⟨0x40080068, 0, 32⟩
-- TB.HANDOFF (R148)
/-- RO, reset 0x0000_0000, reach C: R140, signed, 2^−16 ns -/
def TB.HANDOFF.OFF : Fld := ⟨0x4008006C, 0, 32⟩
-- TB.DOMSW (R148)
/-- RW, reset 0x0000, reach C: tick (modulo 65 536) of the switch -/
def TB.DOMSW.SEQ : Fld := ⟨0x40080070, 0, 16⟩
/-- RW, reset 0, reach C: 0 A, 1 B -/
def TB.DOMSW.TARGET : Fld := ⟨0x40080070, 16, 1⟩
/-- WO, reset 0, reach —: 1: arm (R139) -/
def TB.DOMSW.ARM : Fld := ⟨0x40080070, 17, 1⟩
/-- RO, reset 0, reach C: armed -/
def TB.DOMSW.ARMED : Fld := ⟨0x40080070, 18, 1⟩
/-- W1C, reset 0, reach C: arming refused -/
def TB.DOMSW.LATE : Fld := ⟨0x40080070, 19, 1⟩
-- TB.TACCA (R148)
/-- RO, reset 0x0000_0000, reach C: accepted domain A frames; saturates -/
def TB.TACCA.COUNT : Fld := ⟨0x40080074, 0, 32⟩
-- TB.TACCB (R148)
/-- RO, reset 0x0000_0000, reach C: accepted domain B frames; saturates -/
def TB.TACCB.COUNT : Fld := ⟨0x40080078, 0, 32⟩
-- TB.PTPOFF (R148)
/-- RO, reset 0x0000_0000, reach C: central: offset from master, signed ns; saturates -/
def TB.PTPOFF.OFF : Fld := ⟨0x4008007C, 0, 32⟩
-- TB.CMP_TARGET (R148)
/-- RW, reset 0x0000_0000, reach B: short count to reach -/
def TB.CMP_TARGET.TARGET (n : Nat) : Fld := ⟨0x40080100 + 0x10 * n, 0, 32⟩
-- TB.CMP_PERIOD (R148)
/-- RW, reset 0x0000_0000, reach B: counts added when PERIODIC -/
def TB.CMP_PERIOD.PERIOD (n : Nat) : Fld := ⟨0x40080104 + 0x10 * n, 0, 32⟩
-- TB.CMP_CTRL (R148)
/-- RW, reset 0, reach B: 1: armed; writing 1 arms under R125 -/
def TB.CMP_CTRL.EN (n : Nat) : Fld := ⟨0x40080108 + 0x10 * n, 0, 1⟩
/-- RW, reset 0, reach B: 1: periodic (R143) -/
def TB.CMP_CTRL.PERIODIC (n : Nat) : Fld := ⟨0x40080108 + 0x10 * n, 1, 1⟩
/-- RW, reset 0x0, reach B: consumer (R143) -/
def TB.CMP_CTRL.DEST (n : Nat) : Fld := ⟨0x40080108 + 0x10 * n, 2, 4⟩
/-- W1C, reset 0, reach B: sticky: the unit fired -/
def TB.CMP_CTRL.FIRED (n : Nat) : Fld := ⟨0x40080108 + 0x10 * n, 6, 1⟩
/-- W1C, reset 0, reach B: fired on a target already reached -/
def TB.CMP_CTRL.LATE (n : Nat) : Fld := ⟨0x40080108 + 0x10 * n, 7, 1⟩
-- TB.CMP_FIRECNT (R148)
/-- RO, reset 0x0000_0000, reach B: fires; saturates at 0xFFFF_FFFF -/
def TB.CMP_FIRECNT.COUNT (n : Nat) : Fld := ⟨0x4008010C + 0x10 * n, 0, 32⟩
-- SCR.CFG (R177)
/-- RWL, reset 0x0, reach B: hold margin h in bins (R157) -/
def SCR.CFG.HOLD : Fld := ⟨0x400A0000, 0, 4⟩
/-- RWL, reset 0x0, reach B: minimum dwell d in ticks (R165) -/
def SCR.CFG.DWELL : Fld := ⟨0x400A0000, 4, 4⟩
/-- RWL, reset 0, reach B: 0 half-bridge, 1 full-bridge -/
def SCR.CFG.CELLTYPE : Fld := ⟨0x400A0000, 8, 1⟩
/-- RWL, reset 1, reach B: 1: rank rotation in NORMAL (R153) -/
def SCR.CFG.ROTATE : Fld := ⟨0x400A0000, 9, 1⟩
/-- RWL, reset 0x9D, reach B: seed multiplier; Radra accepts odd values only -/
def SCR.CFG.SEEDMUL : Fld := ⟨0x400A0000, 16, 8⟩
-- SCR.EXCLMASK (R177)
/-- RWL, reset 0x60, reach B: STATUS bits that exclude (R151); bit 6 reads 1 -/
def SCR.EXCLMASK.MASK : Fld := ⟨0x400A0004, 0, 8⟩
-- SCR.ISIGNDB (R177)
/-- RWL, reset 0x4120_0000, reach B: current-sign deadband, binary32, in A (10.0 A) -/
def SCR.ISIGNDB.DB : Fld := ⟨0x400A0008, 0, 32⟩
-- SCR.SHAREMAX (R177)
/-- RWL, reset 0x0004_0000, reach B: arm leader: largest share magnitude, 16.16 cells -/
def SCR.SHAREMAX.MAX : Fld := ⟨0x400A000C, 0, 32⟩
-- SCR.BINEDGE (R177)
/-- RWL; RO in register 0, reset 0x0800·j, reach B: register j: edge E(2j); in register 0 a reserved field under R7, since E0 does not exist (R149): it reads 0, a write to it is ignored, and it never counts as a lock violation (R56) -/
def SCR.BINEDGE.EDGE_LO (n : Nat) : Fld := ⟨0x400A0040 + 0x4 * n, 0, 16⟩
/-- RWL, reset 0x0800·j + 0x0400, reach B: register j: edge E(2j + 1) -/
def SCR.BINEDGE.EDGE_HI (n : Nat) : Fld := ⟨0x400A0040 + 0x4 * n, 16, 16⟩
-- SCR.XIN (R177)
/-- RW, reset 0x0000_0000, reach B: hub: base count, signed 16.16 (R155) -/
def SCR.XIN.X : Fld := ⟨0x400A0100, 0, 32⟩
-- SCR.XSHARE (R177)
/-- RO, reset 0x0000_0000, reach B: hub: share offset in effect (R170) -/
def SCR.XSHARE.DELTA : Fld := ⟨0x400A0104, 0, 32⟩
-- SCR.XUSED (R177)
/-- RO, reset 0x0000_0000, reach B: hub: X of the latest decision after R154 -/
def SCR.XUSED.X : Fld := ⟨0x400A0108, 0, 32⟩
-- SCR.DEC (R177)
/-- RO, reset 0x00, reach B: hub: bin of slot t -/
def SCR.DEC.THRESH : Fld := ⟨0x400A010C, 0, 6⟩
/-- RO, reset 0, reach B:  -/
def SCR.DEC.CHG : Fld := ⟨0x400A010C, 6, 1⟩
/-- RO, reset 0, reach B:  -/
def SCR.DEC.NEG : Fld := ⟨0x400A010C, 7, 1⟩
/-- RO, reset 0, reach B:  -/
def SCR.DEC.QCLASS : Fld := ⟨0x400A010C, 8, 1⟩
/-- RO, reset 0, reach B: 1: a trim cell was placed -/
def SCR.DEC.TRIMSET : Fld := ⟨0x400A010C, 9, 1⟩
/-- RO, reset 0x0, reach B: start ring -/
def SCR.DEC.START : Fld := ⟨0x400A010C, 12, 4⟩
/-- RO, reset 0x00, reach B:  -/
def SCR.DEC.SEED : Fld := ⟨0x400A010C, 16, 8⟩
-- SCR.DECN (R177)
/-- RO, reset 0x0000, reach B: hub: FRAC of the latest decision -/
def SCR.DECN.FRAC : Fld := ⟨0x400A0110, 0, 16⟩
/-- RO, reset 0x0000, reach B: hub: nfull of the latest decision -/
def SCR.DECN.NFULL : Fld := ⟨0x400A0110, 16, 16⟩
-- SCR.AVAIL (R177)
/-- RO, reset 0x0000, reach B: hub: cells in all slots of all units -/
def SCR.AVAIL.TOTAL : Fld := ⟨0x400A0114, 0, 16⟩
/-- RO, reset 0x0000, reach B: hub: sum of held[r] -/
def SCR.AVAIL.HELD : Fld := ⟨0x400A0114, 16, 16⟩
-- SCR.MODES (R177)
/-- RO, reset 0xFF_FFFF, reach B: hub: RMODE[1:0] of ring r at bits [2r+1:2r] -/
def SCR.MODES.MODE : Fld := ⟨0x400A0118, 0, 24⟩
-- SCR.INSNOW (R177)
/-- RO, reset 0x0000, reach B: hub: sum of HIST_I over all units of the latest decision -/
def SCR.INSNOW.COUNT : Fld := ⟨0x400A011C, 0, 16⟩
-- SCR.RINGLEN (R177)
/-- RO, reset 0x0000_0000, reach W: hub: byte m of register i holds the length of ring 4i + m, 0 to 64 -/
def SCR.RINGLEN.LEN (n : Nat) : Fld := ⟨0x400A0120 + 0x4 * n, 0, 32⟩
-- SCR.ARMCTL (R177)
/-- RWA, reset 1, reach B: hub: 1 launches BLOCKALL (R174) -/
def SCR.ARMCTL.BLOCK : Fld := ⟨0x400A0130, 0, 1⟩
-- SCR.CSTAT (R177)
/-- RO, reset 0x00, reach B: cell: bin of the latest sample instant -/
def SCR.CSTAT.BIN : Fld := ⟨0x400A0200, 0, 6⟩
/-- RO, reset 0, reach B: cell: 1 class I -/
def SCR.CSTAT.CLS : Fld := ⟨0x400A0200, 6, 1⟩
/-- RO, reset 0, reach B: cell: excluded in the latest Tally -/
def SCR.CSTAT.EXCL : Fld := ⟨0x400A0200, 7, 1⟩
/-- RO, reset 0, reach W: cell: excluded by command (R175) -/
def SCR.CSTAT.CMDEXCL : Fld := ⟨0x400A0200, 8, 1⟩
/-- RO, reset 0, reach B: cell: trim cell in the present tick -/
def SCR.CSTAT.TRIM : Fld := ⟨0x400A0200, 9, 1⟩
/-- RO, reset 0, reach B: cell: target in at the latest apply instant -/
def SCR.CSTAT.INS : Fld := ⟨0x400A0200, 10, 1⟩
/-- RO, reset 0, reach B: cell: held by dwell at the latest apply instant -/
def SCR.CSTAT.DWELLHELD : Fld := ⟨0x400A0200, 11, 1⟩
/-- RO, reset 0x00, reach B: cell: consecutive missed ticks (R167) -/
def SCR.CSTAT.MISSRUN : Fld := ⟨0x400A0200, 16, 8⟩
-- SCR.CSNAP (R177)
/-- RO, reset 0x00, reach B: cell: c0 used for the SNAPREC Order; 0xFF when absent (R175) -/
def SCR.CSNAP.C0 : Fld := ⟨0x400A0204, 0, 8⟩
/-- RO, reset 0x00, reach B: cell: c1 used for that Order; 0xFF when absent (R175) -/
def SCR.CSNAP.C1 : Fld := ⟨0x400A0204, 8, 8⟩
/-- RO, reset 0x00, reach B: cell: bin of that tick -/
def SCR.CSNAP.BIN : Fld := ⟨0x400A0204, 16, 6⟩
/-- RO, reset 0, reach B: cell: class of that tick -/
def SCR.CSNAP.CLS : Fld := ⟨0x400A0204, 22, 1⟩
/-- RO, reset 0x00, reach B: cell: rank used for that Order; 0xFF when none (R175) -/
def SCR.CSNAP.RANK : Fld := ⟨0x400A0204, 24, 8⟩
-- SCR.MISSED (R177)
/-- RO, reset 0x0000_0000, reach W: cell: missed ticks -/
def SCR.MISSED.COUNT : Fld := ⟨0x400A0280, 0, 32⟩
-- SCR.DWELLHOLD (R177)
/-- RO, reset 0x0000_0000, reach W: cell: R165 -/
def SCR.DWELLHOLD.COUNT : Fld := ⟨0x400A0284, 0, 32⟩
-- SCR.REFUSED (R177)
/-- RO, reset 0x0000_0000, reach W: cell: R166 -/
def SCR.REFUSED.COUNT : Fld := ⟨0x400A0288, 0, 32⟩
-- SCR.XLATE (R177)
/-- RO, reset 0x0000_0000, reach W: hub: R155 -/
def SCR.XLATE.COUNT : Fld := ⟨0x400A028C, 0, 32⟩
-- SCR.SAT (R177)
/-- RO, reset 0x0000_0000, reach W: hub: R160 -/
def SCR.SAT.COUNT : Fld := ⟨0x400A0290, 0, 32⟩
-- SCR.SHORT (R177)
/-- RO, reset 0x0000_0000, reach W: hub: R160 -/
def SCR.SHORT.COUNT : Fld := ⟨0x400A0294, 0, 32⟩
-- SCR.COUNTERR (R177)
/-- RO, reset 0x0000_0000, reach W: hub: R171 -/
def SCR.COUNTERR.COUNT : Fld := ⟨0x400A0298, 0, 32⟩
-- SCR.MARGIN (R177)
/-- RO, reset 0x0000_0000, reach W: hub: R172 -/
def SCR.MARGIN.COUNT : Fld := ⟨0x400A029C, 0, 32⟩
-- SCR.SHARELATE (R177)
/-- RO, reset 0x0000_0000, reach W: hub: R170 -/
def SCR.SHARELATE.COUNT : Fld := ⟨0x400A02A0, 0, 32⟩
-- SCR.NEGCLAMP (R177)
/-- RO, reset 0x0000_0000, reach W: hub: R154 -/
def SCR.NEGCLAMP.COUNT : Fld := ⟨0x400A02A4, 0, 32⟩
-- SCR.CNTCLR (R177)
/-- WO, reset 0, reach —: 1: clear the counters 0x280 to 0x2A4 -/
def SCR.CNTCLR.CLR : Fld := ⟨0x400A02FC, 0, 1⟩
-- SCR.FLTSTAT (R177)
/-- W1C, reset 0x00, reach W: sticky: [0] MARGIN, [1] XLATE, [2] SAT, [3] SHORT, [4] COUNTERR, [5] SHARELATE, [6] NEGCLAMP, [7] MISSRUN -/
def SCR.FLTSTAT.STAT : Fld := ⟨0x400A0300, 0, 8⟩
-- SCR.FLTLIVE (R177)
/-- RO, reset 0x00, reach B: present condition, bits as FLTSTAT -/
def SCR.FLTLIVE.LIVE : Fld := ⟨0x400A0304, 0, 8⟩
-- SCR.FLTIEN (R177)
/-- RW, reset 0x00, reach B: interrupt enables, bits as FLTSTAT -/
def SCR.FLTIEN.IEN : Fld := ⟨0x400A0308, 0, 8⟩
-- SCR.REACT (R177)
/-- RWL, reset 0x0000_0000, reach B: 4 bits per source in FLTSTAT order, encoded as Fault Detection and Reactions gives; 0x0 interrupt -/
def SCR.REACT.SEL : Fld := ⟨0x400A030C, 0, 32⟩
-- SCR.TENTRY (R177)
/-- RO, reset 0x0000_0000, reach B: central: trunk ring i, entry j, word w at 0x800 + 0x80·i + 0x10·j + 4·w (R176) -/
def SCR.TENTRY.DATA (n : Nat) (i : Nat) (j : Nat) : Fld := ⟨0x400A0800 + 0x80 * n + 0x10 * i + 0x4 * j, 0, 32⟩
-- PWM.CTRL (R210)
/-- WO, reset 0, reach —: 1: arm the reload (R196) -/
def PWM.CTRL.COMMIT : Fld := ⟨0x400B0000, 0, 1⟩
/-- WO, reset 0, reach —: 1: R189 -/
def PWM.CTRL.DTRESET : Fld := ⟨0x400B0000, 1, 1⟩
/-- WO, reset 0, reach —: 1: calibrate the spare now (R191) -/
def PWM.CTRL.CALNOW : Fld := ⟨0x400B0000, 2, 1⟩
-- PWM.CFG (R210)
/-- RWL, reset 0, reach B: 1: force permitted (R199) -/
def PWM.CFG.FORCEEN : Fld := ⟨0x400B0004, 0, 1⟩
/-- RWL, reset 0, reach B: 1: local mode permitted (R194) -/
def PWM.CFG.LOCALEN : Fld := ⟨0x400B0004, 1, 1⟩
/-- RWL, reset 1, reach B: 1: alternate the zero leg (R180) -/
def PWM.CFG.ZALT : Fld := ⟨0x400B0004, 2, 1⟩
/-- RWL, reset 1, reach B: 1: adapt dead times; 0: every leg edge uses DTCEIL -/
def PWM.CFG.DTADAPT : Fld := ⟨0x400B0004, 3, 1⟩
-- PWM.STAT (R210)
/-- RO, reset 0b000, reach B: 0b000 Blocked, 0b001 Inserted, 0b010 Reversed, 0b011 Zeroed, 0b100 Bypassed -/
def PWM.STAT.STATE : Fld := ⟨0x400B0008, 0, 3⟩
/-- RO, reset 0, reach B: trim interval in progress -/
def PWM.STAT.TRIM : Fld := ⟨0x400B0008, 3, 1⟩
/-- RO, reset 0, reach B: local mode running -/
def PWM.STAT.LOCAL : Fld := ⟨0x400B0008, 4, 1⟩
/-- RO, reset 0, reach B: force acts -/
def PWM.STAT.FORCED : Fld := ⟨0x400B0008, 5, 1⟩
/-- RO, reset 0, reach B: reload armed -/
def PWM.STAT.PENDING : Fld := ⟨0x400B0008, 6, 1⟩
/-- RO, reset 0, reach B: leg of the next zero entry: 0 A, 1 B -/
def PWM.STAT.ZLEG : Fld := ⟨0x400B0008, 7, 1⟩
/-- W1C, reset 0, reach B: sticky: R197 -/
def PWM.STAT.LATE : Fld := ⟨0x400B0008, 8, 1⟩
/-- W1C, reset 0, reach B: sticky: R198 -/
def PWM.STAT.CLAMP : Fld := ⟨0x400B0008, 9, 1⟩
/-- W1C, reset 0, reach B: sticky: R198 -/
def PWM.STAT.FLRCLAMP : Fld := ⟨0x400B0008, 10, 1⟩
/-- W1C, reset 0, reach B: sticky: R202 -/
def PWM.STAT.HALTBLK : Fld := ⟨0x400B0008, 11, 1⟩
-- PWM.PERIOD (R210)
/-- RW, reset 0x03E8, reach B: pending local period, 5 ns units -/
def PWM.PERIOD.PERIOD : Fld := ⟨0x400B000C, 0, 16⟩
-- PWM.DUTY (R210)
/-- RW, reset 0x0_0000, reach B: pending local on-interval, 78.125 ps units -/
def PWM.DUTY.DUTY : Fld := ⟨0x400B0010, 0, 18⟩
-- PWM.LSTATE (R210)
/-- RW, reset 0b00, reach B: pending: 0b00 Zeroed, 0b01 Inserted, 0b10 Reversed, 0b11 invalid (R179) -/
def PWM.LSTATE.ON : Fld := ⟨0x400B0014, 0, 2⟩
/-- RW, reset 0b00, reach B: pending, encoded as ON -/
def PWM.LSTATE.OFF : Fld := ⟨0x400B0014, 4, 2⟩
-- PWM.DTFLOOR (R210)
/-- RW, reset 0x0500, reach B: pending dead-time floor, 78.125 ps units (100 ns) -/
def PWM.DTFLOOR.FLOOR : Fld := ⟨0x400B0018, 0, 16⟩
-- PWM.DTCEIL (R210)
/-- RWL, reset 0x1400, reach B: dead-time ceiling (400 ns) -/
def PWM.DTCEIL.CEIL : Fld := ⟨0x400B001C, 0, 16⟩
-- PWM.DTMIN (R210)
/-- RWL, reset 0x0300, reach B: interlock time (60 ns) (R182) -/
def PWM.DTMIN.MIN : Fld := ⟨0x400B0020, 0, 16⟩
-- PWM.DTADJ (R210)
/-- RWL, reset 0x020, reach B: adaptation step (2.5 ns) -/
def PWM.DTADJ.STEP : Fld := ⟨0x400B0024, 0, 12⟩
/-- RWL, reset 0x100, reach B: margin after DONE (20 ns) -/
def PWM.DTADJ.MARGIN : Fld := ⟨0x400B0024, 16, 12⟩
-- PWM.TRIMMIN (R210)
/-- RWL, reset 0x1900, reach B: shortest trim interval (500 ns) (R183) -/
def PWM.TRIMMIN.MIN : Fld := ⟨0x400B0028, 0, 16⟩
-- PWM.IDB (R210)
/-- RWL, reset 0x41A0_0000, reach B: current deadband for dead time, binary32, in A (20.0 A) -/
def PWM.IDB.DB : Fld := ⟨0x400B002C, 0, 32⟩
-- PWM.VSWTH (R210)
/-- RWL, reset 0x40, reach B: START threshold, 1/256 of the step (25 %) -/
def PWM.VSWTH.START : Fld := ⟨0x400B0030, 0, 8⟩
/-- RWL, reset 0xC0, reach B: DONE threshold (75 %) -/
def PWM.VSWTH.DONE : Fld := ⟨0x400B0030, 8, 8⟩
/-- RWL, reset 0x0F00, reach B: swing window after turn-on (300 ns) (R188) -/
def PWM.VSWTH.SWINGMAX : Fld := ⟨0x400B0030, 16, 16⟩
-- PWM.SWVMIN (R210)
/-- RWL, reset 0x1000, reach B: lowest VCAP code for adaptation and swing checks -/
def PWM.SWVMIN.CODE : Fld := ⟨0x400B0034, 0, 16⟩
-- PWM.ACTPERIOD (R210)
/-- RO, reset 0x03E8, reach B: active period -/
def PWM.ACTPERIOD.PERIOD : Fld := ⟨0x400B0040, 0, 16⟩
-- PWM.ACTDUTY (R210)
/-- RO, reset 0x0_0000, reach B: active duty -/
def PWM.ACTDUTY.DUTY : Fld := ⟨0x400B0044, 0, 18⟩
-- PWM.ACTLSTATE (R210)
/-- RO, reset 0x00, reach B: active ON and OFF, as LSTATE -/
def PWM.ACTLSTATE.LSTATE : Fld := ⟨0x400B0048, 0, 6⟩
-- PWM.ACTFLOOR (R210)
/-- RO, reset 0x0500, reach B: active dead-time floor -/
def PWM.ACTFLOOR.FLOOR : Fld := ⟨0x400B004C, 0, 16⟩
-- PWM.TRIMLEN (R210)
/-- RO, reset 0x0_0000, reach B: length of the target state in the latest tick in which the cell's target was trim: L′, 0 or T64 (R183), 78.125 ps units -/
def PWM.TRIMLEN.LEN : Fld := ⟨0x400B0050, 0, 18⟩
-- PWM.LGRANT (R210)
/-- RO, reset 0x0000, reach B: grant ticks left; 0xFFFF: until ended -/
def PWM.LGRANT.TICKS : Fld := ⟨0x400B0054, 0, 16⟩
-- PWM.FORCE (R210)
/-- RWA, reset 0x0, reach B: forced value of G1 to G4 at bits [0] to [3] -/
def PWM.FORCE.VAL : Fld := ⟨0x400B0060, 0, 4⟩
/-- RWA, reset 0x0, reach B: 1: force the gate (R199) -/
def PWM.FORCE.EN : Fld := ⟨0x400B0060, 4, 4⟩
-- PWM.DT (R210)
/-- RO, reset 0x1400, reach B: adapted dead time of index i (R185) -/
def PWM.DT.DT (n : Nat) : Fld := ⟨0x400B0080 + 0x4 * n, 0, 16⟩
/-- RO, reset 0xFFFF, reach B: latest DONE time before turn-on; 0xFFFF: none -/
def PWM.DT.SWING (n : Nat) : Fld := ⟨0x400B0080 + 0x4 * n, 16, 16⟩
-- PWM.CAL (R210)
/-- RO, reset 0, reach B: lines calibrated and a spare available -/
def PWM.CAL.CALOK : Fld := ⟨0x400B00A0, 0, 1⟩
/-- RO, reset 0b100, reach B: line serving as spare; 0b111: none -/
def PWM.CAL.SPARE : Fld := ⟨0x400B00A0, 1, 3⟩
/-- RO, reset 0b0_0000, reach W: one bit per line, 1: retired (R193) -/
def PWM.CAL.FAILED : Fld := ⟨0x400B00A0, 4, 5⟩
-- PWM.CALDEV (R210)
/-- RO, reset 0x0000, reach B: largest deviation at the latest calibration, in ps -/
def PWM.CALDEV.PS : Fld := ⟨0x400B00A4, 0, 16⟩
-- PWM.ON_LO (R210)
/-- RO, reset 0x0000_0000, reach C: gate n: bits [31:0] at 0x100 + 8·(n − 1), bits [47:32] at the next word, upper 16 bits reserved -/
def PWM.ON_LO.COUNT (n : Nat) : Fld := ⟨0x400B0100 + 0x8 * n, 0, 32⟩
-- PWM.ON_HI (R210)
/-- RO, reset 0x0000_0000, reach C: gate n: bits [31:0] at 0x100 + 8·(n − 1), bits [47:32] at the next word, upper 16 bits reserved -/
def PWM.ON_HI.COUNT (n : Nat) : Fld := ⟨0x400B0104 + 0x8 * n, 0, 16⟩
-- PWM.SNAP_LO (R210)
/-- RO, reset 0x0000_0000, reach C: copies taken under R208 -/
def PWM.SNAP_LO.COUNT (n : Nat) : Fld := ⟨0x400B0120 + 0x8 * n, 0, 32⟩
-- PWM.SNAP_HI (R210)
/-- RO, reset 0x0000_0000, reach C: copies taken under R208 -/
def PWM.SNAP_HI.COUNT (n : Nat) : Fld := ⟨0x400B0124 + 0x8 * n, 0, 16⟩
-- PWM.SNAPAT (R210)
/-- RW, reset 0x0000, reach B: tick (modulo 65 536) of the snapshot -/
def PWM.SNAPAT.SEQ : Fld := ⟨0x400B0140, 0, 16⟩
/-- WO, reset 0, reach —: 1: arm (R208) -/
def PWM.SNAPAT.ARM : Fld := ⟨0x400B0140, 16, 1⟩
/-- RO, reset 0, reach B: armed -/
def PWM.SNAPAT.ARMED : Fld := ⟨0x400B0140, 17, 1⟩
/-- W1C, reset 0, reach B: arming refused -/
def PWM.SNAPAT.LATE : Fld := ⟨0x400B0140, 18, 1⟩
-- PWM.BLOCKS (R210)
/-- RO, reset 0x0000_0000, reach W: entries into Blocked -/
def PWM.BLOCKS.COUNT : Fld := ⟨0x400B0180, 0, 32⟩
-- PWM.LATECNT (R210)
/-- RO, reset 0x0000_0000, reach W: R197 -/
def PWM.LATECNT.COUNT : Fld := ⟨0x400B0184, 0, 32⟩
-- PWM.TRIMSHORT (R210)
/-- RO, reset 0x0000_0000, reach W: R183 -/
def PWM.TRIMSHORT.COUNT : Fld := ⟨0x400B0188, 0, 32⟩
-- PWM.TRIMLONG (R210)
/-- RO, reset 0x0000_0000, reach W: R183 -/
def PWM.TRIMLONG.COUNT : Fld := ⟨0x400B018C, 0, 32⟩
-- PWM.INTERLOCK (R210)
/-- RO, reset 0x0000_0000, reach W: R182 -/
def PWM.INTERLOCK.COUNT : Fld := ⟨0x400B0190, 0, 32⟩
-- PWM.NOSWING (R210)
/-- RO, reset 0x0000_0000, reach W: R188 -/
def PWM.NOSWING.COUNT : Fld := ⟨0x400B0194, 0, 32⟩
-- PWM.DTCEILHIT (R210)
/-- RO, reset 0x0000_0000, reach W: R187 -/
def PWM.DTCEILHIT.COUNT : Fld := ⟨0x400B0198, 0, 32⟩
-- PWM.HALTS (R210)
/-- RO, reset 0x0000_0000, reach W: R202 -/
def PWM.HALTS.COUNT : Fld := ⟨0x400B019C, 0, 32⟩
-- PWM.BADCMD (R210)
/-- RO, reset 0x0000_0000, reach W: R206 -/
def PWM.BADCMD.COUNT : Fld := ⟨0x400B01A0, 0, 32⟩
-- PWM.CNTCLR (R210)
/-- WO, reset 0, reach —: 1: clear the counters 0x180 to 0x1A0 -/
def PWM.CNTCLR.CLR : Fld := ⟨0x400B01FC, 0, 1⟩
-- PWM.FLTSTAT (R210)
/-- W1C, reset 0x00, reach W: sticky: [0] CALERR, [1] INTERLOCK, [2] DTCEIL, [3] NOSWING, [4] BADSTATE, [5] FORCEERR, [6] BADCMD -/
def PWM.FLTSTAT.STAT : Fld := ⟨0x400B0200, 0, 7⟩
-- PWM.FLTLIVE (R210)
/-- RO, reset 0x00, reach B: present condition, bits as FLTSTAT -/
def PWM.FLTLIVE.LIVE : Fld := ⟨0x400B0204, 0, 7⟩
-- PWM.FLTIEN (R210)
/-- RW, reset 0x00, reach B: interrupt enables, bits as FLTSTAT -/
def PWM.FLTIEN.IEN : Fld := ⟨0x400B0208, 0, 7⟩
-- PWM.REACT (R210)
/-- RWL, reset 0x000_0000, reach B: 4 bits per source in FLTSTAT order, encoded as Fault Detection and Reactions gives; 0x0 interrupt -/
def PWM.REACT.SEL : Fld := ⟨0x400B020C, 0, 28⟩
-- ADC.CTRL (R235)
/-- RWL, reset 1, reach B: 1: VCAP converts -/
def ADC.CTRL.VCAPEN : Fld := ⟨0x400C0000, 0, 1⟩
/-- RWL, reset 1, reach B: 1: VSW converts (R217) -/
def ADC.CTRL.VSWEN : Fld := ⟨0x400C0000, 1, 1⟩
/-- RWL, reset 0, reach B: 0 internal, 1 external reference (R216) -/
def ADC.CTRL.REFSEL : Fld := ⟨0x400C0000, 2, 1⟩
/-- RWL, reset 1, reach B: 1: background self-calibration (R215) -/
def ADC.CTRL.CALEN : Fld := ⟨0x400C0000, 3, 1⟩
-- ADC.STAT (R235)
/-- RO, reset 0, reach B: VREFADC in band (R216) -/
def ADC.STAT.REFOK : Fld := ⟨0x400C0004, 0, 1⟩
/-- RO, reset 0, reach B: the latest conversion did not fail -/
def ADC.STAT.VCAPVALID : Fld := ⟨0x400C0004, 1, 1⟩
-- ADC.VCAPSCALE (R235)
/-- RWL, reset 0x3D80_0000, reach B: volts per VCAP code, binary32 (0.0625) -/
def ADC.VCAPSCALE.SCALE : Fld := ⟨0x400C0008, 0, 32⟩
-- ADC.VCAPTRIM (R235)
/-- RWL, reset 0x0000, reach B: signed gain correction, units of 2^−20 -/
def ADC.VCAPTRIM.GAIN : Fld := ⟨0x400C000C, 0, 16⟩
/-- RWL, reset 0x0000, reach B: signed offset correction, 1/16 code -/
def ADC.VCAPTRIM.OFFSET : Fld := ⟨0x400C000C, 16, 16⟩
-- ADC.VCAPDLY (R235)
/-- RWL, reset 0x00, reach B: sample-edge delay, 78.125 ps units (R212) -/
def ADC.VCAPDLY.DLY : Fld := ⟨0x400C0010, 0, 8⟩
-- ADC.VCAP (R235)
/-- RO, reset 0xFFFF, reach B: latest conversion -/
def ADC.VCAP.CODE : Fld := ⟨0x400C0014, 0, 16⟩
-- ADC.VCAPSI (R235)
/-- RO, reset 0xFFFF, reach B: code of the latest sample instant -/
def ADC.VCAPSI.CODE : Fld := ⟨0x400C0018, 0, 16⟩
-- ADC.CALCORR (R235)
/-- RO, reset 0x0000, reach W: self-calibration offset, signed, 1/16 code -/
def ADC.CALCORR.OFFSET : Fld := ⟨0x400C001C, 0, 16⟩
/-- RO, reset 0x0000, reach W: self-calibration gain, signed, 2^−20 -/
def ADC.CALCORR.GAIN : Fld := ⟨0x400C001C, 16, 16⟩
-- ADC.VSWK (R235)
/-- RWL, reset 0x0000_0200, reach B: VSW codes per VCAP code, unsigned 16.16 -/
def ADC.VSWK.K : Fld := ⟨0x400C0020, 0, 32⟩
-- ADC.VSW (R235)
/-- RO, reset 0x000, reach B: latest VSW sample, signed -/
def ADC.VSW.CODE : Fld := ⟨0x400C0024, 0, 10⟩
-- ADC.AUXCTL (R235)
/-- RWL, reset 0x0, reach B: bit n enables AUXn -/
def ADC.AUXCTL.EN : Fld := ⟨0x400C0030, 0, 4⟩
/-- RWL, reset 0, reach B: 0 free-running, 1 compare-started (R218) -/
def ADC.AUXCTL.MODE : Fld := ⟨0x400C0030, 4, 1⟩
/-- RWL, reset 0b000, reach B: mean of 2^AVG conversions -/
def ADC.AUXCTL.AVG : Fld := ⟨0x400C0030, 5, 3⟩
/-- RWL, reset 0b100, reach B: 0b000–0b011 AUXn, 0b100 die sensor, 0b101–0b111 none (R220) -/
def ADC.AUXCTL.TEMPSRC : Fld := ⟨0x400C0030, 8, 3⟩
/-- RWL, reset 0x0, reach B: bit n: 1 table, 0 linear (R219) -/
def ADC.AUXCTL.LIN : Fld := ⟨0x400C0030, 11, 4⟩
-- ADC.DIETEMP (R235)
/-- RO, reset 0x0000, reach B: die temperature, signed, 1/16 °C -/
def ADC.DIETEMP.TEMP : Fld := ⟨0x400C0034, 0, 16⟩
-- ADC.TEMP (R235)
/-- RO, reset 0xFF, reach B: Tally TEMP code (R220) -/
def ADC.TEMP.CODE : Fld := ⟨0x400C0038, 0, 8⟩
-- ADC.AUXRAW (R235)
/-- RO, reset 0x000, reach B: latest result of AUXn -/
def ADC.AUXRAW.RAW (n : Nat) : Fld := ⟨0x400C0040 + 0x4 * n, 0, 12⟩
/-- RO, reset 0, reach B: 0: raw at either end (R219) -/
def ADC.AUXRAW.VALID (n : Nat) : Fld := ⟨0x400C0040 + 0x4 * n, 12, 1⟩
-- ADC.AUXVAL (R235)
/-- RO, reset 0x0000_0000, reach B: converted value, binary32 -/
def ADC.AUXVAL.VALUE (n : Nat) : Fld := ⟨0x400C0050 + 0x4 * n, 0, 32⟩
-- ADC.AUXGAIN (R235)
/-- RWL, reset 0x3F80_0000, reach B: linear gain, binary32 -/
def ADC.AUXGAIN.GAIN (n : Nat) : Fld := ⟨0x400C0060 + 0x4 * n, 0, 32⟩
-- ADC.AUXOFF (R235)
/-- RWL, reset 0x0000_0000, reach B: linear offset, binary32 -/
def ADC.AUXOFF.OFFSET (n : Nat) : Fld := ⟨0x400C0070 + 0x4 * n, 0, 32⟩
-- ADC.VCAPFAIL (R235)
/-- RO, reset 0x0000_0000, reach W: R214 -/
def ADC.VCAPFAIL.COUNT : Fld := ⟨0x400C0180, 0, 32⟩
-- ADC.AUXOVR (R235)
/-- RO, reset 0x0000_0000, reach W: R218 -/
def ADC.AUXOVR.COUNT : Fld := ⟨0x400C0184, 0, 32⟩
-- ADC.OVERCNT (R235)
/-- RO, reset 0x0000_0000, reach W: conversions clamped at 0xFFFE -/
def ADC.OVERCNT.COUNT : Fld := ⟨0x400C0188, 0, 32⟩
-- ADC.CALCNT (R235)
/-- RO, reset 0x0000_0000, reach W: self-calibration measurements -/
def ADC.CALCNT.COUNT : Fld := ⟨0x400C018C, 0, 32⟩
-- ADC.CNTCLR (R235)
/-- WO, reset 0, reach —: 1: clear the counters 0x180 to 0x18C -/
def ADC.CNTCLR.CLR : Fld := ⟨0x400C01FC, 0, 1⟩
-- ADC.FLTSTAT (R235)
/-- W1C, reset 0x00, reach W: sticky: [0] VCAPFAIL, [1] REFERR, [2] OVER, [3] UNDER, [4] AUXOVR, [5] AUXRANGE, [6] CALERR -/
def ADC.FLTSTAT.STAT : Fld := ⟨0x400C0200, 0, 7⟩
-- ADC.FLTLIVE (R235)
/-- RO, reset 0x00, reach B: present condition, bits as FLTSTAT -/
def ADC.FLTLIVE.LIVE : Fld := ⟨0x400C0204, 0, 7⟩
-- ADC.FLTIEN (R235)
/-- RW, reset 0x00, reach B: interrupt enables, bits as FLTSTAT -/
def ADC.FLTIEN.IEN : Fld := ⟨0x400C0208, 0, 7⟩
-- ADC.REACT (R235)
/-- RWL, reset 0x000_0000, reach B: 4 bits per source in FLTSTAT order, encoded as Fault Detection and Reactions gives; 0x0 interrupt -/
def ADC.REACT.SEL : Fld := ⟨0x400C020C, 0, 28⟩
-- ADC.AUXTAB (R235)
/-- RWL, reset 0x0000_0000, reach B: channel n, point j at 0x300 + 0x80·n + 4·j, j = 0 to 16, binary32 (R219) -/
def ADC.AUXTAB.VALUE (n : Nat) (i : Nat) : Fld := ⟨0x400C0300 + 0x80 * n + 0x4 * i, 0, 32⟩
-- SDM.CLKCFG (R236)
/-- RWL, reset 0b00, reach B: SDM_CK0: 0b00 off, 0b01 10 MHz, 0b10 20 MHz, 0b11 25 MHz -/
def SDM.CLKCFG.CK0 : Fld := ⟨0x40130000, 0, 2⟩
/-- RWL, reset 0b00, reach B: SDM_CK1, encoded as CK0 -/
def SDM.CLKCFG.CK1 : Fld := ⟨0x40130000, 2, 2⟩
-- SDM.STAT (R236)
/-- RO, reset 0x00, reach B: bit n: channel n not aligned (R222) -/
def SDM.STAT.ALIGNERR : Fld := ⟨0x40130004, 0, 8⟩
-- SDM.CH_CFG (R236)
/-- RWL, reset 0, reach B: 1: channel enabled -/
def SDM.CH_CFG.EN (n : Nat) : Fld := ⟨0x40130100 + 0x20 * n, 0, 1⟩
/-- RWL, reset 0, reach B: 0 SDM_CK0, 1 SDM_CK1 -/
def SDM.CH_CFG.CKSEL (n : Nat) : Fld := ⟨0x40130100 + 0x20 * n, 1, 1⟩
/-- RWL, reset 0x064, reach B: decimation ratio, 16 to 256 (100) -/
def SDM.CH_CFG.OSR (n : Nat) : Fld := ⟨0x40130100 + 0x20 * n, 2, 9⟩
/-- RWL, reset 0, reach B: 1: fast limit filter (R224) -/
def SDM.CH_CFG.FASTEN (n : Nat) : Fld := ⟨0x40130100 + 0x20 * n, 11, 1⟩
/-- RWL, reset 0x10, reach B: fast filter ratio, 8 to 32 -/
def SDM.CH_CFG.FOSR (n : Nat) : Fld := ⟨0x40130100 + 0x20 * n, 12, 6⟩
-- SDM.CH_GAIN (R236)
/-- RWL, reset 0x3F80_0000, reach B: binary32, value per unit of x -/
def SDM.CH_GAIN.GAIN (n : Nat) : Fld := ⟨0x40130104 + 0x20 * n, 0, 32⟩
-- SDM.CH_OFFSET (R236)
/-- RWL, reset 0x0000_0000, reach B: binary32 -/
def SDM.CH_OFFSET.OFFSET (n : Nat) : Fld := ⟨0x40130108 + 0x20 * n, 0, 32⟩
-- SDM.CH_VALUE (R236)
/-- RO, reset 0x0000_0000, reach B: value latched at the latest sample instant -/
def SDM.CH_VALUE.VALUE (n : Nat) : Fld := ⟨0x4013010C + 0x20 * n, 0, 32⟩
-- SDM.CH_FASTHI (R236)
/-- RWL, reset 0x7F80_0000, reach B: upper limit, binary32 (+infinity) -/
def SDM.CH_FASTHI.HI (n : Nat) : Fld := ⟨0x40130110 + 0x20 * n, 0, 32⟩
-- SDM.CH_FASTLO (R236)
/-- RWL, reset 0xFF80_0000, reach B: lower limit, binary32 (−infinity) -/
def SDM.CH_FASTLO.LO (n : Nat) : Fld := ⟨0x40130114 + 0x20 * n, 0, 32⟩
-- SDM.CH_LIVE (R236)
/-- RO, reset 0x0000_0000, reach B: latest main-filter output, not latched -/
def SDM.CH_LIVE.VALUE (n : Nat) : Fld := ⟨0x40130118 + 0x20 * n, 0, 32⟩
-- SDM.CH_LIMCNT (R236)
/-- RO, reset 0x0000_0000, reach W: fast-limit breaches; saturates -/
def SDM.CH_LIMCNT.COUNT (n : Nat) : Fld := ⟨0x4013011C + 0x20 * n, 0, 32⟩
-- SDM.FLTSTAT (R236)
/-- W1C, reset 0x00_0000, reach W: sticky: [7:0] STUCK, [15:8] FASTLIM, [23:16] ALIGN, bit per channel -/
def SDM.FLTSTAT.STAT : Fld := ⟨0x40130200, 0, 24⟩
-- SDM.FLTLIVE (R236)
/-- RO, reset 0x00_0000, reach B: present condition, bits as FLTSTAT -/
def SDM.FLTLIVE.LIVE : Fld := ⟨0x40130204, 0, 24⟩
-- SDM.FLTIEN (R236)
/-- RW, reset 0x00_0000, reach B: interrupt enables, bits as FLTSTAT -/
def SDM.FLTIEN.IEN : Fld := ⟨0x40130208, 0, 24⟩
-- SDM.REACT (R236)
/-- RWL, reset 0x0000_0000, reach B: 4 bits per source; REACT0 STUCK, REACT1 FASTLIM, REACT2 ALIGN, channel n at bits [4n+3:4n]; 0x0 interrupt -/
def SDM.REACT.SEL (n : Nat) : Fld := ⟨0x4013020C + 0x4 * n, 0, 32⟩
-- SDM.CNTCLR (R236)
/-- WO, reset 0, reach —: 1: clear every LIMCNT -/
def SDM.CNTCLR.CLR : Fld := ⟨0x401302FC, 0, 1⟩
-- ENV.LCFG (R237)
/-- RWL, reset 1, reach B: 1: ledger may use the estimate (R227) -/
def ENV.LCFG.USEEST : Fld := ⟨0x400D0000, 0, 1⟩
/-- RWL, reset 1, reach B: 1: estimator runs -/
def ENV.LCFG.ESTEN : Fld := ⟨0x400D0000, 1, 1⟩
/-- RWL, reset 0x14, reach B: window of 2^WLOG ticks, 10 to 24 -/
def ENV.LCFG.WLOG : Fld := ⟨0x400D0000, 2, 5⟩
-- ENV.CNOM (R237)
/-- RWL, reset 0x3C23_D70A, reach B: nominal capacitance, binary32, F (0.01) -/
def ENV.CNOM.C : Fld := ⟨0x400D0004, 0, 32⟩
-- ENV.CIMIN (R237)
/-- RWL, reset 0x4248_0000, reach B: smallest usable \ -/
def ENV.CIMIN.I : Fld := ⟨0x400D0008, 0, 32⟩
-- ENV.NMIN (R237)
/-- RWL, reset 0x01_0000, reach B: least usable ticks for a valid window -/
def ENV.NMIN.N : Fld := ⟨0x400D000C, 0, 24⟩
-- ENV.CWARN (R237)
/-- RWL, reset 0x3F78_51EC, reach B: warning ratio, binary32 (0.97) -/
def ENV.CWARN.RATIO : Fld := ⟨0x400D0010, 0, 32⟩
-- ENV.CFAIL (R237)
/-- RWL, reset 0x3F66_6666, reach B: failure ratio, binary32 (0.90) -/
def ENV.CFAIL.RATIO : Fld := ⟨0x400D0014, 0, 32⟩
-- ENV.SIGREL (R237)
/-- RWL, reset 0x3B03_126F, reach B: largest σ_C / Ĉ of a valid window (0.002) -/
def ENV.SIGREL.RATIO : Fld := ⟨0x400D0018, 0, 32⟩
-- ENV.VOLTS (R237)
/-- RO, reset 0x0000_0000, reach B: latest V, binary32 -/
def ENV.VOLTS.V : Fld := ⟨0x400D0020, 0, 32⟩
-- ENV.ENERGY (R237)
/-- RO, reset 0x0000_0000, reach B: latest E, binary32, J -/
def ENV.ENERGY.E : Fld := ⟨0x400D0024, 0, 32⟩
-- ENV.ENERGYSI (R237)
/-- RO, reset 0x0000_0000, reach B: E of the latest sample instant -/
def ENV.ENERGYSI.E : Fld := ⟨0x400D0028, 0, 32⟩
-- ENV.CLEDGER (R237)
/-- RO, reset 0x3C23_D70A, reach B: C_L in use (R227) -/
def ENV.CLEDGER.C : Fld := ⟨0x400D002C, 0, 32⟩
-- ENV.CEST (R237)
/-- RO, reset 0x0000_0000, reach W: Ĉ of the latest valid window -/
def ENV.CEST.C : Fld := ⟨0x400D0030, 0, 32⟩
-- ENV.CSIGMA (R237)
/-- RO, reset 0x0000_0000, reach W: σ_C of that window -/
def ENV.CSIGMA.C : Fld := ⟨0x400D0034, 0, 32⟩
-- ENV.CLEAK (R237)
/-- RO, reset 0x0000_0000, reach W: leakage current of that window, A -/
def ENV.CLEAK.I : Fld := ⟨0x400D0038, 0, 32⟩
-- ENV.CNUSED (R237)
/-- RO, reset 0x00_0000, reach W: usable ticks in that window -/
def ENV.CNUSED.N : Fld := ⟨0x400D003C, 0, 24⟩
-- ENV.CSTAT (R237)
/-- RO, reset 0b00, reach W: 0b00 unknown, 0b01 OK, 0b10 WARN, 0b11 FAIL (R232) -/
def ENV.CSTAT.HEALTH : Fld := ⟨0x400D0040, 0, 2⟩
/-- RO, reset 0, reach W: a valid window has been published -/
def ENV.CSTAT.VALID : Fld := ⟨0x400D0040, 2, 1⟩
/-- RO, reset 0, reach B: a window is open -/
def ENV.CSTAT.RUNNING : Fld := ⟨0x400D0040, 3, 1⟩
-- ENV.CWINCNT (R237)
/-- RO, reset 0x0000_0000, reach W: windows closed; saturates -/
def ENV.CWINCNT.COUNT : Fld := ⟨0x400D0044, 0, 32⟩
-- ENV.CCTL (R237)
/-- WO, reset 0, reach —: 1: R233 -/
def ENV.CCTL.RESTART : Fld := ⟨0x400D0048, 0, 1⟩
/-- WO, reset 0, reach —: 1: restart EPEAK (R228) -/
def ENV.CCTL.PKCLR : Fld := ⟨0x400D0048, 1, 1⟩
-- ENV.CPROG (R237)
/-- RO, reset 0x00_0000, reach B: ticks since the open window began -/
def ENV.CPROG.TICKS : Fld := ⟨0x400D004C, 0, 24⟩
-- ENV.EPEAK (R237)
/-- RO, reset 0x0000_0000, reach B: largest E (R228) -/
def ENV.EPEAK.E : Fld := ⟨0x400D0050, 0, 32⟩
-- ENV.FLTSTAT (R237)
/-- W1C, reset 0b000, reach W: sticky: [0] CWARN, [1] CFAIL, [2] CINVALID -/
def ENV.FLTSTAT.STAT : Fld := ⟨0x400D0100, 0, 3⟩
-- ENV.FLTLIVE (R237)
/-- RO, reset 0b000, reach B: [0] HEALTH is WARN, [1] HEALTH is FAIL, [2] latest window invalid -/
def ENV.FLTLIVE.LIVE : Fld := ⟨0x400D0104, 0, 3⟩
-- ENV.FLTIEN (R237)
/-- RW, reset 0b000, reach B: interrupt enables, bits as FLTSTAT -/
def ENV.FLTIEN.IEN : Fld := ⟨0x400D0108, 0, 3⟩
-- ENV.REACT (R237)
/-- RWL, reset 0x000, reach B: 4 bits per source in FLTSTAT order; 0x0 interrupt -/
def ENV.REACT.SEL : Fld := ⟨0x400D010C, 0, 12⟩
-- ENV.VSOFT (R261)
/-- RWL, reset 0xC800, reach B: soft SLV code (R238) -/
def ENV.VSOFT.CODE : Fld := ⟨0x400D0200, 0, 16⟩
/-- RWL, reset 0x0140, reach B: hysteresis, codes -/
def ENV.VSOFT.HYS : Fld := ⟨0x400D0200, 16, 16⟩
-- ENV.EMAX (R261)
/-- RWL, reset 0x474B_2000, reach B: SLE ceiling, binary32, J (52 000) -/
def ENV.EMAX.E : Fld := ⟨0x400D0204, 0, 32⟩
-- ENV.EHYS (R261)
/-- RWL, reset 0x447A_0000, reach B: SLE hysteresis, J (1000) -/
def ENV.EHYS.E : Fld := ⟨0x400D0208, 0, 32⟩
-- ENV.ETRIP (R261)
/-- RWL, reset 0x4756_D800, reach B: SLE trip, J (55 000) -/
def ENV.ETRIP.E : Fld := ⟨0x400D020C, 0, 32⟩
-- ENV.ETRIPN (R261)
/-- RWL, reset 0x4, reach B: consecutive conversions, 1 to 15 -/
def ENV.ETRIPN.N : Fld := ⟨0x400D0210, 0, 4⟩
-- ENV.SDFDB (R261)
/-- RWL, reset 0x41A0_0000, reach B: direction deadband, A (20.0) -/
def ENV.SDFDB.DB : Fld := ⟨0x400D0214, 0, 32⟩
-- ENV.ERESID (R261)
/-- RWL, reset 0x4148_0000, reach B: discharge residual, J (12.5) -/
def ENV.ERESID.E : Fld := ⟨0x400D0218, 0, 32⟩
-- ENV.DISTIME (R261)
/-- RWL, reset 0x000D_BBA0, reach B: discharge time limit, ms (900 000) -/
def ENV.DISTIME.MS : Fld := ⟨0x400D021C, 0, 32⟩
-- ENV.DISCMD (R261)
/-- WO, reset 0, reach —: 1: start the check (R255) -/
def ENV.DISCMD.START : Fld := ⟨0x400D0220, 0, 1⟩
/-- WO, reset 0, reach —: 1: end the check -/
def ENV.DISCMD.STOP : Fld := ⟨0x400D0220, 1, 1⟩
-- ENV.DISSTAT (R261)
/-- RO, reset 0b00, reach B: 0b00 idle, 0b01 running, 0b10 met, 0b11 failed -/
def ENV.DISSTAT.STATE : Fld := ⟨0x400D0224, 0, 2⟩
/-- RO, reset 0, reach B: R255 -/
def ENV.DISSTAT.VFAIL : Fld := ⟨0x400D0224, 2, 1⟩
-- ENV.DISELAPSED (R261)
/-- RO, reset 0x0000_0000, reach B: ms since start; frozen at MET -/
def ENV.DISELAPSED.MS : Fld := ⟨0x400D0228, 0, 32⟩
-- ENV.SSTAT (R261)
/-- RO, reset 0, reach B: soft SLV live -/
def ENV.SSTAT.SOFT : Fld := ⟨0x400D022C, 0, 1⟩
/-- RO, reset 0, reach B: SLE live -/
def ENV.SSTAT.SLE : Fld := ⟨0x400D022C, 1, 1⟩
/-- RO, reset 0, reach B: direction rule acts -/
def ENV.SSTAT.SDF : Fld := ⟨0x400D022C, 2, 1⟩
/-- RO, reset 0, reach C: SLE trip latched -/
def ENV.SSTAT.TRIP : Fld := ⟨0x400D022C, 3, 1⟩
-- ENV.SOFTCNT (R261)
/-- RO, reset 0x0000_0000, reach W: entries into soft SLV -/
def ENV.SOFTCNT.COUNT : Fld := ⟨0x400D0280, 0, 32⟩
-- ENV.SLECNT (R261)
/-- RO, reset 0x0000_0000, reach W: entries into SLE -/
def ENV.SLECNT.COUNT : Fld := ⟨0x400D0284, 0, 32⟩
-- ENV.SDFMID (R261)
/-- RO, reset 0x0000_0000, reach W: R241 -/
def ENV.SDFMID.COUNT : Fld := ⟨0x400D0288, 0, 32⟩
-- ENV.CNTCLR (R261)
/-- WO, reset 0, reach —: 1: clear 0x280 to 0x288 -/
def ENV.CNTCLR.CLR : Fld := ⟨0x400D02FC, 0, 1⟩
-- ENV.SFLTSTAT (R261)
/-- W1C, reset 0x00, reach W: sticky: [0] SOFT, [1] SLE, [2] SLETRIP, [3] DISFAIL, [4] LEDGERR -/
def ENV.SFLTSTAT.STAT : Fld := ⟨0x400D0300, 0, 5⟩
-- ENV.SFLTLIVE (R261)
/-- RO, reset 0x00, reach B: present condition, bits as SFLTSTAT -/
def ENV.SFLTLIVE.LIVE : Fld := ⟨0x400D0304, 0, 5⟩
-- ENV.SFLTIEN (R261)
/-- RW, reset 0x00, reach B: interrupt enables -/
def ENV.SFLTIEN.IEN : Fld := ⟨0x400D0308, 0, 5⟩
-- ENV.SREACT (R261)
/-- RWL, reset 0x0_0000, reach B: 4 bits per source in SFLTSTAT order; the SLETRIP nibble is reserved (R259) -/
def ENV.SREACT.SEL : Fld := ⟨0x400D030C, 0, 20⟩
-- SAF.CFG (R262)
/-- RWL, reset 0, reach B: 1: supply B used -/
def SAF.CFG.SUPB : Fld := ⟨0x400E0000, 0, 1⟩
/-- RWL, reset 1, reach B: 1: DSAT fires the bypass -/
def SAF.CFG.DSATBYP : Fld := ⟨0x400E0000, 1, 1⟩
/-- RWL, reset 1, reach B: 1: test pulses -/
def SAF.CFG.TPEN : Fld := ⟨0x400E0000, 2, 1⟩
/-- RWL, reset 1, reach B: 1: comparator self-test -/
def SAF.CFG.CMPTEN : Fld := ⟨0x400E0000, 3, 1⟩
-- SAF.STAT (R262)
/-- RO, reset 0b00, reach B: supply A, B commanded closed -/
def SAF.STAT.ENCMD : Fld := ⟨0x400E0004, 0, 2⟩
/-- RO, reset 0x0, reach B: EHA_RB, ELA_RB, EHB_RB, ELB_RB; 1 closed -/
def SAF.STAT.RB : Fld := ⟨0x400E0004, 2, 4⟩
/-- RO, reset 0, reach B: safe state active -/
def SAF.STAT.SAFESTATE : Fld := ⟨0x400E0004, 6, 1⟩
/-- RO, reset 0, reach C: trip latched -/
def SAF.STAT.TRIP : Fld := ⟨0x400E0004, 7, 1⟩
/-- RO, reset 0, reach C: BYP driven since cold reset -/
def SAF.STAT.BYP : Fld := ⟨0x400E0004, 8, 1⟩
/-- RO, reset 0, reach C: filtered BYP_RB level, 1 closed; not sticky (R243) -/
def SAF.STAT.BYPCLOSED : Fld := ⟨0x400E0004, 9, 1⟩
/-- RO, reset 0, reach B: test pulse in progress -/
def SAF.STAT.TESTING : Fld := ⟨0x400E0004, 10, 1⟩
/-- RO, reset 0, reach W: DSAT latch set (R245) -/
def SAF.STAT.DSATLATCH : Fld := ⟨0x400E0004, 11, 1⟩
-- SAF.HARDV (R262)
/-- RWL, reset FUSE.SLVHARD, reach B: hard threshold, 2.500/4096 V -/
def SAF.HARDV.CODE : Fld := ⟨0x400E0008, 0, 12⟩
-- SAF.DSATCFG (R262)
/-- RWL, reset 0x14, reach B: DSAT filter, 5 ns units (100 ns) -/
def SAF.DSATCFG.FILT : Fld := ⟨0x400E000C, 0, 8⟩
/-- RWL, reset 0xF, reach B: bit n − 1 enables DSATn -/
def SAF.DSATCFG.EN : Fld := ⟨0x400E000C, 8, 4⟩
-- SAF.TWOFF (R262)
/-- RWL, reset 0x0096, reach B: first window offset, 10 ns units (1.50 µs) -/
def SAF.TWOFF.OFF1 : Fld := ⟨0x400E0010, 0, 16⟩
/-- RWL, reset 0x012C, reach B: second offset (3.00 µs) -/
def SAF.TWOFF.OFF2 : Fld := ⟨0x400E0010, 16, 16⟩
-- SAF.TPCFG (R262)
/-- RWL, reset 0x3C, reach B: pulse, 5 ns units (300 ns) -/
def SAF.TPCFG.TPLEN : Fld := ⟨0x400E0014, 0, 8⟩
/-- RWL, reset 0x1E, reach B: read-back limit (150 ns) -/
def SAF.TPCFG.TPDET : Fld := ⟨0x400E0014, 8, 8⟩
/-- RWL, reset 0x40, reach B: ticks between tests -/
def SAF.TPCFG.EVERY : Fld := ⟨0x400E0014, 16, 8⟩
/-- RWL, reset 0x0A, reach B: guard, 10 ns units (100 ns) -/
def SAF.TPCFG.GUARD : Fld := ⟨0x400E0014, 24, 8⟩
-- SAF.BYPCFG (R262)
/-- RWL, reset 0x1388, reach B: bypass closure limit, µs (5 ms) -/
def SAF.BYPCFG.BYPTIME : Fld := ⟨0x400E0018, 0, 16⟩
-- SAF.CMPTEST (R262)
/-- RWL, reset 0x0100, reach B: self-test interval, units of 256 ticks -/
def SAF.CMPTEST.INTERVAL : Fld := ⟨0x400E001C, 0, 16⟩
-- SAF.INCRUN (R262)
/-- RO, reset 0x0000_0000, reach B: byte n: incomplete tests of switch n (EHA, ELA, EHB, ELB) -/
def SAF.INCRUN.RUN : Fld := ⟨0x400E0020, 0, 32⟩
-- SAF.WDOG (R262)
/-- WO, reset 0, reach —: R247; only the safety pair's writes count, writes from other origins are ignored -/
def SAF.WDOG.KEY : Fld := ⟨0x400E0030, 0, 32⟩
-- SAF.TPDONE (R262)
/-- RO, reset 0x0000_0000, reach W: complete tests -/
def SAF.TPDONE.COUNT : Fld := ⟨0x400E0180, 0, 32⟩
-- SAF.TPABORT (R262)
/-- RO, reset 0x0000_0000, reach W: aborted tests -/
def SAF.TPABORT.COUNT : Fld := ⟨0x400E0184, 0, 32⟩
-- SAF.TPDELAY (R262)
/-- RO, reset 0x0000_0000, reach W: delayed turn-ons (R252) -/
def SAF.TPDELAY.COUNT : Fld := ⟨0x400E0188, 0, 32⟩
-- SAF.TWSKIP (R262)
/-- RO, reset 0x0000_0000, reach W: skipped windows -/
def SAF.TWSKIP.COUNT : Fld := ⟨0x400E018C, 0, 32⟩
-- SAF.DSATIDLE (R262)
/-- RO, reset 0x0000_0000, reach W: R245 -/
def SAF.DSATIDLE.COUNT : Fld := ⟨0x400E0190, 0, 32⟩
-- SAF.CMPTDONE (R262)
/-- RO, reset 0x0000_0000, reach W: comparator self-tests passed -/
def SAF.CMPTDONE.COUNT : Fld := ⟨0x400E0194, 0, 32⟩
-- SAF.CNTCLR (R262)
/-- WO, reset 0, reach —: 1: clear 0x180 to 0x194 -/
def SAF.CNTCLR.CLR : Fld := ⟨0x400E01FC, 0, 1⟩
-- SAF.FLTSTAT (R262)
/-- W1C, reset 0x000, reach W: sticky: [0] HARDTRIP, [1] DSAT, [2] ENWELD, [3] ENOPEN, [4] TPINC, [5] BYPFAIL, [6] BYPUNCMD, [7] PAIRMIS, [8] CMPTEST, [9] CLKSAFE, [10] WDOG -/
def SAF.FLTSTAT.STAT : Fld := ⟨0x400E0200, 0, 11⟩
-- SAF.FLTLIVE (R262)
/-- RO, reset 0x000, reach B: present condition, bits as FLTSTAT -/
def SAF.FLTLIVE.LIVE : Fld := ⟨0x400E0204, 0, 11⟩
-- SAF.FLTIEN (R262)
/-- RW, reset 0x000, reach B: interrupt enables -/
def SAF.FLTIEN.IEN : Fld := ⟨0x400E0208, 0, 11⟩
-- SAF.REACT (R262)
/-- RWL, reset 0x000, reach B: [3:0] single ENWELD, [7:4] TPINC, [11:8] CMPTEST (R259) -/
def SAF.REACT.SEL : Fld := ⟨0x400E020C, 0, 12⟩
-- LPE.CTRL (R293)
/-- RWL, reset 0x0, reach B: bit n: engine n runs (R263) -/
def LPE.CTRL.ENGEN : Fld := ⟨0x400F0000, 0, 4⟩
-- LPE.STAT (R293)
/-- RO, reset 0x0, reach B: bit n: engine n runs a context -/
def LPE.STAT.BUSY : Fld := ⟨0x400F0004, 0, 4⟩
/-- RO, reset 0x0, reach B: bit n: engine n halted for debug -/
def LPE.STAT.HALTED : Fld := ⟨0x400F0004, 4, 4⟩
-- LPE.CBSEL (R293)
/-- RW, reset 0x00, reach B: context of the apertures -/
def LPE.CBSEL.CTX : Fld := ⟨0x400F0008, 0, 7⟩
-- LPE.SWAPREQ (R293)
/-- WO, reset 0, reach —: bit j of register n: swap context 32·n + j (R286) -/
def LPE.SWAPREQ.MASK (n : Nat) : Fld := ⟨0x400F0010 + 0x4 * n, 0, 32⟩
-- LPE.PROGCRC (R293)
/-- RO, reset 0x0000_0000, reach W: CRC-32 of engine n's programs, routing and destinations at load -/
def LPE.PROGCRC.CRC (n : Nat) : Fld := ⟨0x400F0020 + 0x4 * n, 0, 32⟩
-- LPE.LOAD (R293)
/-- RO, reset 0x0000, reach B: engine n: busy cycles in the latest tick -/
def LPE.LOAD.LAST (n : Nat) : Fld := ⟨0x400F0030 + 0x4 * n, 0, 16⟩
/-- RO, reset 0x0000, reach B: engine n: largest LAST since CNTCLR -/
def LPE.LOAD.PEAK (n : Nat) : Fld := ⟨0x400F0030 + 0x4 * n, 16, 16⟩
-- LPE.FLTCTX (R293)
/-- RO, reset 0x0000_0000, reach B: bit j: context 32·n + j has a sticky fault (R292) -/
def LPE.FLTCTX.MASK (n : Nat) : Fld := ⟨0x400F0040 + 0x4 * n, 0, 32⟩
-- LPE.CNTCLR (R293)
/-- WO, reset 0, reach —: 1: clear every CTXc_OVR, CTXc_SKIP and PEAK -/
def LPE.CNTCLR.CLR : Fld := ⟨0x400F01FC, 0, 1⟩
-- LPE.FLTSTAT (R293)
/-- W1C, reset 0x00, reach W: sticky: [0] OVERRUN, [1] NANIN, [2] ARITH, [3] SATSWAP, [4] BANKERR, [5] PLAUS -/
def LPE.FLTSTAT.STAT : Fld := ⟨0x400F0200, 0, 6⟩
-- LPE.FLTLIVE (R293)
/-- RO, reset 0x00, reach B: condition of the latest run of any context, bits as FLTSTAT; [5] a MODEL condition live -/
def LPE.FLTLIVE.LIVE : Fld := ⟨0x400F0204, 0, 6⟩
-- LPE.FLTIEN (R293)
/-- RW, reset 0x00, reach B: interrupt enables, bits as FLTSTAT -/
def LPE.FLTIEN.IEN : Fld := ⟨0x400F0208, 0, 6⟩
-- LPE.REACT (R293)
/-- RWL, reset 0x00_0000, reach B: 4 bits per source in FLTSTAT order, encoded as Fault Detection and Reactions gives; 0x0 interrupt -/
def LPE.REACT.SEL : Fld := ⟨0x400F020C, 0, 24⟩
-- LPE.HOSTIN (R293)
/-- RW, reset 0x0000_0000, reach B: host input n, binary32 (R282) -/
def LPE.HOSTIN.VALUE (n : Nat) : Fld := ⟨0x400F0400 + 0x4 * n, 0, 32⟩
-- LPE.OUT (R293)
/-- RO, reset 0x0000_0000, reach B: output register n, binary32 (R283) -/
def LPE.OUT.VALUE (n : Nat) : Fld := ⟨0x400F0500 + 0x4 * n, 0, 32⟩
-- LPE.CTX_CFG (R293)
/-- RWL, reset 0, reach B: 1: context runs (R266) -/
def LPE.CTX_CFG.EN (n : Nat) : Fld := ⟨0x400F1000 + 0x20 * n, 0, 1⟩
/-- RWL, reset 0x00, reach B: m − 1 -/
def LPE.CTX_CFG.RATEM (n : Nat) : Fld := ⟨0x400F1000 + 0x20 * n, 1, 8⟩
/-- RWL, reset 0x00, reach B: starting tick modulo m -/
def LPE.CTX_CFG.PHASE (n : Nat) : Fld := ⟨0x400F1000 + 0x20 * n, 9, 8⟩
/-- RWL, reset 0b00, reach B: R288 -/
def LPE.CTX_CFG.POLICY (n : Nat) : Fld := ⟨0x400F1000 + 0x20 * n, 17, 2⟩
/-- RWL, reset 0x00, reach B: block descriptors in the program, 0 to 48 -/
def LPE.CTX_CFG.NBLK (n : Nat) : Fld := ⟨0x400F1000 + 0x20 * n, 19, 6⟩
/-- RWL, reset 1, reach B: 1: swaps permitted (R286) -/
def LPE.CTX_CFG.SWAPEN (n : Nat) : Fld := ⟨0x400F1000 + 0x20 * n, 25, 1⟩
-- LPE.CTX_TIME (R293)
/-- RWL, reset 0x0000, reach B: start after the sample instant, 10 ns units -/
def LPE.CTX_TIME.STARTOFF (n : Nat) : Fld := ⟨0x400F1004 + 0x20 * n, 0, 16⟩
/-- RWL, reset 0x0000, reach B: deadline after the start instant, 10 ns units (R269) -/
def LPE.CTX_TIME.DEADLINE (n : Nat) : Fld := ⟨0x400F1004 + 0x20 * n, 16, 16⟩
-- LPE.CTX_CTL (R293)
/-- WO, reset 0, reach —: 1: request a swap (R286) -/
def LPE.CTX_CTL.SWAP (n : Nat) : Fld := ⟨0x400F1008 + 0x20 * n, 0, 1⟩
/-- WO, reset 0, reach —: 1: R289 -/
def LPE.CTX_CTL.RESETST (n : Nat) : Fld := ⟨0x400F1008 + 0x20 * n, 1, 1⟩
-- LPE.CTX_STAT (R293)
/-- RO, reset 0, reach B: active bank -/
def LPE.CTX_STAT.ACTBANK (n : Nat) : Fld := ⟨0x400F100C + 0x20 * n, 0, 1⟩
/-- RO, reset 0, reach B: swap pending -/
def LPE.CTX_STAT.SWAPPEND (n : Nat) : Fld := ⟨0x400F100C + 0x20 * n, 1, 1⟩
/-- RO, reset 0, reach B: waiting in the queue -/
def LPE.CTX_STAT.QUEUED (n : Nat) : Fld := ⟨0x400F100C + 0x20 * n, 2, 1⟩
/-- RO, reset 0, reach B: running -/
def LPE.CTX_STAT.RUNNING (n : Nat) : Fld := ⟨0x400F100C + 0x20 * n, 3, 1⟩
/-- RO, reset 0, reach B: the latest start skipped (R270) -/
def LPE.CTX_STAT.SKIPPED (n : Nat) : Fld := ⟨0x400F100C + 0x20 * n, 4, 1⟩
/-- RO, reset 0, reach B: a LIMIT or PI output clamped in the latest run -/
def LPE.CTX_STAT.ANYSAT (n : Nat) : Fld := ⟨0x400F100C + 0x20 * n, 5, 1⟩
/-- W1C, reset 0, reach W: sticky: R269 -/
def LPE.CTX_STAT.OVERRUN (n : Nat) : Fld := ⟨0x400F100C + 0x20 * n, 8, 1⟩
/-- W1C, reset 0, reach W: sticky: R270 -/
def LPE.CTX_STAT.NANIN (n : Nat) : Fld := ⟨0x400F100C + 0x20 * n, 9, 1⟩
/-- W1C, reset 0, reach W: sticky: R271 -/
def LPE.CTX_STAT.ARITH (n : Nat) : Fld := ⟨0x400F100C + 0x20 * n, 10, 1⟩
/-- W1C, reset 0, reach W: sticky: R288 -/
def LPE.CTX_STAT.SATSWAP (n : Nat) : Fld := ⟨0x400F100C + 0x20 * n, 11, 1⟩
/-- W1C, reset 0, reach W: sticky: R285 to R287 -/
def LPE.CTX_STAT.BANKERR (n : Nat) : Fld := ⟨0x400F100C + 0x20 * n, 12, 1⟩
/-- W1C, reset 0, reach W: sticky: R280 -/
def LPE.CTX_STAT.PLAUS (n : Nat) : Fld := ⟨0x400F100C + 0x20 * n, 13, 1⟩
/-- RO, reset 0b00, reach B: winner of the lowest-numbered MINMAX block (R278) -/
def LPE.CTX_STAT.WIN (n : Nat) : Fld := ⟨0x400F100C + 0x20 * n, 16, 2⟩
/-- RO, reset 0, reach B: an XSEL ramp in progress (R281) -/
def LPE.CTX_STAT.RAMPING (n : Nat) : Fld := ⟨0x400F100C + 0x20 * n, 18, 1⟩
/-- RO, reset 0, reach B: a MODEL condition live -/
def LPE.CTX_STAT.PLAUSLIVE (n : Nat) : Fld := ⟨0x400F100C + 0x20 * n, 19, 1⟩
-- LPE.CTX_RUNS (R293)
/-- RO, reset 0x0000_0000, reach B: committed runs; wraps -/
def LPE.CTX_RUNS.COUNT (n : Nat) : Fld := ⟨0x400F1010 + 0x20 * n, 0, 32⟩
-- LPE.CTX_LAST (R293)
/-- RO, reset 0x0000, reach B: cycles of the latest run -/
def LPE.CTX_LAST.CYCLES (n : Nat) : Fld := ⟨0x400F1014 + 0x20 * n, 0, 16⟩
/-- RO, reset 0x0000, reach B: cycles from start instant to latch of the latest run; saturates -/
def LPE.CTX_LAST.WAIT (n : Nat) : Fld := ⟨0x400F1014 + 0x20 * n, 16, 16⟩
-- LPE.CTX_OVR (R293)
/-- RO, reset 0x0000_0000, reach W: overruns and dropped starts; saturates -/
def LPE.CTX_OVR.COUNT (n : Nat) : Fld := ⟨0x400F1018 + 0x20 * n, 0, 32⟩
-- LPE.CTX_SKIP (R293)
/-- RO, reset 0x0000_0000, reach W: skipped runs; saturates -/
def LPE.CTX_SKIP.COUNT (n : Nat) : Fld := ⟨0x400F101C + 0x20 * n, 0, 32⟩
-- LPE.COEF (R293)
/-- RW, reset 0x0000_0000, reach B: inactive bank of context CBSEL, word w at 0x8000 + 4·w (R285) -/
def LPE.COEF.WORD (n : Nat) : Fld := ⟨0x400F8000 + 0x4 * n, 0, 32⟩
-- LPE.ACOEF (R293)
/-- RO, reset 0x0000_0000, reach B: active bank of context CBSEL -/
def LPE.ACOEF.WORD (n : Nat) : Fld := ⟨0x400F8400 + 0x4 * n, 0, 32⟩
-- LPE.STATEW (R293)
/-- RO, reset 0x0000_0000, reach B: state words of context CBSEL -/
def LPE.STATEW.WORD (n : Nat) : Fld := ⟨0x400F8800 + 0x4 * n, 0, 32⟩
-- LPE.SLOT (R293)
/-- RO, reset 0x0000_0000, reach B: slots 0 to 63 of context CBSEL, as of its latest commit -/
def LPE.SLOT.VALUE (n : Nat) : Fld := ⟨0x400F8C00 + 0x4 * n, 0, 32⟩
-- ETH.CTRL (R321)
/-- RWL, reset 0, reach B: 1: receive on L15 -/
def ETH.CTRL.RXEN : Fld := ⟨0x40140000, 0, 1⟩
/-- RWL, reset 0, reach B: 1: transmit (PTP only) -/
def ETH.CTRL.TXEN : Fld := ⟨0x40140000, 1, 1⟩
/-- RWL, reset 0, reach B: 1: PTP service runs (R146) -/
def ETH.CTRL.PTPEN : Fld := ⟨0x40140000, 2, 1⟩
-- ETH.STAT (R321)
/-- RO, reset 0, reach B: link up -/
def ETH.STAT.LINK : Fld := ⟨0x40140004, 0, 1⟩
/-- RO, reset 0b00, reach B: 0b00 10, 0b01 100, 0b10 1000 Mbit/s -/
def ETH.STAT.SPEED : Fld := ⟨0x40140004, 1, 2⟩
/-- RO, reset 0, reach B: clause 37 auto-negotiation complete -/
def ETH.STAT.ANDONE : Fld := ⟨0x40140004, 3, 1⟩
-- ETH.MACLO (R321)
/-- RWL, reset 0x0000_0000, reach B: own MAC address bytes 0–3; TXEN has no effect while MACLO and MACHI are 0 -/
def ETH.MACLO.MAC : Fld := ⟨0x40140008, 0, 32⟩
-- ETH.MACHI (R321)
/-- RWL, reset 0x0000, reach B: bytes 4–5 -/
def ETH.MACHI.MAC : Fld := ⟨0x4014000C, 0, 16⟩
-- ETH.SVCTL (R321)
/-- RWL, reset 0x00, reach B: bit s: stream s subscribed -/
def ETH.SVCTL.SVEN : Fld := ⟨0x40140010, 0, 8⟩
/-- RWL, reset 0, reach B: 1: accept samples with the test bit set -/
def ETH.SVCTL.ACCTEST : Fld := ⟨0x40140010, 8, 1⟩
-- ETH.SVSTAT (R321)
/-- RO, reset 0x00, reach B: bit s: stream s valid (R316) -/
def ETH.SVSTAT.VALID : Fld := ⟨0x40140014, 0, 8⟩
/-- RO, reset 0x00, reach B: bit s: latest accepted smpSynch = 2 -/
def ETH.SVSTAT.SYNCED : Fld := ⟨0x40140014, 8, 8⟩
-- ETH.PTPSTAT (R321)
/-- RW, reset 0x1, reach B: PTP port state in IEEE 1588-2019 numbering, written by the PTP service -/
def ETH.PTPSTAT.STATE : Fld := ⟨0x40140018, 0, 4⟩
-- ETH.RXFRM (R321)
/-- RO, reset 0x0000_0000, reach W: frames received -/
def ETH.RXFRM.COUNT : Fld := ⟨0x40140080, 0, 32⟩
-- ETH.RXFCS (R321)
/-- RO, reset 0x0000_0000, reach W: frames with a bad FCS -/
def ETH.RXFCS.COUNT : Fld := ⟨0x40140084, 0, 32⟩
-- ETH.RXNOMATCH (R321)
/-- RO, reset 0x0000_0000, reach W: frames matching no stream and no PTP filter -/
def ETH.RXNOMATCH.COUNT : Fld := ⟨0x40140088, 0, 32⟩
-- ETH.RXLONG (R321)
/-- RO, reset 0x0000_0000, reach W: frames over 1522 bytes -/
def ETH.RXLONG.COUNT : Fld := ⟨0x4014008C, 0, 32⟩
-- ETH.PTPDISC (R321)
/-- RO, reset 0x0000_0000, reach W: PTP messages discarded under R146 -/
def ETH.PTPDISC.COUNT : Fld := ⟨0x40140090, 0, 32⟩
-- ETH.CNTCLR (R321)
/-- WO, reset 0, reach —: 1: clear 0x080 to 0x090 and every GAP and BAD -/
def ETH.CNTCLR.CLR : Fld := ⟨0x401400FC, 0, 1⟩
-- ETH.SV_CFG (R321)
/-- RWL, reset 0x4000, reach B: APPID to match -/
def ETH.SV_CFG.APPID (n : Nat) : Fld := ⟨0x40140100 + 0x40 * n, 0, 16⟩
/-- RWL, reset 0x000, reach B: VLAN ID; 0: untagged or priority-tagged -/
def ETH.SV_CFG.VID (n : Nat) : Fld := ⟨0x40140100 + 0x40 * n, 16, 12⟩
/-- RWL, reset 1, reach B: 1: smpSynch must be 2 -/
def ETH.SV_CFG.NEEDSYNC (n : Nat) : Fld := ⟨0x40140100 + 0x40 * n, 28, 1⟩
/-- RWL, reset 0, reach B: 0: 4000, 1: 4800 samples per second -/
def ETH.SV_CFG.RATE (n : Nat) : Fld := ⟨0x40140100 + 0x40 * n, 29, 1⟩
/-- RWL, reset 0, reach B: 1: accept questionable quality -/
def ETH.SV_CFG.QOK (n : Nat) : Fld := ⟨0x40140100 + 0x40 * n, 30, 1⟩
-- ETH.SV_DSTLO (R321)
/-- RWL, reset 0x0000_0000, reach B: destination MAC bytes 0–3 -/
def ETH.SV_DSTLO.MAC (n : Nat) : Fld := ⟨0x40140104 + 0x40 * n, 0, 32⟩
-- ETH.SV_DSTHI (R321)
/-- RWL, reset 0x0000, reach B: bytes 4–5 -/
def ETH.SV_DSTHI.MAC (n : Nat) : Fld := ⟨0x40140108 + 0x40 * n, 0, 16⟩
-- ETH.SV_IDCRC (R321)
/-- RWL, reset 0x0000_0000, reach B: CRC-32 (R82 parameters) of the svID bytes -/
def ETH.SV_IDCRC.CRC (n : Nat) : Fld := ⟨0x4014010C + 0x40 * n, 0, 32⟩
-- ETH.SV_DLY (R321)
/-- RWL, reset 0x01F4, reach B: interpolation delay DLY, µs (R315) -/
def ETH.SV_DLY.US (n : Nat) : Fld := ⟨0x40140110 + 0x40 * n, 0, 16⟩
-- ETH.SV_STAT (R321)
/-- RO, reset 0x0000, reach B: SmpCnt of the latest accepted sample -/
def ETH.SV_STAT.SMPCNT (n : Nat) : Fld := ⟨0x40140114 + 0x40 * n, 0, 13⟩
/-- RO, reset 0b00, reach B: its smpSynch -/
def ETH.SV_STAT.SYNCH (n : Nat) : Fld := ⟨0x40140114 + 0x40 * n, 13, 2⟩
/-- RO, reset 0, reach B: as SVSTAT -/
def ETH.SV_STAT.VALID (n : Nat) : Fld := ⟨0x40140114 + 0x40 * n, 15, 1⟩
-- ETH.SV_GAP (R321)
/-- RO, reset 0x0000_0000, reach W: sample instants without a bracketing pair -/
def ETH.SV_GAP.COUNT (n : Nat) : Fld := ⟨0x40140118 + 0x40 * n, 0, 32⟩
-- ETH.SV_BAD (R321)
/-- RO, reset 0x0000_0000, reach W: frames rejected under R314 -/
def ETH.SV_BAD.COUNT (n : Nat) : Fld := ⟨0x4014011C + 0x40 * n, 0, 32⟩
-- ETH.SV_CH (R321)
/-- RO, reset 0x7FC0_0000, reach B: interpolated channel value, binary32, A or V -/
def ETH.SV_CH.VALUE (n : Nat) (i : Nat) : Fld := ⟨0x40140120 + 0x40 * n + 0x4 * i, 0, 32⟩
-- ETH.FLTSTAT (R321)
/-- W1C, reset 0x000, reach W: sticky: [7:0] SVLOST of stream s, [8] LINKDOWN -/
def ETH.FLTSTAT.STAT : Fld := ⟨0x40140300, 0, 9⟩
-- ETH.FLTLIVE (R321)
/-- RO, reset 0x000, reach B: present condition, bits as FLTSTAT -/
def ETH.FLTLIVE.LIVE : Fld := ⟨0x40140304, 0, 9⟩
-- ETH.FLTIEN (R321)
/-- RW, reset 0x000, reach B: interrupt enables -/
def ETH.FLTIEN.IEN : Fld := ⟨0x40140308, 0, 9⟩
-- ETH.REACT0 (R321)
/-- RWL, reset 0x0000_0000, reach B: SVLOST of stream s at bits [4s+3:4s], encoded as Fault Detection and Reactions gives -/
def ETH.REACT0.SEL : Fld := ⟨0x4014030C, 0, 32⟩
-- ETH.REACT1 (R321)
/-- RWL, reset 0x0, reach B: LINKDOWN -/
def ETH.REACT1.SEL : Fld := ⟨0x40140310, 0, 4⟩
-- GEO.CFG (R352)
/-- RW, reset 0b01, reach B: R324 -/
def GEO.CFG.BASE : Fld := ⟨0x40100000, 0, 2⟩
/-- RW, reset 0x01, reach B: m − 1 for TICKM, 1 to 255 -/
def GEO.CFG.MM1 : Fld := ⟨0x40100000, 2, 8⟩
/-- RW, reset 0, reach B: 1: continuous mode (R342) -/
def GEO.CFG.CONT : Fld := ⟨0x40100000, 10, 1⟩
/-- RW, reset 0b00, reach B: 0b00 none, 0b01 measure, 0b10 mask -/
def GEO.CFG.PROC : Fld := ⟨0x40100000, 11, 2⟩
/-- RW, reset 0b000, reach B: NREC = 2^NRECLOG, 0 to 6 -/
def GEO.CFG.NRECLOG : Fld := ⟨0x40100000, 13, 3⟩
/-- RW, reset 0, reach B: 1: arm after canvas load and each reset of reach B or wider -/
def GEO.CFG.AUTOARM : Fld := ⟨0x40100000, 16, 1⟩
/-- RW, reset 1, reach B: 1: stop on mask violation (R345) -/
def GEO.CFG.STOPFAIL : Fld := ⟨0x40100000, 17, 1⟩
-- GEO.CMD (R352)
/-- WO, reset 0, reach —: R331 -/
def GEO.CMD.ARM : Fld := ⟨0x40100004, 0, 1⟩
/-- WO, reset 0, reach —: R335 -/
def GEO.CMD.STOP : Fld := ⟨0x40100004, 1, 1⟩
/-- WO, reset 0, reach —: software trigger -/
def GEO.CMD.TRIG : Fld := ⟨0x40100004, 2, 1⟩
/-- WO, reset 0, reach —: originate a Mark (R341) -/
def GEO.CMD.MARK : Fld := ⟨0x40100004, 3, 1⟩
/-- WO, reset 0, reach —: R343 -/
def GEO.CMD.FREE : Fld := ⟨0x40100004, 4, 1⟩
-- GEO.STAT (R352)
/-- RO, reset 0b000, reach B: 0 IDLE, 1 PREFILL, 2 ARMED, 3 POST, 4 STOPPED, 5 STALLED -/
def GEO.STAT.STATE : Fld := ⟨0x40100008, 0, 3⟩
/-- W1C, reset 0, reach B: sticky: R334 -/
def GEO.STAT.POSTCLAMP : Fld := ⟨0x40100008, 3, 1⟩
/-- RO, reset 0x00, reach B: slot in use, or latest slot -/
def GEO.STAT.SLOT : Fld := ⟨0x40100008, 4, 6⟩
/-- RO, reset 0, reach B: processing a record -/
def GEO.STAT.PROCBUSY : Fld := ⟨0x40100008, 10, 1⟩
-- GEO.CH (R352)
/-- RW, reset 0x00, reach B: source (R326) -/
def GEO.CH.SRC (n : Nat) : Fld := ⟨0x40100040 + 0x4 * n, 0, 8⟩
/-- RW, reset 0x00, reach B: argument -/
def GEO.CH.ARG (n : Nat) : Fld := ⟨0x40100040 + 0x4 * n, 8, 8⟩
-- GEO.STR_CFG (R352)
/-- RW, reset 1 for m = 0, else 0, reach B: stream enabled -/
def GEO.STR_CFG.EN (n : Nat) : Fld := ⟨0x40100080 + 0x20 * n, 0, 1⟩
/-- RW, reset 16 for m = 0, else 0, reach B: sixteenths of the slot (R330) -/
def GEO.STR_CFG.SHARE (n : Nat) : Fld := ⟨0x40100080 + 0x20 * n, 1, 5⟩
-- GEO.STR_DEC (R352)
/-- RW, reset 1, 25, 250, 25 000 for m = 0 to 3, reach B: D; RO and 1 for RAW -/
def GEO.STR_DEC.D (n : Nat) : Fld := ⟨0x40100084 + 0x20 * n, 0, 32⟩
-- GEO.STR_PRE (R352)
/-- RW, reset 0x0000_0000, reach B: pre-trigger rows -/
def GEO.STR_PRE.PRE (n : Nat) : Fld := ⟨0x40100088 + 0x20 * n, 0, 32⟩
-- GEO.STR_POST (R352)
/-- RW, reset 0x0000_0400, reach B: post-trigger rows; all-ones: all (R334) -/
def GEO.STR_POST.POST (n : Nat) : Fld := ⟨0x4010008C + 0x20 * n, 0, 32⟩
-- GEO.STR_DEPTH (R352)
/-- RO, reset 0x0000_0000, reach B: depth at arming -/
def GEO.STR_DEPTH.ROWS (n : Nat) : Fld := ⟨0x40100090 + 0x20 * n, 0, 32⟩
-- GEO.STR_POSTUSED (R352)
/-- RO, reset 0x0000_0000, reach B: post-trigger count in use -/
def GEO.STR_POSTUSED.ROWS (n : Nat) : Fld := ⟨0x40100094 + 0x20 * n, 0, 32⟩
-- GEO.STR_ROWB (R352)
/-- RO, reset 0x0000, reach B: row size -/
def GEO.STR_ROWB.BYTES (n : Nat) : Fld := ⟨0x40100098 + 0x20 * n, 0, 16⟩
-- GEO.TRG_CFG (R352)
/-- RW, reset 0, reach B: unit enabled -/
def GEO.TRG_CFG.EN (n : Nat) : Fld := ⟨0x40100100 + 0x20 * n, 0, 1⟩
/-- RW, reset 0x0, reach B: R336 -/
def GEO.TRG_CFG.TYPE (n : Nat) : Fld := ⟨0x40100100 + 0x20 * n, 1, 4⟩
/-- RW, reset 0x0, reach B: channel index -/
def GEO.TRG_CFG.CH (n : Nat) : Fld := ⟨0x40100100 + 0x20 * n, 5, 4⟩
/-- RW, reset 0, reach B: R336 -/
def GEO.TRG_CFG.POL (n : Nat) : Fld := ⟨0x40100100 + 0x20 * n, 9, 1⟩
/-- RW, reset 0, reach B: hub, central: originate a Mark (R341) -/
def GEO.TRG_CFG.MARKOUT (n : Nat) : Fld := ⟨0x40100100 + 0x20 * n, 10, 1⟩
-- GEO.TRG_A (R352)
/-- RW, reset 0x0000_0000, reach B: binary32 -/
def GEO.TRG_A.A (n : Nat) : Fld := ⟨0x40100104 + 0x20 * n, 0, 32⟩
-- GEO.TRG_B (R352)
/-- RW, reset 0x0000_0000, reach B: binary32 -/
def GEO.TRG_B.B (n : Nat) : Fld := ⟨0x40100108 + 0x20 * n, 0, 32⟩
-- GEO.TRG_EVT (R352)
/-- RW, reset 0x0000, reach B: lane, fault or bit mask (R336, R337) -/
def GEO.TRG_EVT.MASK (n : Nat) : Fld := ⟨0x4010010C + 0x20 * n, 0, 16⟩
/-- RW, reset 0x0, reach B: frame event code -/
def GEO.TRG_EVT.CODE (n : Nat) : Fld := ⟨0x4010010C + 0x20 * n, 16, 4⟩
-- GEO.TRG_FIRES (R352)
/-- RO, reset 0x0000_0000, reach W: conditions met in any state -/
def GEO.TRG_FIRES.COUNT (n : Nat) : Fld := ⟨0x40100110 + 0x20 * n, 0, 32⟩
-- GEO.MARKCLASS (R352)
/-- RW, reset 0xFFFF, reach B: classes accepted (R339) -/
def GEO.MARKCLASS.MASK : Fld := ⟨0x40100200, 0, 16⟩
-- GEO.MARKOUT (R352)
/-- RW, reset 0x0001, reach B: CLASS of originated Marks -/
def GEO.MARKOUT.CLASS : Fld := ⟨0x40100204, 0, 16⟩
-- GEO.MARKLEAD (R352)
/-- RW, reset 0x0000_0000, reach B: signed short counts for CMD.MARK -/
def GEO.MARKLEAD.LEAD : Fld := ⟨0x40100208, 0, 32⟩
-- GEO.MARKSEQ (R352)
/-- RO, reset 0x0000_0000, reach W: MARKID of the latest originated Mark -/
def GEO.MARKSEQ.ID : Fld := ⟨0x4010020C, 0, 32⟩
-- GEO.LASTMARK (R352)
/-- RO, reset 0x0000_0000, reach W: MARKID of the latest accepted Mark -/
def GEO.LASTMARK.ID : Fld := ⟨0x40100210, 0, 32⟩
-- GEO.LASTORIG (R352)
/-- RO, reset 0x0000, reach W: its ORIGIN -/
def GEO.LASTORIG.ORIGIN : Fld := ⟨0x40100214, 0, 16⟩
-- GEO.MEASCFG (R352)
/-- RW, reset 0x0000, reach B: channel of measurement n at [4n+3:4n] -/
def GEO.MEASCFG.CHAN : Fld := ⟨0x40100300, 0, 16⟩
/-- RW, reset 0x0, reach B: bit n enables measurement n -/
def GEO.MEASCFG.EN : Fld := ⟨0x40100300, 16, 4⟩
-- GEO.MEASLVL (R352)
/-- RW, reset 0x0000_0000, reach B: crossing level, binary32 -/
def GEO.MEASLVL.LVL (n : Nat) : Fld := ⟨0x40100310 + 0x4 * n, 0, 32⟩
-- GEO.MEASHYS (R352)
/-- RW, reset 0x0000_0000, reach B: hysteresis, binary32 -/
def GEO.MEASHYS.HYS (n : Nat) : Fld := ⟨0x40100320 + 0x4 * n, 0, 32⟩
-- GEO.MEAS (R352)
/-- RO, reset 0x0000_0000, reach B: result i at 0x340 + 0x20·n + 4·i, in the order of R346 -/
def GEO.MEAS.VALUE (n : Nat) (i : Nat) : Fld := ⟨0x40100340 + 0x20 * n + 0x4 * i, 0, 32⟩
-- GEO.MASKCFG (R352)
/-- RW, reset 0x0, reach B: channel of mask A -/
def GEO.MASKCFG.CHA : Fld := ⟨0x40100400, 0, 4⟩
/-- RW, reset 0x0, reach B: channel of mask B -/
def GEO.MASKCFG.CHB : Fld := ⟨0x40100400, 4, 4⟩
/-- RW, reset 0, reach B: mask A enabled -/
def GEO.MASKCFG.ENA : Fld := ⟨0x40100400, 8, 1⟩
/-- RW, reset 0, reach B: mask B enabled -/
def GEO.MASKCFG.ENB : Fld := ⟨0x40100400, 9, 1⟩
-- GEO.MASKRES (R352)
/-- RO, reset 0, reach B: latest processed record violated -/
def GEO.MASKRES.FAIL : Fld := ⟨0x40100404, 0, 1⟩
/-- RO, reset 0, reach B: 0 A, 1 B -/
def GEO.MASKRES.CH : Fld := ⟨0x40100404, 1, 1⟩
-- GEO.MASKROW (R352)
/-- RO, reset 0x0000_0000, reach B: signed offset of the violating row -/
def GEO.MASKROW.ROW : Fld := ⟨0x40100408, 0, 32⟩
-- GEO.MASKSEG (R352)
/-- RW, reset see meaning, reach B: mask c, segment j at 0x440 + 0xC0·c + 0xC·j: START (reset 0x7FFF_FFFF), LO (0xFF80_0000), HI (0x7F80_0000) -/
def GEO.MASKSEG.WORD (n : Nat) (i : Nat) (j : Nat) : Fld := ⟨0x40100440 + 0xC0 * n + 0xC * i + 0x4 * j, 0, 32⟩
-- GEO.RECHOLD_LO (R352)
/-- RW, reset 0x0000_0000, reach C: bit i: slot i held -/
def GEO.RECHOLD_LO.HOLD : Fld := ⟨0x40100600, 0, 32⟩
-- GEO.RECHOLD_HI (R352)
/-- RW, reset 0x0000_0000, reach C: slots 32 to 63 -/
def GEO.RECHOLD_HI.HOLD : Fld := ⟨0x40100604, 0, 32⟩
-- GEO.RECDONE_LO (R352)
/-- RO, reset 0x0000_0000, reach C: bit i: slot i DONE, TRUNC or DAMAGED -/
def GEO.RECDONE_LO.DONE : Fld := ⟨0x40100608, 0, 32⟩
-- GEO.RECDONE_HI (R352)
/-- RO, reset 0x0000_0000, reach C: slots 32 to 63 -/
def GEO.RECDONE_HI.DONE : Fld := ⟨0x4010060C, 0, 32⟩
-- GEO.RECLOCK_LO (R352)
/-- RO, reset 0x0000_0000, reach B: bit i: slot i locked (R349) -/
def GEO.RECLOCK_LO.LOCK : Fld := ⟨0x40100610, 0, 32⟩
-- GEO.RECLOCK_HI (R352)
/-- RO, reset 0x0000_0000, reach B: slots 32 to 63 -/
def GEO.RECLOCK_HI.LOCK : Fld := ⟨0x40100614, 0, 32⟩
-- GEO.LASTREC (R352)
/-- RO, reset 0x00, reach C: slot of the latest completed record -/
def GEO.LASTREC.SLOT : Fld := ⟨0x40100618, 0, 6⟩
-- GEO.RECNUM (R352)
/-- RO, reset 0x0000_0000, reach C: RECNUM of that record -/
def GEO.RECNUM.NUM : Fld := ⟨0x4010061C, 0, 32⟩
-- GEO.RECORDS (R352)
/-- RO, reset 0x0000_0000, reach W: records completed -/
def GEO.RECORDS.COUNT : Fld := ⟨0x40100680, 0, 32⟩
-- GEO.EARLYTRIG (R352)
/-- RO, reset 0x0000_0000, reach W: R333 -/
def GEO.EARLYTRIG.COUNT : Fld := ⟨0x40100684, 0, 32⟩
-- GEO.MARKRX (R352)
/-- RO, reset 0x0000_0000, reach W: R339 -/
def GEO.MARKRX.COUNT : Fld := ⟨0x40100688, 0, 32⟩
-- GEO.MARKIGN (R352)
/-- RO, reset 0x0000_0000, reach W: R339, R351 -/
def GEO.MARKIGN.COUNT : Fld := ⟨0x4010068C, 0, 32⟩
-- GEO.MARKRANGE (R352)
/-- RO, reset 0x0000_0000, reach W: R340 -/
def GEO.MARKRANGE.COUNT : Fld := ⟨0x40100690, 0, 32⟩
-- GEO.OVERWRITE (R352)
/-- RO, reset 0x0000_0000, reach W: R342 -/
def GEO.OVERWRITE.COUNT : Fld := ⟨0x40100694, 0, 32⟩
-- GEO.STALLS (R352)
/-- RO, reset 0x0000_0000, reach W: R342 -/
def GEO.STALLS.COUNT : Fld := ⟨0x40100698, 0, 32⟩
-- GEO.CFGBUSY (R352)
/-- RO, reset 0x0000_0000, reach W: R332 -/
def GEO.CFGBUSY.COUNT : Fld := ⟨0x4010069C, 0, 32⟩
-- GEO.CNTCLR (R352)
/-- WO, reset 0, reach —: 1: clear 0x680 to 0x69C and every FIRES -/
def GEO.CNTCLR.CLR : Fld := ⟨0x401006FC, 0, 1⟩
-- GEO.FLTSTAT (R352)
/-- W1C, reset 0x00, reach W: sticky: [0] MASKFAIL, [1] MARKLATE, [2] STALL, [3] CFGERR, [4] DAMAGED, [5] EARLYTRIG -/
def GEO.FLTSTAT.STAT : Fld := ⟨0x40100700, 0, 6⟩
-- GEO.FLTLIVE (R352)
/-- RO, reset 0x00, reach B: present condition, bits as FLTSTAT -/
def GEO.FLTLIVE.LIVE : Fld := ⟨0x40100704, 0, 6⟩
-- GEO.FLTIEN (R352)
/-- RW, reset 0x00, reach B: interrupt enables -/
def GEO.FLTIEN.IEN : Fld := ⟨0x40100708, 0, 6⟩
-- GEO.REACT (R352)
/-- RWL, reset 0x00_0000, reach B: 4 bits per source in FLTSTAT order, encoded as Fault Detection and Reactions gives; 0x0 interrupt -/
def GEO.REACT.SEL : Fld := ⟨0x4010070C, 0, 24⟩
-- RED.CFG (R379)
/-- RWL, reset 0x3, reach B: heartbeat ticks missed on both paths before a declaration, 1 to 15 (R361) -/
def RED.CFG.K : Fld := ⟨0x40110000, 0, 4⟩
/-- RWL, reset 0x4, reach B: consecutive mismatches before the standby rejoins (R359) -/
def RED.CFG.DIGRUN : Fld := ⟨0x40110000, 4, 4⟩
/-- RWL, reset 1, reach B: 1: request a transfer on entering JOINING (R374) -/
def RED.CFG.AUTOJOIN : Fld := ⟨0x40110000, 8, 1⟩
/-- RWL, reset 0x0100, reach B: wait for a partner, units of 256 ticks (R357) -/
def RED.CFG.FORMWAIT : Fld := ⟨0x40110000, 16, 16⟩
-- RED.STAT (R379)
/-- RO, reset 0b000, reach B: R353 -/
def RED.STAT.STATE : Fld := ⟨0x40110004, 0, 3⟩
/-- RO, reset strap PAIRSEN, reach C: seniority in use (R355) -/
def RED.STAT.SENIOR : Fld := ⟨0x40110004, 3, 1⟩
/-- RO, reset 0, reach B: path X carried the latest heartbeat -/
def RED.STAT.XHB : Fld := ⟨0x40110004, 4, 1⟩
/-- RO, reset 0, reach B: path P carried the latest heartbeat -/
def RED.STAT.PHB : Fld := ⟨0x40110004, 5, 1⟩
/-- RO, reset 0, reach B: partner's latest heartbeat has ACTIVE = 1 -/
def RED.STAT.PSERVE : Fld := ⟨0x40110004, 6, 1⟩
/-- RO, reset 0, reach B: partner is PRIMARY, from its pair-hello -/
def RED.STAT.PPRIMARY : Fld := ⟨0x40110004, 7, 1⟩
/-- RO, reset 0x00, reach B: consecutive ticks missed on both paths -/
def RED.STAT.HBMISS : Fld := ⟨0x40110004, 8, 8⟩
/-- RO, reset 0x0, reach B: consecutive digest mismatches -/
def RED.STAT.DIGCNT : Fld := ⟨0x40110004, 16, 4⟩
-- RED.EPOCH (R379)
/-- RO, reset 0x0000, reach B: own epoch -/
def RED.EPOCH.OWN : Fld := ⟨0x40110008, 0, 16⟩
/-- RO, reset 0x0000, reach B: last epoch received from the partner -/
def RED.EPOCH.PARTNER : Fld := ⟨0x40110008, 16, 16⟩
-- RED.SEEN (R379)
/-- RO, reset 0x0000, reach B: count S at the latest t_O (R365) -/
def RED.SEEN.OWN : Fld := ⟨0x4011000C, 0, 16⟩
/-- RO, reset 0x0000, reach B: SEEN of the partner's latest cross-link Order -/
def RED.SEEN.PARTNER : Fld := ⟨0x4011000C, 16, 16⟩
-- RED.SEENTOT (R379)
/-- RWL, reset 0x0000, reach B: T of R365 -/
def RED.SEENTOT.T : Fld := ⟨0x40110010, 0, 16⟩
-- RED.REFCFG (R379)
/-- RWL, reset 0x08, reach B: R307, 1 to 64 -/
def RED.REFCFG.REFBLOCK : Fld := ⟨0x40110014, 0, 7⟩
-- RED.REFSTAT (R379)
/-- RO, reset 0x00, reach B: consecutive missed references -/
def RED.REFSTAT.RUN : Fld := ⟨0x40110018, 0, 7⟩
-- RED.DIGOWN_LO (R379)
/-- RO, reset 0x0000_0000, reach B: own digest of the latest tick, bits [31:0] -/
def RED.DIGOWN_LO.DIGEST : Fld := ⟨0x40110020, 0, 32⟩
-- RED.DIGOWN_HI (R379)
/-- RO, reset 0x0000_0000, reach B: bits [63:32] -/
def RED.DIGOWN_HI.DIGEST : Fld := ⟨0x40110024, 0, 32⟩
-- RED.DIGPART_LO (R379)
/-- RO, reset 0x0000_0000, reach B: partner's digest of that tick, bits [31:0] -/
def RED.DIGPART_LO.DIGEST : Fld := ⟨0x40110028, 0, 32⟩
-- RED.DIGPART_HI (R379)
/-- RO, reset 0x0000_0000, reach B: bits [63:32] -/
def RED.DIGPART_HI.DIGEST : Fld := ⟨0x4011002C, 0, 32⟩
-- RED.CMD (R379)
/-- WO, reset 0, reach —: 1: request a state transfer (R374, R376) -/
def RED.CMD.JOIN : Fld := ⟨0x40110030, 0, 1⟩
/-- WO, reset 0, reach —: central: 1 ends the withheld references of a pair formed in Run (R357) -/
def RED.CMD.RELEASE : Fld := ⟨0x40110030, 1, 1⟩
-- RED.YIELD (R379)
/-- RW, reset 0x0000, reach B: tick (modulo 65 536) of the yield -/
def RED.YIELD.SEQ : Fld := ⟨0x40110034, 0, 16⟩
/-- WO, reset 0, reach —: 1: arm (R369) -/
def RED.YIELD.ARM : Fld := ⟨0x40110034, 16, 1⟩
/-- RO, reset 0, reach B: armed -/
def RED.YIELD.ARMED : Fld := ⟨0x40110034, 17, 1⟩
/-- W1C, reset 0, reach B: yield refused -/
def RED.YIELD.LATE : Fld := ⟨0x40110034, 18, 1⟩
-- RED.JOINSTAT (R379)
/-- RO, reset 0x00, reach B: next context of item 2 (R375) -/
def RED.JOINSTAT.CTX : Fld := ⟨0x40110038, 0, 7⟩
/-- RO, reset 0, reach B: items 3 and 4 complete -/
def RED.JOINSTAT.SCRDONE : Fld := ⟨0x40110038, 7, 1⟩
/-- RO, reset 0, reach B: counting matches (R376) -/
def RED.JOINSTAT.COMPARE : Fld := ⟨0x40110038, 8, 1⟩
/-- RO, reset 0x00, reach B: consecutive matches -/
def RED.JOINSTAT.MATCH : Fld := ⟨0x40110038, 16, 8⟩
/-- RO, reset 0b000, reach B: transfers without admission -/
def RED.JOINSTAT.TRIES : Fld := ⟨0x40110038, 24, 3⟩
-- RED.TAKEOVERS (R379)
/-- RO, reset 0x0000_0000, reach W: entries into PRIMARY by the count rule or a yield -/
def RED.TAKEOVERS.COUNT : Fld := ⟨0x40110080, 0, 32⟩
-- RED.XMISS (R379)
/-- RO, reset 0x0000_0000, reach W: ticks in which only path X missed -/
def RED.XMISS.COUNT : Fld := ⟨0x40110084, 0, 32⟩
-- RED.PMISS (R379)
/-- RO, reset 0x0000_0000, reach W: ticks in which only path P missed -/
def RED.PMISS.COUNT : Fld := ⟨0x40110088, 0, 32⟩
-- RED.DIGMISCNT (R379)
/-- RO, reset 0x0000_0000, reach W: digest mismatches -/
def RED.DIGMISCNT.COUNT : Fld := ⟨0x4011008C, 0, 32⟩
-- RED.REFMISS (R379)
/-- RO, reset 0x0000_0000, reach W: missed references (R307) -/
def RED.REFMISS.COUNT : Fld := ⟨0x40110090, 0, 32⟩
-- RED.JOINS (R379)
/-- RO, reset 0x0000_0000, reach W: admissions to STANDBY -/
def RED.JOINS.COUNT : Fld := ⟨0x40110094, 0, 32⟩
-- RED.REPLAYED (R379)
/-- RO, reset 0x0000_0000, reach W: R372 -/
def RED.REPLAYED.COUNT : Fld := ⟨0x40110098, 0, 32⟩
-- RED.YIELDS (R379)
/-- RO, reset 0x0000_0000, reach W: yields completed -/
def RED.YIELDS.COUNT : Fld := ⟨0x4011009C, 0, 32⟩
-- RED.CNTCLR (R379)
/-- WO, reset 0, reach —: 1: clear 0x080 to 0x09C -/
def RED.CNTCLR.CLR : Fld := ⟨0x401100FC, 0, 1⟩
-- RED.FLTSTAT (R379)
/-- W1C, reset 0x000, reach W: sticky: [0] XPATH, [1] PPATH, [2] PARTNERFAIL, [3] DIGMIS, [4] DIVERGED, [5] TAGERR, [6] SENERR, [7] NOPRIMARY, [8] EPOCHSAT, [9] REFLOSS -/
def RED.FLTSTAT.STAT : Fld := ⟨0x40110100, 0, 10⟩
-- RED.FLTLIVE (R379)
/-- RO, reset 0x000, reach B: present condition, bits as FLTSTAT -/
def RED.FLTLIVE.LIVE : Fld := ⟨0x40110104, 0, 10⟩
-- RED.FLTIEN (R379)
/-- RW, reset 0x000, reach B: interrupt enables, bits as FLTSTAT -/
def RED.FLTIEN.IEN : Fld := ⟨0x40110108, 0, 10⟩
-- RED.REACT0 (R379)
/-- RWL, reset 0x0000_0000, reach B: sources 0 to 7, 4 bits each in FLTSTAT order, encoded as Fault Detection and Reactions gives; 0x0 interrupt -/
def RED.REACT0.SEL : Fld := ⟨0x4011010C, 0, 32⟩
-- RED.REACT1 (R379)
/-- RWL, reset 0x00, reach B: sources 8 and 9 -/
def RED.REACT1.SEL : Fld := ⟨0x40110110, 0, 8⟩
-- CLK.CTRL (R401)
/-- RWL, reset 1, reach B: 1: automatic switch to ALTLIST (R386) -/
def CLK.CTRL.AUTOSW : Fld := ⟨0x40010000, 0, 1⟩
-- CLK.STAT (R401)
/-- RO, reset lane of CLKM, reach C: reference lane -/
def CLK.STAT.REF : Fld := ⟨0x40010004, 0, 4⟩
/-- RO, reset 0, reach C: root locked to REF -/
def CLK.STAT.LOCKED : Fld := ⟨0x40010004, 4, 1⟩
/-- RO, reset 0, reach C: R384 -/
def CLK.STAT.HOLDOVER : Fld := ⟨0x40010004, 5, 1⟩
/-- RO, reset 0, reach C: CLKSAFE live (R389) -/
def CLK.STAT.SAFE : Fld := ⟨0x40010004, 6, 1⟩
/-- RO, reset 0, reach C: reference set by the ring clock service (R387) -/
def CLK.STAT.REVERSED : Fld := ⟨0x40010004, 7, 1⟩
/-- RO, reset strap, reach C: CLKM[1:0] -/
def CLK.STAT.CLKM : Fld := ⟨0x40010004, 8, 2⟩
/-- RO, reset strap, reach C: LOCKDLY[1:0] -/
def CLK.STAT.LOCKDLY : Fld := ⟨0x40010004, 10, 2⟩
-- CLK.SRCSEL (R401)
/-- RWA, reset 0x0, reach C: lane to switch to -/
def CLK.SRCSEL.LANE : Fld := ⟨0x40010008, 0, 4⟩
/-- WO, reset 0, reach —: 1: switch (R385) -/
def CLK.SRCSEL.GO : Fld := ⟨0x40010008, 4, 1⟩
-- CLK.ALTLIST (R401)
/-- RWL, reset 0xFFFF, reach B: ALT0 at [3:0] to ALT3 at [15:12]; 0xF: none -/
def CLK.ALTLIST.ALT : Fld := ⟨0x4001000C, 0, 16⟩
-- CLK.DIV (R401)
/-- RWL, reset 0x02, reach W: R381 -/
def CLK.DIV.SCDIV : Fld := ⟨0x40010010, 0, 8⟩
/-- RWL, reset 0x04, reach W: R381 -/
def CLK.DIV.BUSDIV : Fld := ⟨0x40010010, 8, 8⟩
/-- RWL, reset 0x0C, reach W: R381 -/
def CLK.DIV.PERDIV : Fld := ⟨0x40010010, 16, 8⟩
-- CLK.GATE (R401)
/-- RWA, reset 0x7F_FFFF, reach W: bit per block; 1: clock runs (R392) -/
def CLK.GATE.RUN : Fld := ⟨0x40010014, 0, 23⟩
-- CLK.HOLDTIME (R401)
/-- RO, reset 0x0000_0000, reach C: latest holdover, µs; saturates -/
def CLK.HOLDTIME.US : Fld := ⟨0x40010018, 0, 32⟩
-- CLK.FMCFG (R401)
/-- RW, reset 0x00, reach B: measured source (R391) -/
def CLK.FMCFG.MEAS : Fld := ⟨0x40010020, 0, 5⟩
/-- RW, reset 0x10, reach B: reference source -/
def CLK.FMCFG.REF : Fld := ⟨0x40010020, 8, 5⟩
/-- WO, reset 0, reach —: 1: start -/
def CLK.FMCFG.START : Fld := ⟨0x40010020, 16, 1⟩
/-- RO, reset 0, reach B: counting -/
def CLK.FMCFG.BUSY : Fld := ⟨0x40010020, 17, 1⟩
/-- W1C, reset 0, reach B: result ready -/
def CLK.FMCFG.DONE : Fld := ⟨0x40010020, 18, 1⟩
-- CLK.FMGATE (R401)
/-- RW, reset 0x000F_4240, reach B: REF edges per measurement (1 000 000) -/
def CLK.FMGATE.CYCLES : Fld := ⟨0x40010024, 0, 32⟩
-- CLK.FMCOUNT (R401)
/-- RO, reset 0x0000_0000, reach B: MEAS edges counted -/
def CLK.FMCOUNT.COUNT : Fld := ⟨0x40010028, 0, 32⟩
-- CLK.SWITCHES (R401)
/-- RO, reset 0x0000_0000, reach W: completed switches -/
def CLK.SWITCHES.COUNT : Fld := ⟨0x40010080, 0, 32⟩
-- CLK.HOLDOVERS (R401)
/-- RO, reset 0x0000_0000, reach W: entries into holdover -/
def CLK.HOLDOVERS.COUNT : Fld := ⟨0x40010084, 0, 32⟩
-- CLK.SAFEENTRY (R401)
/-- RO, reset 0x0000_0000, reach W: R389 -/
def CLK.SAFEENTRY.COUNT : Fld := ⟨0x40010088, 0, 32⟩
-- CLK.ABORTS (R401)
/-- RO, reset 0x0000_0000, reach W: R392 -/
def CLK.ABORTS.COUNT : Fld := ⟨0x4001008C, 0, 32⟩
-- CLK.REFUSALS (R401)
/-- RO, reset 0x0000_0000, reach W: refused switches -/
def CLK.REFUSALS.COUNT : Fld := ⟨0x40010090, 0, 32⟩
-- CLK.CNTCLR (R401)
/-- WO, reset 0, reach —: 1: clear 0x080 to 0x090 -/
def CLK.CNTCLR.CLR : Fld := ⟨0x400100FC, 0, 1⟩
-- CLK.FLTSTAT (R401)
/-- W1C, reset 0x00, reach W: sticky: [0] REFLOSS, [1] CLKSAFE, [2] SWREFUSED, [3] CLKABORT, [4] FMOVF -/
def CLK.FLTSTAT.STAT : Fld := ⟨0x40010100, 0, 5⟩
-- CLK.FLTLIVE (R401)
/-- RO, reset 0x00, reach B: present condition, bits as FLTSTAT -/
def CLK.FLTLIVE.LIVE : Fld := ⟨0x40010104, 0, 5⟩
-- CLK.FLTIEN (R401)
/-- RW, reset 0x00, reach B: interrupt enables -/
def CLK.FLTIEN.IEN : Fld := ⟨0x40010108, 0, 5⟩
-- CLK.REACT (R401)
/-- RWL, reset 0x0_0000, reach B: 4 bits per source in FLTSTAT order, encoded as Fault Detection and Reactions gives; the CLKSAFE nibble is reserved (R259) -/
def CLK.REACT.SEL : Fld := ⟨0x4001010C, 0, 20⟩
-- PWR.CMD (R402)
/-- RWA, reset 0x0000, reach W: tick (modulo 65 536) of the transition (R397) -/
def PWR.CMD.SEQ : Fld := ⟨0x40020000, 0, 16⟩
/-- RWA, reset 0b01, reach W: 0b00 Run, 0b01 Idle, 0b10 Bivouac, 0b11 Struck -/
def PWR.CMD.TARGET : Fld := ⟨0x40020000, 16, 2⟩
/-- WO, reset 0, reach —: 1: arm -/
def PWR.CMD.ARM : Fld := ⟨0x40020000, 18, 1⟩
/-- RO, reset 0, reach W: armed -/
def PWR.CMD.ARMED : Fld := ⟨0x40020000, 19, 1⟩
/-- W1C, reset 0, reach W: arming refused: tick too near -/
def PWR.CMD.LATE : Fld := ⟨0x40020000, 20, 1⟩
-- PWR.STAT (R402)
/-- RO, reset 0b01, reach W: present state, encoded as TARGET -/
def PWR.STAT.STATE : Fld := ⟨0x40020004, 0, 2⟩
/-- RO, reset 0, reach W: transition in progress -/
def PWR.STAT.INTRANS : Fld := ⟨0x40020004, 2, 1⟩
/-- RO, reset 0x0, reach W: code of the latest refusal (R398) -/
def PWR.STAT.REFCODE : Fld := ⟨0x40020004, 3, 4⟩
-- PWR.LASTDUR (R402)
/-- RO, reset 0x0000_0000, reach W: duration of the latest transition, µs -/
def PWR.LASTDUR.US : Fld := ⟨0x40020008, 0, 32⟩
-- PWR.TRANSITIONS (R402)
/-- RO, reset 0x0000_0000, reach W: transitions completed; saturates -/
def PWR.TRANSITIONS.COUNT : Fld := ⟨0x40020080, 0, 32⟩
-- PWR.REFUSED (R402)
/-- RO, reset 0x0000_0000, reach W: transitions refused; saturates -/
def PWR.REFUSED.COUNT : Fld := ⟨0x40020084, 0, 32⟩
-- PWR.CNTCLR (R402)
/-- WO, reset 0, reach —: 1: clear 0x080 and 0x084 -/
def PWR.CNTCLR.CLR : Fld := ⟨0x400200FC, 0, 1⟩
-- PWR.FLTSTAT (R402)
/-- W1C, reset 0, reach W: sticky: a transition was refused -/
def PWR.FLTSTAT.REFUSED : Fld := ⟨0x40020100, 0, 1⟩
-- PWR.FLTLIVE (R402)
/-- RO, reset 0, reach W: the latest command was refused -/
def PWR.FLTLIVE.LIVE : Fld := ⟨0x40020104, 0, 1⟩
-- PWR.FLTIEN (R402)
/-- RW, reset 0, reach B: interrupt enable -/
def PWR.FLTIEN.IEN : Fld := ⟨0x40020108, 0, 1⟩
-- PWR.REACT (R402)
/-- RWL, reset 0x0, reach B: encoded as Fault Detection and Reactions gives; 0x0 interrupt -/
def PWR.REACT.SEL : Fld := ⟨0x4002010C, 0, 4⟩
-- RST.CAUSE (R420)
/-- W1C, reset 0x001, reach —: sticky, one bit per source (R403) -/
def RST.CAUSE.CAUSE : Fld := ⟨0x40030000, 0, 10⟩
-- RST.LAST (R420)
/-- RO, reset 0b11, reach —: reach of the latest overlap: 0b01 B, 0b10 W, 0b11 C -/
def RST.LAST.REACH : Fld := ⟨0x40030004, 0, 2⟩
/-- RO, reset 1, reach —: latest overlap included POR -/
def RST.LAST.PORFLAG : Fld := ⟨0x40030004, 2, 1⟩
-- RST.LASTBLK (R420)
/-- RO, reset 0x00_0000, reach —: blocks of the latest block reset -/
def RST.LASTBLK.MASK : Fld := ⟨0x40030008, 0, 23⟩
-- RST.CFG (R420)
/-- RWL, reset 0, reach W: 1: CRIT source enabled (R14) -/
def RST.CFG.CRITEN : Fld := ⟨0x4003000C, 0, 1⟩
/-- RWL, reset 0, reach W: 0 W, 1 C -/
def RST.CFG.CRITREACH : Fld := ⟨0x4003000C, 1, 1⟩
-- RST.SWMASK (R420)
/-- RW, reset 0x00_0000, reach W: blocks for SWCMD reach B -/
def RST.SWMASK.MASK : Fld := ⟨0x40030010, 0, 23⟩
-- RST.SWCMD (R420)
/-- WO, reset 0b00, reach —: 0b01 B, 0b10 W, 0b11 C; 0b00 none -/
def RST.SWCMD.REACH : Fld := ⟨0x40030014, 0, 2⟩
-- RST.STRAPS (R420)
/-- RO, reset strap, reach W: sampled under R412 -/
def RST.STRAPS.BOOT : Fld := ⟨0x40030018, 0, 2⟩
/-- RO, reset strap, reach W:  -/
def RST.STRAPS.CLKM : Fld := ⟨0x40030018, 2, 2⟩
/-- RO, reset strap, reach W:  -/
def RST.STRAPS.LOCKDLY : Fld := ⟨0x40030018, 4, 2⟩
/-- RO, reset strap, reach W:  -/
def RST.STRAPS.PAIRSEN : Fld := ⟨0x40030018, 6, 1⟩
-- RST.PITCH (R420)
/-- RO, reset 0x1, reach W: R415 -/
def RST.PITCH.STAGE : Fld := ⟨0x4003001C, 0, 4⟩
-- RST.RCOUNT (R420)
/-- RO, reset 0x0000_0000, reach —: RCOUNT of the latest accepted link reset -/
def RST.RCOUNT.COUNT : Fld := ⟨0x40030020, 0, 32⟩
-- RST.LASTHELD (R420)
/-- RO, reset 0x0000_0000, reach —: nRESET low time of the latest pin reset, ms; saturates -/
def RST.LASTHELD.MS : Fld := ⟨0x40030024, 0, 32⟩
-- RST.PINCNT (R420)
/-- RO, reset 0x0000_0000, reach —: accepted nRESET assertions -/
def RST.PINCNT.COUNT : Fld := ⟨0x40030080, 0, 32⟩
-- RST.LINKCNT (R420)
/-- RO, reset 0x0000_0000, reach —: accepted link reset commands -/
def RST.LINKCNT.COUNT : Fld := ⟨0x40030084, 0, 32⟩
-- RST.LINKREJ (R420)
/-- RO, reset 0x0000_0000, reach —: rejected link reset commands -/
def RST.LINKREJ.COUNT : Fld := ⟨0x40030088, 0, 32⟩
-- RST.CRITCNT (R420)
/-- RO, reset 0x0000_0000, reach —: CRIT resets -/
def RST.CRITCNT.COUNT : Fld := ⟨0x4003008C, 0, 32⟩
-- RST.PAIRCNT (R420)
/-- RO, reset 0x0000_0000, reach —: PAIRMIS resets -/
def RST.PAIRCNT.COUNT : Fld := ⟨0x40030090, 0, 32⟩
-- RST.BLKCNT (R420)
/-- RO, reset 0x0000_0000, reach —: block resets -/
def RST.BLKCNT.COUNT : Fld := ⟨0x40030094, 0, 32⟩
-- RST.CNTCLR (R420)
/-- WO, reset 0, reach —: 1: clear 0x080 to 0x094 -/
def RST.CNTCLR.CLR : Fld := ⟨0x400300FC, 0, 1⟩
-- RST.FLTSTAT (R420)
/-- W1C, reset 0b000, reach —: sticky: [0] LINKREJ, [1] STRAPCHG, [2] LONGHOLD -/
def RST.FLTSTAT.STAT : Fld := ⟨0x40030100, 0, 3⟩
-- RST.FLTLIVE (R420)
/-- RO, reset 0b000, reach —: present condition, bits as FLTSTAT -/
def RST.FLTLIVE.LIVE : Fld := ⟨0x40030104, 0, 3⟩
-- RST.FLTIEN (R420)
/-- RW, reset 0b000, reach W: interrupt enables -/
def RST.FLTIEN.IEN : Fld := ⟨0x40030108, 0, 3⟩
-- RST.REACT (R420)
/-- RWL, reset 0x000, reach W: 4 bits per source in FLTSTAT order, encoded as Fault Detection and Reactions gives; 0x0 interrupt -/
def RST.REACT.SEL : Fld := ⟨0x4003010C, 0, 12⟩
-- SYS.MEMCFG (R442)
/-- RWL, reset 1, reach W: 1: SRAM scrubbers run (R432) -/
def SYS.MEMCFG.SCRUBEN : Fld := ⟨0x40000100, 0, 1⟩
/-- RWL, reset 1, reach W: 1: engine memory scrub -/
def SYS.MEMCFG.ENGSCRUB : Fld := ⟨0x40000100, 1, 1⟩
/-- RWL, reset 0x0200, reach W: bus cycles per scrubbed word -/
def SYS.MEMCFG.INTERVAL : Fld := ⟨0x40000100, 16, 16⟩
-- SYS.CETHRESH (R442)
/-- RWL, reset 0x0000_0010, reach W: CE per pass before CEHIGH -/
def SYS.CETHRESH.CE : Fld := ⟨0x40000104, 0, 32⟩
-- SYS.ECC_ADDR (R442)
/-- RO, reset 0x0000_0000, reach W: address of the latest error; engine memory: word index -/
def SYS.ECC_ADDR.ADDR (n : Nat) : Fld := ⟨0x40000110 + 0x10 * n, 0, 32⟩
-- SYS.ECC_INFO (R442)
/-- RO, reset 0x00, reach W: syndrome -/
def SYS.ECC_INFO.SYN (n : Nat) : Fld := ⟨0x40000114 + 0x10 * n, 0, 8⟩
/-- RO, reset 0, reach W: 1: uncorrectable -/
def SYS.ECC_INFO.UE (n : Nat) : Fld := ⟨0x40000114 + 0x10 * n, 8, 1⟩
/-- RO, reset 0, reach W: 1: injected (R437) -/
def SYS.ECC_INFO.INJ (n : Nat) : Fld := ⟨0x40000114 + 0x10 * n, 9, 1⟩
/-- RO, reset 0b00, reach W: 0b00 core or remote, 0b01 scrubber, 0b10 hardware reader -/
def SYS.ECC_INFO.AGENT (n : Nat) : Fld := ⟨0x40000114 + 0x10 * n, 10, 2⟩
/-- RO, reset 0b00, reach W: set 2: engine -/
def SYS.ECC_INFO.ENGINE (n : Nat) : Fld := ⟨0x40000114 + 0x10 * n, 12, 2⟩
-- SYS.ECC_CECNT (R442)
/-- RO, reset 0x0000_0000, reach W: corrected errors -/
def SYS.ECC_CECNT.COUNT (n : Nat) : Fld := ⟨0x40000118 + 0x10 * n, 0, 32⟩
-- SYS.ECC_UECNT (R442)
/-- RO, reset 0x0000_0000, reach W: uncorrectable errors -/
def SYS.ECC_UECNT.COUNT (n : Nat) : Fld := ⟨0x4000011C + 0x10 * n, 0, 32⟩
-- SYS.SCRUBPASS (R442)
/-- RO, reset 0x0000, reach W: completed passes, wraps -/
def SYS.SCRUBPASS.SYSRAM : Fld := ⟨0x40000140, 0, 16⟩
/-- RO, reset 0x0000, reach W: completed passes, wraps -/
def SYS.SCRUBPASS.CAPRAM : Fld := ⟨0x40000140, 16, 16⟩
-- SYS.PARADDR (R442)
/-- RO, reset 0x0000_0000, reach W: local address of the latest parity error -/
def SYS.PARADDR.ADDR : Fld := ⟨0x40000150, 0, 32⟩
-- SYS.PARCNT (R442)
/-- RO, reset 0x0000_0000, reach W: parity errors -/
def SYS.PARCNT.COUNT : Fld := ⟨0x40000154, 0, 32⟩
-- SYS.LNKFLT (R442)
/-- W1C, reset 0x0000, reach W: sticky, bit per lane (R435) -/
def SYS.LNKFLT.LANE : Fld := ⟨0x40000160, 0, 16⟩
-- SYS.LNKLIVE (R442)
/-- RO, reset 0x0000, reach B: enabled lane DOWN -/
def SYS.LNKLIVE.LANE : Fld := ⟨0x40000164, 0, 16⟩
-- SYS.INJCTL (R442)
/-- RWA, reset 0x0, reach W: R436 -/
def SYS.INJCTL.TARGET : Fld := ⟨0x40000170, 0, 4⟩
/-- RWA, reset 0, reach W: 1: two check bits -/
def SYS.INJCTL.DOUBLE : Fld := ⟨0x40000170, 4, 1⟩
/-- RWA, reset 0x0, reach W: lane for TARGET 0x7 -/
def SYS.INJCTL.LANE : Fld := ⟨0x40000170, 8, 4⟩
/-- WO, reset 0, reach —: 1: arm -/
def SYS.INJCTL.ARM : Fld := ⟨0x40000170, 12, 1⟩
/-- RO, reset 0, reach W: injection armed -/
def SYS.INJCTL.ARMED : Fld := ⟨0x40000170, 13, 1⟩
/-- W1C, reset 0, reach W: arming refused -/
def SYS.INJCTL.DENIED : Fld := ⟨0x40000170, 14, 1⟩
-- SYS.INJADDR (R442)
/-- RWA, reset 0x0000_0000, reach W: target address -/
def SYS.INJADDR.ADDR : Fld := ⟨0x40000174, 0, 32⟩
-- SYS.INJSTAT (R442)
/-- W1C, reset 0, reach W: an injected error was detected -/
def SYS.INJSTAT.INJHIT : Fld := ⟨0x40000178, 0, 1⟩
/-- W1C, reset 0, reach W: a real error coincided (R437) -/
def SYS.INJSTAT.INJ_MASKED : Fld := ⟨0x40000178, 1, 1⟩
-- SYS.INJCNT (R442)
/-- RO, reset 0x0000_0000, reach W: injected errors detected -/
def SYS.INJCNT.COUNT : Fld := ⟨0x4000017C, 0, 32⟩
-- SYS.RSTSRC (R442)
/-- RO, reset 0x00, reach C: block of the latest fault-driven reset (R429) -/
def SYS.RSTSRC.BLOCK : Fld := ⟨0x40000180, 0, 5⟩
/-- RO, reset 0x00, reach C: index of its source (R429) -/
def SYS.RSTSRC.SOURCE : Fld := ⟨0x40000180, 8, 5⟩
/-- RO, reset 0, reach C: record present -/
def SYS.RSTSRC.VALID : Fld := ⟨0x40000180, 16, 1⟩
-- SYS.CNTCLR (R442)
/-- WO, reset 0, reach —: 1: clear every ECCn count, PARCNT and INJCNT -/
def SYS.CNTCLR.CLR : Fld := ⟨0x400001FC, 0, 1⟩
-- SYS.FLTSTAT (R442)
/-- W1C, reset 0x00, reach W: sticky: [0] CE, [1] UE, [2] CEHIGH, [3] PARITY, [4] CRITUE, [5] LINK -/
def SYS.FLTSTAT.STAT : Fld := ⟨0x40000200, 0, 6⟩
-- SYS.FLTLIVE (R442)
/-- RO, reset 0x00, reach B: present condition, bits as FLTSTAT -/
def SYS.FLTLIVE.LIVE : Fld := ⟨0x40000204, 0, 6⟩
-- SYS.FLTIEN (R442)
/-- RW, reset 0x00, reach B: interrupt enables -/
def SYS.FLTIEN.IEN : Fld := ⟨0x40000208, 0, 6⟩
-- SYS.REACT (R442)
/-- RWL, reset 0x00_0000, reach B: 4 bits per source in FLTSTAT order (R425) -/
def SYS.REACT.SEL : Fld := ⟨0x4000020C, 0, 24⟩
-- FUSE.WORD (R467)
/-- RO, reset fuse value, reach —: word w (R443, R444); words 0x30–0x37 read 0 -/
def FUSE.WORD.VALUE (n : Nat) : Fld := ⟨0x40040000 + 0x4 * n, 0, 32⟩
-- FUSE.PROGADDR (R467)
/-- RWA, reset 0x00, reach W: word to program -/
def FUSE.PROGADDR.WORD : Fld := ⟨0x40040400, 0, 7⟩
-- FUSE.PROGDATA (R467)
/-- RWA, reset 0x0000_0000, reach W: bits to blow -/
def FUSE.PROGDATA.MASK : Fld := ⟨0x40040404, 0, 32⟩
-- FUSE.PROGCMD (R467)
/-- WO, reset 0, reach —: 1: program (R445) -/
def FUSE.PROGCMD.GO : Fld := ⟨0x40040408, 0, 1⟩
/-- RO, reset 0, reach W: programming -/
def FUSE.PROGCMD.BUSY : Fld := ⟨0x40040408, 1, 1⟩
/-- W1C, reset 0, reach W: programmed and read back -/
def FUSE.PROGCMD.DONE : Fld := ⟨0x40040408, 2, 1⟩
/-- W1C, reset 0, reach W: refused -/
def FUSE.PROGCMD.DENIED : Fld := ⟨0x40040408, 3, 1⟩
/-- RO, reset 0, reach W: VFUSE in band -/
def FUSE.PROGCMD.VFUSEOK : Fld := ⟨0x40040408, 4, 1⟩
-- FUSE.MISMATCH (R467)
/-- RO, reset see meaning, reach —: bit j of register i: word 32i + j mismatched at POR -/
def FUSE.MISMATCH.WORDS (n : Nat) : Fld := ⟨0x40040410 + 0x4 * n, 0, 32⟩
-- FUSE.PROGCNT (R467)
/-- RO, reset 0x0000_0000, reach W: programming commands completed; saturates -/
def FUSE.PROGCNT.COUNT : Fld := ⟨0x40040480, 0, 32⟩
-- FUSE.FLTSTAT (R467)
/-- W1C, reset 0b00, reach W: sticky: [0] READERR, [1] PROGFAIL -/
def FUSE.FLTSTAT.STAT : Fld := ⟨0x40040500, 0, 2⟩
-- FUSE.FLTLIVE (R467)
/-- RO, reset 0b00, reach B: present condition -/
def FUSE.FLTLIVE.LIVE : Fld := ⟨0x40040504, 0, 2⟩
-- FUSE.FLTIEN (R467)
/-- RW, reset 0b00, reach B: interrupt enables -/
def FUSE.FLTIEN.IEN : Fld := ⟨0x40040508, 0, 2⟩
-- FUSE.REACT (R467)
/-- RWL, reset 0x00, reach B: 4 bits per source (R425) -/
def FUSE.REACT.SEL : Fld := ⟨0x4004050C, 0, 8⟩
-- SEC.BOOTSTAT (R468)
/-- RO, reset 0b00, reach W: 0b00 FA, 0b01 FB, 0b10 push, 0b11 SRAM copy -/
def SEC.BOOTSTAT.FWSRC : Fld := ⟨0x40050000, 0, 2⟩
/-- RO, reset 0, reach W: vendor firmware valid -/
def SEC.BOOTSTAT.FWOK : Fld := ⟨0x40050000, 2, 1⟩
/-- RO, reset 0x00, reach W: code of the latest firmware failure (R448) -/
def SEC.BOOTSTAT.FWERR : Fld := ⟨0x40050000, 3, 8⟩
/-- RO, reset 0b00, reach W: KEYIDX of the active canvas -/
def SEC.BOOTSTAT.CNVKEY : Fld := ⟨0x40050000, 11, 2⟩
/-- RO, reset 0b00, reach W: KEYIDX of the vendor firmware -/
def SEC.BOOTSTAT.FWKEY : Fld := ⟨0x40050000, 13, 2⟩
-- SEC.STAT (R468)
/-- RO, reset 0, reach —: reset key held -/
def SEC.STAT.RSTKEY : Fld := ⟨0x40050004, 0, 1⟩
/-- RO, reset 0, reach —: group key held -/
def SEC.STAT.GRPKEY : Fld := ⟨0x40050004, 1, 1⟩
/-- RO, reset 0, reach W: health tests passing -/
def SEC.STAT.RNGOK : Fld := ⟨0x40050004, 2, 1⟩
/-- RO, reset 0, reach W: OPEN refused (R453) -/
def SEC.STAT.BACKOFF : Fld := ⟨0x40050004, 3, 1⟩
/-- RO, reset 0x0, reach W: sessions open -/
def SEC.STAT.OPEN : Fld := ⟨0x40050004, 4, 4⟩
-- SEC.FWID (R468)
/-- RO, reset 0x0000_0000, reach W: IMAGE_ID of the vendor firmware -/
def SEC.FWID.ID : Fld := ⟨0x40050008, 0, 32⟩
-- SEC.FWSECVER (R468)
/-- RO, reset 0x0000_0000, reach W: its SECVER -/
def SEC.FWSECVER.SECVER : Fld := ⟨0x4005000C, 0, 32⟩
-- SEC.FWHASH (R468)
/-- RO, reset 0x0000_0000, reach C: SHA-256 of the vendor firmware, compared under R449; FWHASH0 holds bytes 0–3 -/
def SEC.FWHASH.HASH (n : Nat) : Fld := ⟨0x40050020 + 0x4 * n, 0, 32⟩
-- SEC.IDPUB (R468)
/-- RO, reset computed, reach —: identity public key, X in IDPUB0–7, Y in IDPUB8–15 -/
def SEC.IDPUB.KEY (n : Nat) : Fld := ⟨0x40050040 + 0x4 * n, 0, 32⟩
-- SEC.SESS_STAT (R468)
/-- RO, reset 0, reach W: session open -/
def SEC.SESS_STAT.OPEN (n : Nat) : Fld := ⟨0x40050100 + 0x10 * n, 0, 1⟩
/-- RO, reset 0b00, reach W: operator key -/
def SEC.SESS_STAT.OPIDX (n : Nat) : Fld := ⟨0x40050100 + 0x10 * n, 1, 2⟩
/-- RO, reset 0x00, reach W: lane of OPEN -/
def SEC.SESS_STAT.LANE (n : Nat) : Fld := ⟨0x40050100 + 0x10 * n, 3, 5⟩
/-- RO, reset 0x00, reach W: permissions -/
def SEC.SESS_STAT.PERM (n : Nat) : Fld := ⟨0x40050100 + 0x10 * n, 8, 8⟩
-- SEC.SESS_CTRIN (R468)
/-- RO, reset 0x0000_0000, reach W: last accepted CTR towards the device -/
def SEC.SESS_CTRIN.CTR (n : Nat) : Fld := ⟨0x40050104 + 0x10 * n, 0, 32⟩
-- SEC.SESS_CTROUT (R468)
/-- RO, reset 0x0000_0000, reach W: last CTR sent -/
def SEC.SESS_CTROUT.CTR (n : Nat) : Fld := ⟨0x40050108 + 0x10 * n, 0, 32⟩
-- SEC.SIGFAILS (R468)
/-- RO, reset 0x0000_0000, reach W: failed signature checks -/
def SEC.SIGFAILS.COUNT : Fld := ⟨0x40050180, 0, 32⟩
-- SEC.SESSFAILS (R468)
/-- RO, reset 0x0000_0000, reach W: failed session attempts -/
def SEC.SESSFAILS.COUNT : Fld := ⟨0x40050184, 0, 32⟩
-- SEC.HMACFAILS (R468)
/-- RO, reset 0x0000_0000, reach W: bad tags and replays -/
def SEC.HMACFAILS.COUNT : Fld := ⟨0x40050188, 0, 32⟩
-- SEC.KEYREJ (R468)
/-- RO, reset 0x0000_0000, reach W: refused key installs (R458) -/
def SEC.KEYREJ.COUNT : Fld := ⟨0x4005018C, 0, 32⟩
-- SEC.CNTCLR (R468)
/-- WO, reset 0, reach —: 1: clear 0x180 to 0x18C -/
def SEC.CNTCLR.CLR : Fld := ⟨0x400501FC, 0, 1⟩
-- SEC.FLTSTAT (R468)
/-- W1C, reset 0x00, reach W: sticky: [0] SIGFAIL, [1] KEYREVOKED, [2] SESSFAIL, [3] HMACFAIL, [4] RNGFAIL -/
def SEC.FLTSTAT.STAT : Fld := ⟨0x40050200, 0, 5⟩
-- SEC.FLTLIVE (R468)
/-- RO, reset 0x00, reach B: present condition -/
def SEC.FLTLIVE.LIVE : Fld := ⟨0x40050204, 0, 5⟩
-- SEC.FLTIEN (R468)
/-- RW, reset 0x00, reach B: interrupt enables -/
def SEC.FLTIEN.IEN : Fld := ⟨0x40050208, 0, 5⟩
-- SEC.REACT (R468)
/-- RWL, reset 0x0_0000, reach B: 4 bits per source (R425) -/
def SEC.REACT.SEL : Fld := ⟨0x4005020C, 0, 20⟩
-- LOG.CTRL (R469)
/-- RWL, reset 0, reach C: 1: vendor firmware drains to flash (R462) -/
def LOG.CTRL.FLASHEN : Fld := ⟨0x40060000, 0, 1⟩
-- LOG.STAT (R469)
/-- RO, reset 0x00, reach C: entries queued -/
def LOG.STAT.QUEUE : Fld := ⟨0x40060004, 0, 5⟩
-- LOG.WRSEQ_LO (R469)
/-- RO, reset 0x0000_0000, reach C: entries written, bits [31:0] -/
def LOG.WRSEQ_LO.SEQ : Fld := ⟨0x40060008, 0, 32⟩
-- LOG.WRSEQ_HI (R469)
/-- RO, reset 0x0000_0000, reach C: bits [63:32] -/
def LOG.WRSEQ_HI.SEQ : Fld := ⟨0x4006000C, 0, 32⟩
-- LOG.RDSEQ_LO (R469)
/-- RO, reset 0x0000_0000, reach C: oldest unread entry, bits [31:0] -/
def LOG.RDSEQ_LO.SEQ : Fld := ⟨0x40060010, 0, 32⟩
-- LOG.RDSEQ_HI (R469)
/-- RO, reset 0x0000_0000, reach C: bits [63:32] -/
def LOG.RDSEQ_HI.SEQ : Fld := ⟨0x40060014, 0, 32⟩
-- LOG.LOST (R469)
/-- RO, reset 0x0000_0000, reach C: unread entries overwritten; saturates -/
def LOG.LOST.COUNT : Fld := ⟨0x40060018, 0, 32⟩
-- LOG.RUNLOST (R469)
/-- RO, reset 0x0000_0000, reach C: lost since the latest drain; saturates -/
def LOG.RUNLOST.COUNT : Fld := ⟨0x4006001C, 0, 32⟩
-- LOG.HEAD (R469)
/-- RO, reset 0x0000_0000, reach C: SHA-256 of the latest entry -/
def LOG.HEAD.HASH (n : Nat) : Fld := ⟨0x40060020 + 0x4 * n, 0, 32⟩
-- LOG.APPADDR (R469)
/-- RW, reset 0x0000_0000, reach C: customer note ADDR (R464) -/
def LOG.APPADDR.ADDR : Fld := ⟨0x40060040, 0, 32⟩
-- LOG.APPOLD (R469)
/-- RW, reset 0x0000_0000, reach C: OLD -/
def LOG.APPOLD.OLD : Fld := ⟨0x40060044, 0, 32⟩
-- LOG.APPNEW (R469)
/-- RW, reset 0x0000_0000, reach C: NEW -/
def LOG.APPNEW.NEW : Fld := ⟨0x40060048, 0, 32⟩
-- LOG.APPCMD (R469)
/-- WO, reset 0x00, reach —: 0x40–0x7E -/
def LOG.APPCMD.TYPE : Fld := ⟨0x4006004C, 0, 7⟩
/-- WO, reset 0, reach —: 1: append -/
def LOG.APPCMD.GO : Fld := ⟨0x4006004C, 7, 1⟩
-- LOG.ACKSEQ_LO (R469)
/-- RW, reset 0x0000_0000, reach C: new RDSEQ; written low first (R395), committed at ACKSEQ_HI -/
def LOG.ACKSEQ_LO.SEQ : Fld := ⟨0x40060050, 0, 32⟩
-- LOG.ACKSEQ_HI (R469)
/-- RW, reset 0x0000_0000, reach C: bits [63:32]; write commits (R462) -/
def LOG.ACKSEQ_HI.SEQ : Fld := ⟨0x40060054, 0, 32⟩
-- LOG.FLASHBASE (R469)
/-- RWL, reset 0x0021_0000, reach C: flash offset of the drain ring -/
def LOG.FLASHBASE.ADDR : Fld := ⟨0x40060100, 0, 32⟩
-- LOG.FLASHSIZE (R469)
/-- RWL, reset 0x0010_0000, reach C: size of the drain ring -/
def LOG.FLASHSIZE.BYTES : Fld := ⟨0x40060104, 0, 32⟩
-- LOG.FLTSTAT (R469)
/-- W1C, reset 0b000, reach W: sticky: [0] OVERRUN, [1] CHAINERR, [2] DRAINERR -/
def LOG.FLTSTAT.STAT : Fld := ⟨0x40060200, 0, 3⟩
-- LOG.FLTLIVE (R469)
/-- RO, reset 0b000, reach B: [0] RUNLOST not 0; [1], [2] latest evaluation -/
def LOG.FLTLIVE.LIVE : Fld := ⟨0x40060204, 0, 3⟩
-- LOG.FLTIEN (R469)
/-- RW, reset 0b000, reach B: interrupt enables -/
def LOG.FLTIEN.IEN : Fld := ⟨0x40060208, 0, 3⟩
-- LOG.REACT (R469)
/-- RWL, reset 0x000, reach B: 4 bits per source (R425) -/
def LOG.REACT.SEL : Fld := ⟨0x4006020C, 0, 12⟩
-- MGT.CTRL (R490)
/-- RWL, reset 0x0100, reach B: reply wait, ticks (R477) -/
def MGT.CTRL.TIMEOUT : Fld := ⟨0x40120000, 0, 16⟩
/-- RWL, reset 0x3, reach B: retries -/
def MGT.CTRL.RETRIES : Fld := ⟨0x40120000, 16, 4⟩
-- MGT.STAT (R490)
/-- RO, reset 0x80, reach B: free contexts -/
def MGT.STAT.CTXFREE : Fld := ⟨0x40120004, 0, 8⟩
/-- RO, reset 0x100, reach C: free or acknowledged entries -/
def MGT.STAT.JFREE : Fld := ⟨0x40120004, 8, 9⟩
/-- RO, reset 0, reach W: canvas push open -/
def MGT.STAT.PUSHOPEN : Fld := ⟨0x40120004, 17, 1⟩
/-- RO, reset 0, reach W: firmware push open -/
def MGT.STAT.FWOPEN : Fld := ⟨0x40120004, 18, 1⟩
/-- RO, reset 0, reach W: flash write running -/
def MGT.STAT.FLASHBUSY : Fld := ⟨0x40120004, 19, 1⟩
-- MGT.FWSTAGELEN (R490)
/-- RO, reset 0x0000_0000, reach W: firmware push bytes -/
def MGT.FWSTAGELEN.BYTES : Fld := ⟨0x40120008, 0, 32⟩
-- MGT.FWSTAT (R490)
/-- RO, reset 0x00, reach W: first failed check (R448) -/
def MGT.FWSTAT.ERR : Fld := ⟨0x4012000C, 0, 8⟩
/-- RO, reset 0, reach W: verified image staged -/
def MGT.FWSTAT.STAGED : Fld := ⟨0x4012000C, 8, 1⟩
/-- RO, reset 0, reach W: KIND of the staged image -/
def MGT.FWSTAT.KIND : Fld := ⟨0x4012000C, 9, 1⟩
-- MGT.FLASHSTAT (R490)
/-- RO, reset 0x00, reach W: 0x00 OK, 0x07 write or verify failed -/
def MGT.FLASHSTAT.RESULT : Fld := ⟨0x40120010, 0, 8⟩
/-- RO, reset 0, reach W: slot written -/
def MGT.FLASHSTAT.SLOT : Fld := ⟨0x40120010, 8, 1⟩
/-- RO, reset 0, reach W: 0 canvas, 1 firmware -/
def MGT.FLASHSTAT.AREA : Fld := ⟨0x40120010, 9, 1⟩
-- MGT.JNEXT (R490)
/-- RO, reset 0x00, reach C: next journal entry -/
def MGT.JNEXT.INDEX : Fld := ⟨0x40120014, 0, 8⟩
-- MGT.TWSEQ (R490)
/-- RW, reset 0x0000, reach B: tick (modulo 65 536) of the local timed write (R473) -/
def MGT.TWSEQ.SEQ : Fld := ⟨0x40120020, 0, 16⟩
/-- WO, reset 0, reach —: 1: arm one timed write from TWSEQ, TWADDR, TWVAL and TWMASK -/
def MGT.TWSEQ.ARM : Fld := ⟨0x40120020, 16, 1⟩
/-- RO, reset 0x00, reach W: timed writes pending, 0 to 16 -/
def MGT.TWSEQ.PEND : Fld := ⟨0x40120020, 17, 5⟩
/-- W1C, reset 0, reach W: arming refused: tick too near, or time not aligned -/
def MGT.TWSEQ.LATE : Fld := ⟨0x40120020, 22, 1⟩
/-- W1C, reset 0, reach W: arming refused: 16 writes pending -/
def MGT.TWSEQ.FULL : Fld := ⟨0x40120020, 23, 1⟩
-- MGT.TWADDR (R490)
/-- RW, reset 0x0000_0000, reach B: local address of the timed write -/
def MGT.TWADDR.ADDR : Fld := ⟨0x40120024, 0, 32⟩
-- MGT.TWVAL (R490)
/-- RW, reset 0x0000_0000, reach B: value of the timed write -/
def MGT.TWVAL.VALUE : Fld := ⟨0x40120028, 0, 32⟩
-- MGT.TWMASK (R490)
/-- RW, reset 0xFFFF_FFFF, reach B: bits that the timed write changes -/
def MGT.TWMASK.MASK : Fld := ⟨0x4012002C, 0, 32⟩
-- MGT.RXREQ (R490)
/-- RO, reset 0x0000_0000, reach W: requests accepted -/
def MGT.RXREQ.COUNT : Fld := ⟨0x40120080, 0, 32⟩
-- MGT.DUPANS (R490)
/-- RO, reset 0x0000_0000, reach W: R476 -/
def MGT.DUPANS.COUNT : Fld := ⟨0x40120084, 0, 32⟩
-- MGT.RETRYCNT (R490)
/-- RO, reset 0x0000_0000, reach W: retries sent -/
def MGT.RETRYCNT.COUNT : Fld := ⟨0x40120088, 0, 32⟩
-- MGT.RELAUNCH (R490)
/-- RO, reset 0x0000_0000, reach W: R477 -/
def MGT.RELAUNCH.COUNT : Fld := ⟨0x4012008C, 0, 32⟩
-- MGT.REFUSED (R490)
/-- RO, reset 0x0000_0000, reach W: BUSY, LENERR and DENIED replies -/
def MGT.REFUSED.COUNT : Fld := ⟨0x40120090, 0, 32⟩
-- MGT.CNTCLR (R490)
/-- WO, reset 0, reach —: 1: clear 0x080 to 0x090 -/
def MGT.CNTCLR.CLR : Fld := ⟨0x401200FC, 0, 1⟩
-- MGT.FLTSTAT (R490)
/-- W1C, reset 0x00, reach W: sticky: [0] BUSY, [1] LENERR, [2] AUTHERR, [3] JOURNALFULL, [4] RETRYEXH -/
def MGT.FLTSTAT.STAT : Fld := ⟨0x40120100, 0, 5⟩
-- MGT.FLTLIVE (R490)
/-- RO, reset 0x00, reach B: latest evaluation -/
def MGT.FLTLIVE.LIVE : Fld := ⟨0x40120104, 0, 5⟩
-- MGT.FLTIEN (R490)
/-- RW, reset 0x00, reach B: interrupt enables -/
def MGT.FLTIEN.IEN : Fld := ⟨0x40120108, 0, 5⟩
-- MGT.REACT (R490)
/-- RWL, reset 0x0_0000, reach B: 4 bits per source (R425) -/
def MGT.REACT.SEL : Fld := ⟨0x4012010C, 0, 20⟩
-- SER.CORESTAT (R491)
/-- RO, reset 0x0, reach B: core n executing -/
def SER.CORESTAT.RUN : Fld := ⟨0x40160000, 0, 4⟩
/-- RO, reset 0x0, reach W: vendor CORES -/
def SER.CORESTAT.VENDOR : Fld := ⟨0x40160000, 4, 4⟩
/-- RO, reset 0x0, reach W: core runs a customer image -/
def SER.CORESTAT.CUSTOMER : Fld := ⟨0x40160000, 8, 4⟩
/-- RO, reset 0x0, reach B: halted for debug -/
def SER.CORESTAT.HALTED : Fld := ⟨0x40160000, 12, 4⟩
-- SER.CUSTEN (R491)
/-- RWA, reset 0xF, reach W: 0 holds core n's customer image in reset -/
def SER.CUSTEN.EN : Fld := ⟨0x40160004, 0, 4⟩
-- SER.IRQROUTE0 (R491)
/-- RW, reset 0x0000_0000, reach B: sources 0–15, 2 bits each -/
def SER.IRQROUTE0.CORE : Fld := ⟨0x40160010, 0, 32⟩
-- SER.IRQROUTE1 (R491)
/-- RW, reset 0x0000, reach B: sources 16–23 -/
def SER.IRQROUTE1.CORE : Fld := ⟨0x40160014, 0, 16⟩
-- SER.PEND (R491)
/-- RO, reset 0x00_0000, reach B: sources pending at core n -/
def SER.PEND.SRC (n : Nat) : Fld := ⟨0x40160020 + 0x4 * n, 0, 24⟩
-- SER.SWISET (R491)
/-- WO, reset 0x0, reach —: 1: raise the software interrupt -/
def SER.SWISET.SET : Fld := ⟨0x40160030, 0, 4⟩
-- SER.SWI (R491)
/-- W1C, reset 0x0, reach B: software interrupt pending -/
def SER.SWI.PEND : Fld := ⟨0x40160034, 0, 4⟩
-- SER.NMIVEC (R491)
/-- RW, reset 0x0000_0100, reach W: trap entry (R485) -/
def SER.NMIVEC.ADDR : Fld := ⟨0x40160040, 0, 32⟩
-- SER.IMGID (R491)
/-- RO, reset 0x0000_0000, reach C: IMAGE_ID on core n (R487) -/
def SER.IMGID.ID (n : Nat) : Fld := ⟨0x40160050 + 0x4 * n, 0, 32⟩
-- SER.IMGHASH (R491)
/-- RO, reset 0x0000_0000, reach C: SHA-256 of core n's image, 8 words; compared under R487 -/
def SER.IMGHASH.HASH (n : Nat) (i : Nat) : Fld := ⟨0x40160100 + 0x20 * n + 0x4 * i, 0, 32⟩
-- SER.FLTSTAT (R491)
/-- W1C, reset 0b000, reach W: sticky: [0] EXC (a synchronous exception other than ecall), [1] IMGFAIL, [2] CORELOCK (no instruction retired for 2^20 cycles outside WFI and debug halt) -/
def SER.FLTSTAT.STAT : Fld := ⟨0x40160200, 0, 3⟩
-- SER.FLTLIVE (R491)
/-- RO, reset 0b000, reach B: latest evaluation -/
def SER.FLTLIVE.LIVE : Fld := ⟨0x40160204, 0, 3⟩
-- SER.FLTIEN (R491)
/-- RW, reset 0b000, reach B: interrupt enables -/
def SER.FLTIEN.IEN : Fld := ⟨0x40160208, 0, 3⟩
-- SER.REACT (R491)
/-- RWL, reset 0x000, reach B: 4 bits per source (R425) -/
def SER.REACT.SEL : Fld := ⟨0x4016020C, 0, 12⟩
-- SER.EXCINFO (R491)
/-- RO, reset 0b00, reach W: core of the latest EXC -/
def SER.EXCINFO.CORE : Fld := ⟨0x40160210, 0, 2⟩
/-- RO, reset 0x00, reach W: mcause [7:0] -/
def SER.EXCINFO.CAUSE : Fld := ⟨0x40160210, 8, 8⟩
-- SER.EXCPC (R491)
/-- RO, reset 0x0000_0000, reach W: its mepc -/
def SER.EXCPC.PC : Fld := ⟨0x40160214, 0, 32⟩
-- PIN.BANKCFG (R521)
/-- RWL, reset 0b00, reach B: expected level: 0b00 range only, 0b01 1.8 V, 0b10 3.3 V (R505) -/
def PIN.BANKCFG.VIOA : Fld := ⟨0x40150000, 0, 2⟩
/-- RWL, reset 0b00, reach B: as VIOA -/
def PIN.BANKCFG.VIOB : Fld := ⟨0x40150000, 2, 2⟩
/-- RWL, reset 0, reach B: nERR: 0 push-pull, 1 open-drain (R428) -/
def PIN.BANKCFG.NERROD : Fld := ⟨0x40150000, 4, 1⟩
-- PIN.STAT (R521)
/-- RO, reset detected, reach W: bank A at 3.3 V levels -/
def PIN.STAT.VIOA33 : Fld := ⟨0x40150004, 0, 1⟩
/-- RO, reset 0, reach B: VIOA within range -/
def PIN.STAT.VIOAOK : Fld := ⟨0x40150004, 1, 1⟩
/-- RO, reset detected, reach W: bank B at 3.3 V levels -/
def PIN.STAT.VIOB33 : Fld := ⟨0x40150004, 2, 1⟩
/-- RO, reset 0, reach B: VIOB within range -/
def PIN.STAT.VIOBOK : Fld := ⟨0x40150004, 3, 1⟩
/-- RO, reset 0, reach B: level at the nERR ball -/
def PIN.STAT.NERRPIN : Fld := ⟨0x40150004, 4, 1⟩
/-- RO, reset 0, reach B: nERR ball low while not driven low by this device -/
def PIN.STAT.EXTLOW : Fld := ⟨0x40150004, 5, 1⟩
-- PIN.LOSEN (R521)
/-- RWL, reset 0x0000, reach B: bit n: LOSn acts (R495) -/
def PIN.LOSEN.EN : Fld := ⟨0x40150008, 0, 16⟩
-- PIN.LOSSTAT (R521)
/-- RO, reset 0x0000, reach B: present LOSn level -/
def PIN.LOSSTAT.LEVEL : Fld := ⟨0x4015000C, 0, 16⟩
-- PIN.GPIOIN (R521)
/-- RO, reset 0x00_0000, reach B: ball level of GPIO0–GPIO23 -/
def PIN.GPIOIN.IN : Fld := ⟨0x40150010, 0, 24⟩
-- PIN.GPIOOUT (R521)
/-- RW, reset fuse map, reach W: OUT of PAD0–PAD23 (R496) -/
def PIN.GPIOOUT.OUT : Fld := ⟨0x40150014, 0, 24⟩
-- PIN.GPIOSET (R521)
/-- WO, reset 0, reach —: 1: set OUT -/
def PIN.GPIOSET.SET : Fld := ⟨0x40150018, 0, 24⟩
-- PIN.GPIOCLR (R521)
/-- WO, reset 0, reach —: 1: clear OUT (R497) -/
def PIN.GPIOCLR.CLR : Fld := ⟨0x4015001C, 0, 24⟩
-- PIN.I2CCFG (R521)
/-- RWL, reset 0x0000, reach B: bit n: read lane n's diagnostics (R499) -/
def PIN.I2CCFG.DDMEN : Fld := ⟨0x40150020, 0, 16⟩
/-- RWL, reset 0, reach B: 1: 400 kHz -/
def PIN.I2CCFG.FAST : Fld := ⟨0x40150020, 16, 1⟩
-- PIN.PAD (R521)
/-- RWL, reset 0x0, reach W: R496 -/
def PIN.PAD.FUNC (n : Nat) : Fld := ⟨0x40150100 + 0x4 * n, 0, 4⟩
/-- RWL, reset 0x0, reach W: argument -/
def PIN.PAD.ARG (n : Nat) : Fld := ⟨0x40150100 + 0x4 * n, 4, 4⟩
/-- RWL, reset fuse map, reach W: 1: output when FUNC = 0x0 -/
def PIN.PAD.DIR (n : Nat) : Fld := ⟨0x40150100 + 0x4 * n, 8, 1⟩
/-- RWL, reset 0b01, reach W: 2, 4, 8, 12 mA -/
def PIN.PAD.DRIVE (n : Nat) : Fld := ⟨0x40150100 + 0x4 * n, 9, 2⟩
/-- RWL, reset 0, reach W: 1: reduced slew -/
def PIN.PAD.SLOW (n : Nat) : Fld := ⟨0x40150100 + 0x4 * n, 11, 1⟩
/-- RWL, reset fuse map, reach W: 0b00 none, 0b01 down, 0b10 up -/
def PIN.PAD.PULL (n : Nat) : Fld := ⟨0x40150100 + 0x4 * n, 12, 2⟩
/-- RW, reset fuse map, reach W: output value -/
def PIN.PAD.OUT (n : Nat) : Fld := ⟨0x40150100 + 0x4 * n, 14, 1⟩
-- PIN.FLTSTAT (R521)
/-- W1C, reset 0b00, reach W: sticky: [0] BANKV, [1] NERRRB -/
def PIN.FLTSTAT.STAT : Fld := ⟨0x40150200, 0, 2⟩
-- PIN.FLTLIVE (R521)
/-- RO, reset 0b00, reach B: present condition -/
def PIN.FLTLIVE.LIVE : Fld := ⟨0x40150204, 0, 2⟩
-- PIN.FLTIEN (R521)
/-- RW, reset 0b00, reach B: interrupt enables -/
def PIN.FLTIEN.IEN : Fld := ⟨0x40150208, 0, 2⟩
-- PIN.REACT (R521)
/-- RWL, reset 0x00, reach B: 4 bits per source (R425) -/
def PIN.REACT.SEL : Fld := ⟨0x4015020C, 0, 8⟩
-- PIN.DDM_TV (R521)
/-- RO, reset 0x0000, reach W: signed, 1/256 °C -/
def PIN.DDM_TV.TEMP (n : Nat) : Fld := ⟨0x40150400 + 0x10 * n, 0, 16⟩
/-- RO, reset 0x0000, reach W: 100 µV units -/
def PIN.DDM_TV.VCC (n : Nat) : Fld := ⟨0x40150400 + 0x10 * n, 16, 16⟩
-- PIN.DDM_TX (R521)
/-- RO, reset 0x0000, reach W: 2 µA units -/
def PIN.DDM_TX.BIAS (n : Nat) : Fld := ⟨0x40150404 + 0x10 * n, 0, 16⟩
/-- RO, reset 0x0000, reach W: 0.1 µW units -/
def PIN.DDM_TX.TXPWR (n : Nat) : Fld := ⟨0x40150404 + 0x10 * n, 16, 16⟩
-- PIN.DDM_RX (R521)
/-- RO, reset 0x0000, reach W: 0.1 µW units -/
def PIN.DDM_RX.RXPWR (n : Nat) : Fld := ⟨0x40150408 + 0x10 * n, 0, 16⟩
/-- RO, reset 0, reach W: latest read succeeded -/
def PIN.DDM_RX.VALID (n : Nat) : Fld := ⟨0x40150408 + 0x10 * n, 16, 1⟩
/-- RO, reset 0, reach W: raw values of an externally calibrated module -/
def PIN.DDM_RX.EXTCAL (n : Nat) : Fld := ⟨0x40150408 + 0x10 * n, 17, 1⟩
-- PIN.DDM_TIME (R521)
/-- RO, reset 0x0000_0000, reach W: local seconds [31:0] of the latest read -/
def PIN.DDM_TIME.SEC (n : Nat) : Fld := ⟨0x4015040C + 0x10 * n, 0, 32⟩
-- SYS.PARTID (R526)
/-- RO, reset 0x7316, reach —: part number -/
def SYS.PARTID.PART : Fld := ⟨0x40000000, 0, 16⟩
/-- RO, reset 0x01, reach —: silicon revision -/
def SYS.PARTID.REV : Fld := ⟨0x40000000, 16, 8⟩
-- SYS.DEVADDR (R526)
/-- RO, reset 0x7FFE, reach —: device address held (R26, R27) -/
def SYS.DEVADDR.ADDR : Fld := ⟨0x40000004, 0, 16⟩
/-- RO, reset 0xFF, reach —: position; 0xFF: none -/
def SYS.DEVADDR.POS : Fld := ⟨0x40000004, 16, 8⟩
-- SYS.SENIOR (R526)
/-- RO, reset 0x0000, reach —: senior member of the pair (R363) -/
def SYS.SENIOR.ADDR : Fld := ⟨0x40000008, 0, 16⟩
-- SYS.BUSERRADDR (R526)
/-- RO, reset 0x0000_0000, reach W: local address of the latest bus error -/
def SYS.BUSERRADDR.ADDR : Fld := ⟨0x40000020, 0, 32⟩
-- SYS.BUSERRINFO (R526)
/-- RO, reset 0x0, reach W: origin agent, encoded as in R459 -/
def SYS.BUSERRINFO.AGENT : Fld := ⟨0x40000024, 0, 4⟩
/-- RO, reset 0, reach W: 1: write access -/
def SYS.BUSERRINFO.WRITE : Fld := ⟨0x40000024, 4, 1⟩

end Sys2Proof.Machine
end

