-- ==== Sys2Proof/Machine/Sparse.lean ====
section
/-!
DEFINITION. Machine/Sparse.lean: sparse data by a natural-number key: a list of key and value pairs in one canonical form, keys strictly
rising and no entry equal to what an unlisted key reads as. Register files, memories and tables of contexts all take this form.
-/

namespace Sys2Proof.Machine

/-- Entries by key. -/
abbrev SMap (α : Type) := List (Nat × α)

/-- The value at key `k`; `d` where the key is not listed. -/
def SMap.get {α : Type} (d : α) : SMap α → Nat → α
  | [], _ => d
  | e :: m, k => if e.1 = k then e.2 else SMap.get d m k

/-- Every entry at key `k` taken out. -/
def SMap.erase {α : Type} : SMap α → Nat → SMap α
  | [], _ => []
  | e :: m, k => if e.1 = k then SMap.erase m k else e :: SMap.erase m k

/-- An entry put before the first greater key. -/
def SMap.insert {α : Type} (k : Nat) (v : α) : SMap α → SMap α
  | [] => [(k, v)]
  | e :: m => if k < e.1 then (k, v) :: e :: m else e :: SMap.insert k v m

/-- Key `k` set to `v`; the entry is taken out when `v` is the value `d` of an unlisted key. -/
def SMap.set {α : Type} [DecidableEq α] (d : α) (m : SMap α) (k : Nat) (v : α) : SMap α :=
  if v = d then SMap.erase m k else SMap.insert k v (SMap.erase m k)

/-- Every key of `m` is above `k`. -/
def SMap.above {α : Type} (k : Nat) (m : SMap α) : Bool := m.all (fun e => decide (k < e.1))

/-- The canonical form: keys strictly rising, no entry equal to the default of its key. -/
def SMap.wf {α : Type} [DecidableEq α] (d : Nat → α) : SMap α → Bool
  | [] => true
  | e :: m => SMap.above e.1 m && decide (e.2 ≠ d e.1) && SMap.wf d m

end Sys2Proof.Machine
end

