-- ==== Sys2Proof/Machine/State.lean ====
section
/-!
DEFINITION. Machine/State.lean: the state of the block as plain data. The registers of all 23 windows stand in one sparse register
file (Machine/Regs.lean lists them with their reset values); beside it one structure per block holds what the spec gives that
block and no register shows: memories, queues, latches, measurements in progress, values waiting for an instant. Every default
below is the value after power-on reset. `pending` is the queue of commands, first in, first out.
-/

namespace Sys2Proof.Machine

/-- What the block sends out, newest last. -/
inductive Emit where
  /-- a frame leaves a Guyline lane -/
  | frame (lane : Nat) (f : Frame)
  /-- an IDLE block leaves a Guyline lane (R75) -/
  | idle (lane : Nat) (b : IdleBlock)
  /-- a PTP message leaves L15 (R146): `request` a Pdelay_Req, else a Pdelay_Resp -/
  | ptp (request : Bool) (m : PtpMsg)
  /-- a state-transfer notice leaves the cross-link (R375); the spec gives its items and no layout of its body -/
  | xfer (item : XferItem)
  /-- the answer to a read of a local address, and a bus error (R8, R9) -/
  | data (o : Origin) (addr value : Nat)
  | busError (o : Origin) (addr : Nat)
  /-- what a service call returns to its core in a0 and a1 (R486) -/
  | ecall (core : Nat) (status : Int) (value : Nat)
  deriving DecidableEq, Repr

/-- An Echo measurement of one lane (R114, R115). -/
structure EchoSt where
  active : Bool := false
  /-- started by the first full-rate UP: an abandoned one starts again (R115) -/
  first : Bool := false
  /-- tick of the first request -/
  startTick : Nat := 0
  /-- requests sent in this measurement -/
  requests : Nat := 0
  /-- tick, plus 1, in which the latest request was sent: at most one per tick (R115) -/
  sentTick : Nat := 0
  /-- exchange number and departure stamp of the request in flight -/
  eid : Nat := 0
  t1 : Nat := 0
  /-- a request is in flight -/
  waiting : Bool := false
  /-- completed exchanges, in units of 2⁻¹ × 78.125 ps, signed -/
  results : List Int := []
  deriving DecidableEq, Repr

/-- A frame of priority 3 that waits for its launch (R103): the launches so far (R477), and the cycle of `TimeSt.cycles` in which it came to
wait. -/
structure WaitSt where
  frame : Frame
  launches : Nat
  since : Nat
  deriving DecidableEq, Repr

/-- A protected window of an output (R104): the frame it belongs to (type, ring or trunk ring, direction), when its first block
left last, in 5 ns counts of local time, and its blocks. -/
structure WindowSt where
  /-- frame type -/
  ftype : Nat
  ring : Nat
  dir : Nat
  left : Nat
  blocks : Nat
  deriving DecidableEq, Repr

/-- What a lane holds beside its registers (R74 to R118). -/
structure LaneSt where
  /-- consecutive IDLE blocks with RXOK = 0 (R76) -/
  idleBad : Nat := 0
  /-- BEACON of the last IDLE received (R75) -/
  peerBeacon : Bool := false
  /-- WRAP of the last IDLE received, and its SENDER (R75) -/
  peerWrap : Bool := false
  peerAddr : Nat := 0x7FFE
  /-- cycles of `TimeSt.cycles` in which blocks with an invalid sync header came, newest first (R76) -/
  badHeads : List Nat := []
  /-- a UP at the full rate has happened since power-on (R114) -/
  upFull : Bool := false
  /-- the Echo measurement that this device initiates on the lane -/
  echo : EchoSt := {}
  /-- the output sends a frame, and the 2 IDLE blocks after it, until this cycle of `TimeSt.cycles` (R78) -/
  busyUntil : Nat := 0
  /-- the frame sent last, in progress until the 2 IDLE blocks before `busyUntil`, with its launches so far when it was one of this device's own
  frames, none for a forwarded one (R105, R477) -/
  sending : Option (Frame × Option Nat) := none
  /-- the forward buffer: waiting frames with their cycle of arrival and inbound lane, oldest first (R103) -/
  buffer : List (Frame × Nat × Nat) := []
  /-- frames of priority 3 waiting for their launch (R103, R477) -/
  waiting : List WaitSt := []
  /-- protected windows of the output in the present tick (R104) -/
  windows : List WindowSt := []
  /-- the rate that an armed switch takes at RATEAT (R77) -/
  rateTarget : Nat := 1
  /-- the full number of the tick that UNWRAP names (R112, R529) -/
  unwrapTick : Nat := 0
  /-- tick number at which the lane last came UP (R112) -/
  upTick : Nat := 0
  /-- cycle of `TimeSt.cycles` in which the lane gained the block lock that it holds (R383) -/
  lockAt : Nat := 0
  /-- a LOSn level is acting as loss of signal (R495) -/
  los : Bool := false
  deriving DecidableEq, Repr

/-- The link layer's memory of broadcast copies (R107): kind 0 Mgmt, 1 Mark; originator, identifier, tick of the first copy. -/
structure DupSt where
  /-- 0 Mgmt, 1 Mark -/
  kind : Nat
  src : Nat
  ident : Nat
  tick : Nat
  deriving DecidableEq, Repr

/-- The link layer of the device. -/
structure LinkSt where
  /-- by lane number -/
  lanes : SMap LaneSt := []
  /-- copies of broadcasts seen lately (R107) -/
  dups : List DupSt := []
  /-- lane on which the last frame of each originator arrived (R106) -/
  route : SMap Nat := []
  /-- MSEQ of the next Mgmt frame this device originates (R101) -/
  mseq : Nat := 0
  /-- hub: delays of the links of each ring as reported (R34, R115), at key 128·ring + link: delay + 1 -/
  delays : SMap Nat := []
  /-- role and member as the always-on forwarder keeps them through resets (R117) -/
  role : Nat := 0
  member : Nat := 0
  /-- tick, plus 1, of the latest discovery launched at the A end, and at the B end, that gave a position (R26, R530) -/
  fromA : Nat := 0
  fromB : Nat := 0
  /-- ring or trunk lanes into which this device has launched discovery since its latest reset of reach W or wider (R26, R27), bit per lane -/
  launched : Nat := 0
  deriving DecidableEq, Repr

/-- A canvas or firmware push into a staging area (R478). -/
structure PushSt where
  /-- a push is open -/
  openNow : Bool := false
  /-- TOTAL of the push -/
  total : Nat := 0
  /-- bytes received; the bytes themselves stand in the staging area of system SRAM -/
  len : Nat := 0
  /-- KIND of the image -/
  kind : Nat := 0
  /-- device that opened it -/
  src : Nat := 0
  /-- tick of its latest fragment (R478) -/
  lastTick : Nat := 0
  /-- public key presented for the area by KEYPRES (R446) -/
  key : Option (List Byte) := none
  /-- a completed push is being checked -/
  checking : Bool := false
  /-- the area holds an image that has passed its checks, also after the warm reset that clears STAGED (R60, R479) -/
  good : Bool := false
  deriving DecidableEq, Repr

/-- What the applied canvas gave that no register of the tables shows, and what the device keeps of it for block resets (R54). -/
structure CanvasSt where
  /-- the writes of the applied canvas in order, presets included: address, value, mask -/
  writes : List (Nat × Nat × Nat) := []
  /-- contexts of LOOPS and ROUTING -/
  progs : List LoopProg := []
  /-- SYSTEM: missed-order count (R23), whether the system has a central (R31), PTP domain number (R146) -/
  missed : Nat := 4
  noCentral : Bool := false
  ptpDomain : Nat := 0
  /-- announce receipt timeout in announce intervals, 2 to 10 (R146) -/
  ptpTimeout : Nat := 3
  /-- SYSTEM: the security block of R452 -/
  security : List Byte := []
  /-- RINGS: expected length of each ring, 0 not enabled (R26, R42) -/
  rings : List Nat := []
  /-- RINGS: enabled rings (R110) -/
  ringEn : Nat := 0
  /-- ARMTABLE: arm of each segment, 0xFF none (R29) -/
  arms : List Nat := []
  bipole : Bool := false
  /-- LOOPS: volts per code and nominal capacitance for the segment sums, binary32 (R298) -/
  vpc : Nat := 0
  cNom : Nat := 0
  /-- the canvas staging area -/
  push : PushSt := {}
  deriving DecidableEq, Repr

/-- A clock that announces itself to the PTP service of a central (R146): its data, the interval of its announcements, log2 of seconds, and the
values of `TimeSt.cycles` at its latest two Announce messages. -/
structure ForeignSt where
  master : MasterSt
  interval : Int
  last : Nat
  prev : Option Nat
  deriving DecidableEq, Repr

/-- The PTP service of a central (R146, R147). -/
structure PtpSt where
  /-- the master selected (R146) -/
  master : Option MasterSt := none
  /-- clocks heard, newest first -/
  foreign : List ForeignSt := []
  /-- mean path delay in 2⁻¹⁶ ns, from the peer-delay measurement -/
  delay : Int := 0
  /-- sequence number and departure stamp (2⁻¹⁶ ns) of the last Pdelay_Req -/
  seq : Nat := 0
  t1 : Nat := 0
  /-- a response is awaited -/
  waiting : Bool := false
  deriving DecidableEq, Repr

/-- The local time scale and the two domains (R122 to R141). -/
structure TimeSt where
  /-- local time in 2⁻³² ns: seconds, nanoseconds and fraction as one number (R122) -/
  scale : Nat := 0
  /-- the 5 ns periods that have passed, the model's measure of time (R138) -/
  cycles : Nat := 0
  /-- slew per cycle in 2⁻³² ns (R134) -/
  slew : Int := 0
  /-- INCR_LO as held for the next commit (R129) -/
  incrHeld : Option Nat := none
  /-- full differences of the domains in 2⁻¹⁶ ns (R133); none before the first accepted frame -/
  offA : Option Int := none
  offB : Option Int := none
  /-- TB.HANDOFF in full (R140) -/
  handoff : Int := 0
  /-- value of `cycles` at the last accepted frame of each domain (R138) -/
  lastA : Option Nat := none
  lastB : Option Nat := none
  /-- identifiers (ORIGIN, TICK) of the accepted frames, newest first (R132), and the cycle and lane of the newest -/
  accepted : List (Nat × Nat) := []
  acceptedAt : Nat × Nat := (0, 0)
  /-- a step of R135 that takes effect in the next cycle: the new scale -/
  stepNext : Option Nat := none
  /-- the governing domain has changed in the present cycle, which neither steps nor slews (R140) -/
  switched : Bool := false
  /-- the armed domain switch: full tick number (R139) -/
  switchTick : Nat := 0
  /-- compare units armed on a target already reached, which fire in the next cycle with LATE (R125) -/
  lateFire : List Nat := []
  /-- the PTP service -/
  ptp : PtpSt := {}
  deriving DecidableEq, Repr

/-- What a cell recorded as a Tally passed (R87, R152): an exclusion mark, or bin, class (I = true) and count. -/
structure RecordSt where
  dir : Nat
  tick : Nat
  mark : Bool
  bin : Nat
  cls : Bool
  count : Nat
  deriving DecidableEq, Repr

/-- What a cell does at an apply instant (R163, R164, R167): `missed` holds the full state, `blockAll` enters Blocked. -/
inductive Target where
  | missed
  | blockAll
  | go (neg : Bool)
  | out
  | trim (neg : Bool) (frac : Nat)
  deriving DecidableEq, Repr

/-- The Order of one tick as a cell holds it: the authority of the copy it obeys, that copy's direction, the target it gave, and
MISSRUN as it stood before. -/
structure OrderSt where
  tick : Nat
  epoch : Nat
  src : Nat
  dir : Nat
  target : Target
  runBefore : Nat
  deriving DecidableEq, Repr

/-- What a cell used for the Order of a tick, for SNAPREC (R175). -/
structure UsedSt where
  tick : Nat
  /-- bin and class of its records; none when it held none -/
  own : Option (Nat × Bool)
  c0 : Option Nat
  c1 : Option Nat
  rank : Option Nat
  /-- RMODE byte of the Order: mode and TLAG -/
  mode : Nat
  deriving DecidableEq, Repr

/-- A Tally as a hub member holds it (R96, R110, R171). -/
structure TallySt where
  tick : Nat
  histI : List Nat
  histO : List Nat
  ncell : Nat
  nexcl : Nat
  wrappos : Nat
  stator : Nat
  deriving DecidableEq, Repr

/-- A hub's decision as the next Orders carry it (R160, R162). Lists are by ring, 12 entries. -/
structure DecisionSt where
  tick : Nat := 0
  thresh : Nat := 0
  seed : Nat := 0
  frac : Nat := 0
  quota : List Nat := []
  trim : List Nat := []
  quotaB : List Nat := []
  trimB : List Nat := []
  /-- RMODE[1:0] of each ring -/
  modes : List Nat := []
  /-- ARMCTL.BLOCK as latched at t_D, or not in Run, or Basecamp (R174) -/
  blocked : Bool := true
  deriving DecidableEq, Repr

/-- A hub as the trunk Tally entries show it (R91): the tick of its latest entry, its heartbeat byte and epoch. -/
structure HubSt where
  tick : Nat := 0
  hb : Nat := 0
  epoch : Nat := 0
  deriving DecidableEq, Repr

/-- A ring's contribution to the segment sums (R298): codes, squares of codes, slots. -/
structure SumSt where
  codes : Nat := 0
  squares : Nat := 0
  slots : Nat := 0
  deriving DecidableEq, Repr

/-- Scree: a cell's records and targets, a hub's Tallies and decision. -/
structure ScrSt where
  /-- records of the 3 most recent ticks for each direction (R87) -/
  records : List RecordSt := []
  /-- Orders of the ticks in flight, at most two awaiting their apply instant (R33) -/
  orders : List OrderSt := []
  /-- what the cell used for its latest Orders (R175) -/
  used : List UsedSt := []
  /-- the latest sample instant: its tick, bin, class, STATUS byte without EXCL, whether the cell excludes itself -/
  sampleTick : Nat := 0
  bin : Nat := 0
  clsI : Bool := false
  status : Nat := 0
  excluded : Bool := true
  /-- tick counted last as missed, plus 1 -/
  missTick : Nat := 0
  /-- EXCLUDE or INCLUDE waiting for the next sample instant (R175) -/
  exclNext : Option Bool := none
  /-- tick of the apply instant at which the full state changed last (R165) -/
  changeTick : Option Nat := none
  /-- hub: the latest unwrapped Tally of each ring; own wrapped and partner's wrapped Tallies, at key 2·ring + tick mod 2 (R110 needs the last two) -/
  tallies : SMap (Option TallySt) := []
  wrapped : SMap (Option TallySt) := []
  crossed : SMap (Option TallySt) := []
  /-- hub: rings with a good unwrapped Tally at t_D, with the tick (R110); rings that the table of R110 put in BROKEN at the latest decision (R111) -/
  goodAtD : Nat × Nat := (0, 0)
  tableBroken : Nat := 0
  /-- hub: held[r] and consecutive HOLD decisions of ring r (R159) -/
  held : SMap Nat := []
  holdRun : SMap Nat := []
  /-- hub: the previous current sign is +1 (R156) -/
  signPos : Bool := true
  /-- hub: XIN has been written since the previous decision (R155) -/
  xinFresh : Bool := false
  /-- hub: arm current at the sample instant, binary32 (R88, R296) -/
  iarm : Nat := 0
  /-- IARM of the latest launched Order (R326) -/
  iarmSent : Nat := 0
  /-- hub: VREF of its arm from the latest trunk Order with REFVALID (R300), and whether one has come since the previous decision (R37) -/
  vref : Nat := 0
  vrefFresh : Bool := false
  /-- hub: the trunk Order copy obeyed last: tick, epoch, SRC, DIR (R364) -/
  trunkObeyed : Option (Nat × Nat × Nat × Nat) := none
  /-- VAL0 and VAL1 of each segment at key 2·segment + (0 or 1), and the tick, plus 1, of the Tally that brought them (R300) -/
  segVals : SMap Nat := []
  segTick : SMap Nat := []
  /-- central: the latest tick, plus 1, in which a trunk Tally came back turned round, by trunk lane (R113, R387) -/
  trunkWrap : SMap Nat := []
  /-- hubs seen in trunk Tally entries, at key address − 0x7C00 (R300, R365) -/
  hubs : SMap HubSt := []
  /-- arm leader: share entries computed for a tick (R169), as 32-bit values in segment order of the arm -/
  shares : Nat × List Nat := (0, [])
  /-- central: the trunk Tally held in TENTRY for each ring: tick plus 1, and DIR (R176) -/
  trunkHeld : SMap (Nat × Nat) := []
  /-- hub: NORMAL decisions in a row of each ring, and its contribution to the segment sums (R298) -/
  normalRun : SMap Nat := []
  sums : SMap SumSt := []
  /-- hub: views of the members for a tick (R110): tick and 24-bit VIEWS -/
  ownViews : Nat × Nat := (0, 0xAAAAAA)
  partnerViews : Nat × Nat := (0, 0xAAAAAA)
  /-- the latest decision -/
  decision : DecisionSt := {}
  /-- hub: a share received with the tick at which it takes effect (R38) -/
  shareNext : Option (Nat × Nat) := none
  /-- hub: latest slot entry of each cell, at key 64·ring + position (R85, R66) -/
  cells : SMap Nat := []
  deriving DecidableEq, Repr

/-- An adapting edge whose swing window is open (R186 to R188): index of its dead time, the dead time used, the gate turned on, the step that VSW
is expected to make (R217), the instant of its turn-off, and of its turn-on once it has come. -/
structure EdgeSt where
  idx : Nat
  dt : Nat
  gate : Nat
  step : Int
  off : Nat
  on : Option Nat
  deriving DecidableEq, Repr

/-- The cell's switching (R178 to R209). Instants are in 78.125 ps units of local time. -/
structure PwmSt where
  /-- gate outputs of the block, bit g for gate g + 1, before the analog path of rank 1 -/
  gates : Nat := 0
  /-- the pattern commanded, and the part of it that the state unit gives without force -/
  pattern : Nat := 0
  statePat : Nat := 0
  /-- instant of the latest turn-off of each gate -/
  offAt : SMap Nat := []
  /-- instant of the latest turn-on of each gate -/
  onAt : SMap Nat := []
  /-- turn-ons waiting for their dead time: gate and instant, and whether a test pulse holds it back (R252) -/
  due : List (Nat × Nat × Bool) := []
  /-- PWM has been configured: its outputs follow the state unit (R49, R204) -/
  configured : Bool := false
  /-- the full state, encoded as PWM.STAT.STATE (R164, R183) -/
  full : Nat := 0
  /-- adapting edges with an open swing window -/
  edges : List EdgeSt := []
  /-- words of PERIOD, DUTY, LSTATE and DTFLOOR, and PENDING, before a write in the cycle of an apply instant (R197) -/
  before : Option (Bool × List Nat) := none
  /-- the tick of the latest apply instant, and whether it reloaded (R196) -/
  reloadTick : Option (Nat × Bool) := none
  /-- end of the trim interval in progress -/
  trimEnd : Option Nat := none
  /-- LOCALGRANT or LOCALEND waiting for the next apply instant (R206) -/
  grantNext : Option Nat := none
  grantEnd : Bool := false
  /-- DTRESET, and BYPASS, for the next apply instant (R189, R206) -/
  dtReset : Bool := false
  bypassNext : Bool := false
  /-- the latest obeyed Order was BLOCKALL (R194, R199) -/
  latestBlockAll : Bool := false
  /-- IARM of the latest accepted Order, binary32 (R185) -/
  iarm : Nat := 0
  /-- cores halted for debug: 0 to 3 service cores, 4 and 5 safety pair, 6 to 9 loop engines (R202) -/
  halted : Nat := 0
  /-- Blocked after a halt, safe state or clock loss until the apply instant of an Order accepted later (R202, R203) -/
  waitOrder : Bool := false
  /-- tick of the first Order accepted since, for `waitOrder` -/
  releaseTick : Option Nat := none
  /-- end of the on-interval and of the period of the local generator (R194) -/
  localDuty : Option Nat := none
  localEnd : Option Nat := none
  /-- local mode has ended, and its state lasts until the next apply instant (R195) -/
  localLeft : Bool := false
  /-- tick that ONSNAP names (R207) -/
  snapTick : Nat := 0
  /-- delay line of each gate output (R191), and the output whose line is replaced next -/
  lines : List Nat := [0, 1, 2, 3]
  calTurn : Nat := 0
  /-- the calibrated spare waits for a cycle in which it may replace that line (R192) -/
  swapWait : Bool := false
  /-- gates forced at present, and FORCE.VAL in force (R199) -/
  forced : Nat := 0
  deriving DecidableEq, Repr

/-- One sample instant as the capacitance estimator keeps it (R229 to R231): its tick, the code, the volts (binary32), and whether
something spoiled the tick that ended with it. -/
structure SampleSt where
  tick : Nat
  code : Nat
  volts : Nat
  spoiled : Bool
  /-- Σ σ · time over the tick that ended with it, in 78.125 ps -/
  sigma : Int
  deriving DecidableEq, Repr

/-- The sums of the open window, binary64 (R231). -/
structure WindowSums where
  n : Nat := 0
  sq : Nat := 0
  sqq : Nat := 0
  sv : Nat := 0
  svv : Nat := 0
  sqv : Nat := 0
  deriving DecidableEq, Repr

/-- The converters, the ledger and the capacitance estimator of a cell (R211 to R233). -/
structure SenseSt where
  /-- the conversion of the latest sample instant has come (R212) -/
  sampleDone : Bool := false
  /-- the sample instant at which this device sampled last: its tick -/
  sampleTick : Option Nat := none
  /-- conversions made while no tick events fire (R215) -/
  convs : Nat := 0
  /-- AUX channels whose conversions, started by a compare unit, are running; sum and count of each channel's mean in progress; channels whose latest
  raw code stands at an end of the range (R218, R219), bit per channel -/
  auxLeft : Nat := 0
  auxSum : SMap (Nat × Nat) := []
  auxBad : Nat := 0
  /-- bits of each sigma-delta channel, newest first (R221) -/
  sdm : SMap (List Bool) := []
  /-- IARM of accepted Orders with their ticks, newest first (R230) -/
  iarms : List (Nat × Nat) := []
  /-- samples taken in the present window (R230) -/
  samples : List SampleSt := []
  /-- Σ σ · time since the latest sample instant, the factor now and the instant it took effect, in 78.125 ps (R229) -/
  sigmaSum : Int := 0
  sigmaAt : Nat := 0
  /-- Bypassed, a debug halt, force or the analog path acted since the latest sample instant (R230) -/
  spoiled : Bool := false
  /-- sums of the window in progress (R231) -/
  sums : WindowSums := {}
  /-- tick at which the open window began; none before its first usable tick (R233) -/
  windowTick : Option Nat := none
  /-- a valid estimate has been published since the last reset of reach B or wider (R227) -/
  published : Bool := false
  /-- the latest close of a window: its cycle of `TimeSt.cycles`, what the registers it wrote held, and `published` (R233) -/
  closed : Option (Nat × List (Nat × Word) × Bool) := none
  /-- conversions in a row with ENERGY at or above ETRIP (R238) -/
  tripRun : Nat := 0
  /-- the soft tier acts: SAFETY has been applied (R258) -/
  softActive : Bool := false
  /-- the SLE condition by ENERGY, with its hysteresis (R238) -/
  sleHeld : Bool := false
  /-- discharge check: comparisons below ERESID in a row, and the ms of the latest failed conversion (R255) -/
  disRun : Nat := 0
  disFailMs : Option Nat := none
  deriving DecidableEq, Repr

/-- The safety path (R238 to R260). -/
structure SafSt where
  /-- the 200 MHz cycle at which the enables open after Run (R398) -/
  openAt : Option Nat := none
  /-- Bypassed (R205) and the filtered level of BYP_RB, 1 closed -/
  bypassed : Bool := false
  bypRb : Bool := false
  /-- BYP_RB has read closed since BYP was driven or Bypassed entered (R243) -/
  wasClosed : Bool := false
  /-- BYP is high; pulses started by the latest firing; the further pulse waits for the end of the first; `TimeSt.cycles` at the latest start -/
  bypHigh : Bool := false
  bypPulses : Nat := 0
  bypAgain : Bool := false
  bypStart : Nat := 0
  /-- causes of the safe state: 0 CLKSAFE, 1 PAIRMIS, 2 WDOG (R246) -/
  safe : Nat := 0
  /-- switches commanded closed: EHA, ELA, EHB, ELB (R248) -/
  switches : Nat := 0
  /-- switches ELA and ELB that close in the next cycle, after EHA and EHB (R248) -/
  closeNext : Nat := 0
  /-- last key written to WDOG (R247) -/
  wdKey : Option Nat := none
  /-- test pulses: the switch of the next test, 0 none 1 open 2 closing 3 placed, the window W in 5 ns counts, the tick in which the next falls due,
  ticks since the last complete test of each switch, counted while tests were enabled and the enables closed; switches without one in 65 536 of these
  (R250 to R253) -/
  tpSwitch : Nat := 0
  tpPhase : Nat := 0
  tpW : Nat := 0
  tpDue : Nat := 0
  tpTicks : List Nat := [0, 0, 0, 0]
  tpLate : Nat := 0
  /-- switches found welded, bit per switch (R249) -/
  welded : Nat := 0
  /-- cycle of the last service of the watchdog (R246) -/
  wdCycle : Nat := 0
  /-- comparator of the next self-test and tick of the last (R244) -/
  cmpTurn : Nat := 0
  cmpTick : Nat := 0
  /-- DSATn inputs at present high (R245) -/
  dsat : Nat := 0
  /-- `TimeSt.cycles` at which a DSATn began to be high while Gn is on (R245) -/
  dsatSince : SMap Nat := []
  deriving DecidableEq, Repr

/-- A run between its latch and its commit (R268): what becomes stored in the commit cycle. -/
structure RunSt where
  ctx : Nat
  /-- new state words, slots, delay-memory writes, as they will be stored -/
  stateW : SMap Nat
  slots : SMap Nat
  delay : List (Nat × Nat)
  /-- cycles the run takes -/
  cycles : Nat
  /-- cycles still to wait before it starts -/
  wait : Nat
  /-- what the run found: arithmetic error, saturation of a swap, any saturation, plausibility set and live, ramping, winner -/
  arith : Bool
  satswap : Bool
  anySat : Bool
  plausSet : Bool
  plausLive : Bool
  ramping : Bool
  win : Option Nat
  deriving DecidableEq, Repr

/-- One context (R264). -/
structure CtxSt where
  prog : LoopProg := ⟨0, [], [], [], []⟩
  /-- bank b, word w at key 256·b + w -/
  coef : SMap Nat := []
  /-- state words -/
  stateW : SMap Nat := []
  /-- slots -/
  slots : SMap Nat := []
  /-- values that the mailboxes of the routed slots hold -/
  mail : SMap Nat := []
  /-- no run since reset or RESETST has committed: the XSEL first-run condition (R281, R289) -/
  fresh : Bool := true
  /-- RESETST waits for the next latch (R289) -/
  resetPend : Bool := false
  /-- start instant of the queued or running run, in 5 ns counts of local time -/
  startAt : Nat := 0
  /-- the tick of the latest start instant taken -/
  startTick : Option Nat := none
  /-- the cycle of `TimeSt.cycles` in which the pending swap was requested (R286) -/
  swapAsked : Nat := 0
  deriving DecidableEq, Repr

/-- The loop engines. -/
structure LpeSt where
  ctxs : SMap CtxSt := []
  /-- the run in progress of each engine -/
  running : SMap RunSt := []
  /-- delay memory: word w of engine e at key 32768·e + w -/
  delay : SMap Nat := []
  /-- busy cycles of each engine in the present tick, and that tick -/
  busy : SMap Nat := []
  busyTick : Nat := 0
  /-- Geode loop-variable channels 0 to 31 (R283) -/
  geo : SMap Nat := []
  /-- outputs committed since the previous Order launch (R311) -/
  outFresh : List Nat := []
  /-- VAL0 and VAL1 of this hub's trunk Tally entry (R283) -/
  val0 : Nat := 0
  val1 : Nat := 0
  deriving DecidableEq, Repr

/-- Redundancy: what the RED block holds beside its registers (R353 to R377). -/
structure RedSt where
  /-- ticks whose partner heartbeat came on path X, and on path P, newest first (R360) -/
  xTicks : List Nat := []
  pTicks : List Nat := []
  /-- devices counted since the latest t_O (R365): largest NCELL + NEXCL per ring, addresses of trunk Tally entries -/
  ringSeen : SMap Nat := []
  addrs : List Nat := []
  /-- values that the loop engines committed since the latest t_O, newest first (R358) -/
  commits : List Nat := []
  /-- digests with their ticks: own and the partner's (R359) -/
  ownDigest : Option (Nat × Nat) := none
  partDigest : Option (Nat × Nat) := none
  /-- the partner's latest pair-hello: state, PAIRTAG, strap, tick of its arrival (R356) -/
  partState : Nat := 0
  partTag : Nat := 0
  /-- the partner's strap, and the tick of its latest hello -/
  partStrap : Nat := 0
  helloTick : Option Nat := none
  /-- tick and member state of the latest pair-hello that this member sent (R356) -/
  helloSent : Option (Nat × Nat) := none
  /-- tick at which FORMING was entered (R357) -/
  formingSince : Nat := 0
  /-- tick named for forming (FORMSEQ), and for a yield: own arming and the primary's YIELDSEQ (R357, R369) -/
  formTick : Option Nat := none
  yieldTick : Nat := 0
  partYield : Option Nat := none
  /-- a central pair formed in Run withholds its references (R357) -/
  withheld : Bool := false
  /-- the partner is declared failed (R361) -/
  partFailed : Bool := false
  /-- tick of the partner's latest cross-link Order (R367) -/
  crossTick : Option Nat := none
  /-- a state transfer is requested (R374); contexts whose item 2 is complete; the tick at which items 3 and 4 take effect -/
  joinAsked : Bool := false
  admitted : SMap Bool := []
  itemTick : Option Nat := none
  /-- items 3 and 4 as received, in force at `itemTick` (R375) -/
  items : List XferItem := []
  /-- runs of each context since its item 2 began (R375) -/
  tries : SMap Nat := []
  /-- primary: a transfer is being served, and the contexts that have committed since it began; item 3 is sent (R375) -/
  serving : Bool := false
  served : List Nat := []
  sent3 : Bool := false
  deriving DecidableEq, Repr

/-- An overlap of reset sources (R407): its widest reach (1 B, 2 W, 3 C), whether POR was among them, the union of the block sets. -/
structure OverlapSt where
  reach : Nat
  por : Bool
  blocks : Nat
  deriving DecidableEq, Repr

/-- Reset control. -/
structure ResetSt where
  /-- the overlap in progress; it ends when its start-up completes (R407, R411) -/
  overlap : Option OverlapSt := some ⟨3, true, 0⟩
  /-- a supply is outside its band (R403) -/
  supplyBad : Bool := false
  /-- TESTEN is high (R517) -/
  testen : Bool := false
  /-- nRESET is held low (R408) -/
  pinLow : Bool := false
  /-- cycle of `TimeSt.cycles` in which nRESET was accepted low (R408) -/
  pinLowAt : Nat := 0
  /-- the overlap whose start-up of reach W or wider the loader has not completed yet (R407) -/
  starting : Option OverlapSt := none
  /-- the previous strap sampling since POR (R412): BOOT, CLKM, LOCKDLY, PAIRSEN as RST.STRAPS packs them -/
  lastStraps : Option Nat := none
  deriving DecidableEq, Repr

/-- The check bits of one 64-bit word differ from its data: bits wrong by an injection and bits wrong in truth (R430, R437). -/
structure EccMark where
  inj : Nat
  real : Nat
  deriving DecidableEq, Repr

/-- The memory and register checkers of SYS. -/
structure SysSt where
  /-- damaged words by word index, of system SRAM, capture SRAM and the engine memories (engine · 2^20 + word) -/
  eccSys : SMap EccMark := []
  eccCap : SMap EccMark := []
  eccEng : SMap EccMark := []
  /-- registers whose parity bit is wrong: 1 injected, 2 in truth, 3 both -/
  parity : SMap Nat := []
  /-- scrub pointers and CE counts of the present pass, of system and capture SRAM (R432) -/
  scrubSys : Nat := 0
  scrubCap : Nat := 0
  ceSys : Nat := 0
  ceCap : Nat := 0
  /-- the same of each engine memory -/
  scrubEng : SMap Nat := []
  ceEng : SMap Nat := []
  /-- the cycle of `TimeSt.cycles`, plus 1, of the latest scrubber read of each SRAM, and of the latest parity sweep (R432, R433) -/
  scrubAt : SMap Nat := []
  sweepAt : Nat := 0
  /-- memories whose scrub pass has come to its end: 0 system SRAM, 1 capture SRAM, 2 + e engine e (R432) -/
  passOver : Nat := 0
  /-- service cores running their trap handler, and cores with a trap held pending (R427), bit per core -/
  inTrap : Nat := 0
  trapPend : Nat := 0
  /-- the cycle of `TimeSt.cycles` in which a checker took its latest error, plus 1, by class: 0 to 2 memory, by capture set, 3 parity,
  16 + n the frames of lane n (R439) -/
  handled : SMap Nat := []
  /-- shadows of wide values, by origin agent · 2^32 + address of the upper word (R394) -/
  shadows : SMap Word := []
  /-- low words of wide values held for the write of their upper word, plus 1, by address (R395) -/
  held : SMap Nat := []
  /-- sticky bits that hardware has set in the present cycle, a mask by register address (R4) -/
  setNow : SMap Nat := []
  deriving DecidableEq, Repr

/-- The LOG unit (R459 to R465). The ring of 16 384 entries stands in system SRAM. -/
structure LogSt where
  /-- entries waiting, bytes 0 to 23 of each, oldest first (R461) -/
  queue : List (List Byte) := []
  /-- entries of the flash ring that the vendor firmware has copied (R462) -/
  flashed : Nat := 0
  deriving DecidableEq, Repr

/-- A timed write waiting for its tick (R473). -/
structure TimedSt where
  tick : Nat
  addr : Nat
  value : Nat
  mask : Nat
  origin : Origin
  deriving DecidableEq, Repr

/-- A transaction that this device sent (R474, R477): its context, destination, payload, the tick of the latest launch, the launches so
far; once ended, the status of its end and the reply with its address (R486). `customer`: sent by a customer image. -/
structure SendSt where
  ctx : Nat
  dst : Nat
  payload : List Byte
  since : Nat
  launches : Nat
  ended : Option Nat := none
  reply : List Byte := []
  replyAddr : Nat := 0
  /-- the query of a journal replay: index of the journal entry (R372) -/
  replay : Option Nat := none
  /-- sent by a customer image -/
  customer : Bool := false
  /-- TGTHOP of a request to an unjoined cell (R108) -/
  hop : Nat := 0xFF
  deriving DecidableEq, Repr

/-- A relayed request whose reply has not passed (R474). -/
structure RelayedSt where
  src : Nat
  sess : Nat
  ctr : Nat
  target : Nat
  tick : Nat
  deriving DecidableEq, Repr

/-- A capture assembly (R488): the journal entry and lane of its request, the Mark it asks for, the devices still to read, the context of the
read in flight, and the records found. -/
structure AsmSt where
  entry : Nat
  lane : Nat
  markid : Nat
  origin : Nat
  todo : List Nat
  ctx : Nat := 0
  found : List Byte := []
  deriving DecidableEq, Repr

/-- The management service (R470 to R481). The journal stands in system SRAM. -/
structure MgtSt where
  timed : List TimedSt := []
  sends : List SendSt := []
  relayed : List RelayedSt := []
  /-- CTR of the next transaction without a session that this device sends (R470) -/
  ctr : Nat := 1
  /-- the firmware staging area (R478); the canvas staging area's push stands in `CanvasSt` -/
  push : PushSt := {}
  /-- the flash write in progress: area (0 canvas, 1 firmware) and slot (R480) -/
  flashJob : Option (Nat × Nat) := none
  /-- cells discovered, at key 128·ring + position, or 128·ring + 64 + hop count for an unjoined cell: 2^24 + address + 2^16·STATUS (R66) -/
  cells : SMap Nat := []
  /-- cells reported as reversed, at 128·ring + hop count (R21); rings reported as over-length (R22) and of another length than the canvas states,
  bit per ring -/
  reversed : List Nat := []
  overLength : Nat := 0
  wrongLength : Nat := 0
  /-- Basecamp: VCAP (even keys) and TEMP (odd keys) of a discovered cell, plus 1, at twice its key of `cells` (R66) -/
  polled : SMap Nat := []
  /-- tick of the reply of each journal entry, plus 1 (R481) -/
  replied : SMap Nat := []
  /-- the capture assembly in progress -/
  asm : Option AsmSt := none
  deriving DecidableEq, Repr

/-- An open session's secrets and time (R453 to R455). -/
structure SessSt where
  key : List Byte
  /-- tick of the latest transaction -/
  last : Nat
  deriving DecidableEq, Repr

/-- A handshake between CHALLENGE and CONFIRM (R453). -/
structure ShakeSt where
  src : Nat
  lane : Nat
  opidx : Nat
  qh : List Byte
  qo : List Byte
  nh : List Byte
  nd : List Byte
  qd : List Byte
  priv : Nat
  sess : Nat
  tick : Nat
  deriving DecidableEq, Repr

/-- The request that a running quote answers (R451): lane, source, header bytes 0 to 11, the index of its journal entry, nonce. -/
structure QuoteSt where
  lane : Nat
  src : Nat
  head : List Byte
  entry : Nat
  nonce : List Byte
  deriving DecidableEq, Repr

/-- SEC. The keys lie in the always-on domain (R404, R458). -/
structure SecSt where
  rstKey : Option (List Byte) := none
  grpKey : Option (List Byte) := none
  /-- last GCTR accepted from each originator, newest first, at most 64 (R458) -/
  gctr : List (Nat × Nat) := []
  /-- GCTR of the next broadcast of this device (R458) -/
  gctrOut : Nat := 1
  /-- sessions by number -/
  sess : SMap (Option SessSt) := []
  /-- handshakes in progress -/
  shakes : List ShakeSt := []
  /-- ticks of the latest failed attempts, newest first (R453) -/
  fails : List Nat := []
  /-- tick at which the backoff began -/
  backoff : Option Nat := none
  /-- the quote in preparation (R451) -/
  quote : Option QuoteSt := none
  /-- tick of the latest quote accepted -/
  quoteTick : Option Nat := none
  /-- the entropy source has failed its test (R466) -/
  rngBad : Bool := false
  deriving DecidableEq, Repr

/-- The fuse array: both copies of every word (R443, R444), and the programming in progress: word and mask (R445). -/
structure FuseSt where
  first : SMap Word := []
  second : SMap Word := []
  job : Option (Nat × Word) := none
  /-- VFUSE is in band -/
  vfuse : Bool := false
  deriving DecidableEq, Repr

/-- One channel of a reduction interval in progress (R328): extremes (codes as integers, binary32 as bits), sum (codes: integer;
binary32: binary64 bits), values counted, AND and OR of bits, last words. -/
structure ChanAcc where
  lo : Int := 0
  hi : Int := 0
  sum : Int := 0
  n : Nat := 0
  all : Nat := 0xFFFFFFFF
  any : Nat := 0
  last : List Nat := []
  deriving DecidableEq, Repr

/-- A stream of the record in progress (R328 to R335). Rows are numbered by their interval on the time base (R329). -/
structure StreamSt where
  index : Nat
  /-- region start from the slot start, depth in rows, row size, rows reduced to one -/
  off : Nat
  depth : Nat
  rowb : Nat
  dec : Nat
  pre : Nat
  /-- post-trigger count in use; 0xFFFFFFFF: all -/
  post : Nat
  /-- number of the first row of the record, and of the next row to be written -/
  first : Nat
  next : Nat
  /-- row of the trigger -/
  trig : Option Nat := none
  /-- the reduction in progress, by channel -/
  acc : List ChanAcc := []
  deriving DecidableEq, Repr

/-- An event that may trigger (R336, R337): trigger TYPE, code or source bit, lane, stamp, and for a Mark its frame fields and arrival. -/
structure GeoEvent where
  typ : Nat
  code : Nat
  lane : Nat
  stamp : Nat
  deriving DecidableEq, Repr

/-- A Mark accepted (R339, R340): identifier, originator, class, local TAT and stamp of arrival in 78.125 ps. -/
structure MarkSt where
  ident : Nat
  origin : Nat
  cls : Nat
  tat : Nat
  arrival : Nat
  deriving DecidableEq, Repr

/-- A record from its arming on (R331 to R338, R346). -/
structure GeoRec where
  slot : Nat
  base : Nat
  mm1 : Nat
  chans : List (Nat × Nat)
  streams : List StreamSt
  /-- pre-fill complete: ARMED from the next base row -/
  filled : Bool := false
  /-- units that triggered, the primary one, trigger stamp and detection stamp (R337) -/
  tmask : Nat := 0
  primary : Nat := 0
  stamp : Nat := 0
  detect : Nat := 0
  /-- identifier, originator and class of its Mark (R341) -/
  mark : Option (Nat × Nat × Nat) := none
  /-- FLAGS of the header (R346) -/
  flags : Nat := 0
  /-- per unit, at the previous base row: the condition held (level, window), or the value stood at the far side of an edge (R333, R336) -/
  prev : List (Bool × Bool) := []
  /-- RECNUM (R346) -/
  recnum : Nat := 0
  /-- a Mark of this record has been originated (R341) -/
  marked : Bool := false
  /-- CFG.PROC when the record completed (R344, R345) -/
  procKind : Nat := 0
  deriving DecidableEq, Repr

/-- Geode. Record headers and rows stand in capture SRAM. -/
structure GeoSt where
  cur : Option GeoRec := none
  /-- completed records that are processed, oldest first (R344, R345) -/
  proc : List GeoRec := []
  /-- events of the present command, and Marks whose TAT lies ahead -/
  events : List GeoEvent := []
  marks : List MarkSt := []
  /-- values that belong to ticks: tick number, and value + 1 at key 65536·SRC + 256·ARG + word (R325, R326) -/
  ticks : List (Nat × SMap Nat) := []
  /-- local time of the latest upload request of each locked slot (R349), as tick + 1 -/
  upload : SMap Nat := []
  /-- RECNUM of the next record (R346) -/
  recnum : Nat := 0
  deriving DecidableEq, Repr

/-- The root PLL, the frequency meter and the gates (R382 to R392). -/
structure ClkSt where
  /-- value of `TimeSt.cycles` at which holdover began -/
  holdStart : Nat := 0
  /-- the switch in progress: lane, and whether the ring clock service asked for it (R387) -/
  switching : Option (Nat × Bool) := none
  /-- lane that a ring clock service write named (R390) -/
  service : Option Nat := none
  /-- the root's output has stopped (R389) -/
  stopped : Bool := false
  /-- rings or trunk rings that this member launched BROKEN, for the ring clock service (R387), bit per ring -/
  broken : Nat := 0
  /-- `TimeSt.cycles` at which the root locked again after a clock loss: one lock delay later the safe state ends (R390) -/
  relockAt : Option Nat := none
  /-- holdover through an armed rate switch: the relock needs no lock delay (R388) -/
  rateHold : Bool := false
  deriving DecidableEq, Repr

/-- Power commands and transitions (R397, R398). -/
structure PwrSt where
  tick : Nat := 0
  /-- state entered by the transition in progress, and `TimeSt.cycles` at its start -/
  trans : Option (Nat × Nat) := none
  deriving DecidableEq, Repr

/-- One sample of a stream: its number S · rate + SmpCnt, so that t_n is that number of sample intervals; eight channel values (binary32)
(R315). -/
structure SvSample where
  time : Nat
  vals : List Nat
  deriving DecidableEq, Repr

/-- The sampled-value streams (R314 to R316). -/
structure EthSt where
  /-- held samples by stream, newest first -/
  held : SMap (List SvSample) := []
  /-- consecutive sample instants without a bracketing pair -/
  run : SMap Nat := []
  deriving DecidableEq, Repr

/-- Service cores: handlers registered by customer images, at key 32·core + source (R486). -/
structure SerSt where
  /-- customer images in system SRAM by core: address and bytes loaded (R487); the image records last as IMGHASH does -/
  images : SMap (Nat × Nat) := []
  /-- handlers registered, at key 32·core + source (R486) -/
  handlers : SMap Nat := []
  deriving DecidableEq, Repr

/-- Pins: lane number that the diagnostics service selects (R499). -/
structure PinSt where
  ddmLane : Nat := 0
  /-- the loader has reached step 3 of R49 (or the device runs Basecamp): nERR follows R428 (R413) -/
  released : Bool := false
  /-- cycle and bits of the latest write to GPIOCLR (R497) -/
  clr : Nat × Nat := (0, 0)
  /-- bit n: the supply of I/O bank n stands in its range, as its monitor saw it last (R505) -/
  banks : Nat := 3
  /-- bit n: the level of LOSn (R495) -/
  losBalls : Nat := 0
  /-- VREFADC stands in its band, as its monitor saw it last (R216) -/
  vref : Option Bool := none
  /-- `TimeSt.cycles` at which the latest pulse of each compare unit ends (R143) -/
  pulse : SMap Nat := []
  deriving DecidableEq, Repr

/-- The state of one DGB-7316. -/
structure State where
  /-- the registers of the 23 windows by local address (Machine/Regs.lean); an unlisted register holds its reset value -/
  regs : SMap Word := []
  /-- system SRAM by local address (R522): staging areas, active copy, Cairn ring, journal and firmware stand in it; unlisted bytes are 0 -/
  sram : List Host.Cell := []
  /-- capture SRAM by local address (R522); unlisted bytes are 0 -/
  cap : List Host.Cell := []
  /-- boot flash by flash offset (R43); unlisted bytes are 0xFF, erased -/
  flash : List Host.Cell := []
  time : TimeSt := {}
  link : LinkSt := {}
  cnv : CanvasSt := {}
  rst : ResetSt := {}
  sys : SysSt := {}
  log : LogSt := {}
  scr : ScrSt := {}
  pwm : PwmSt := {}
  lpe : LpeSt := {}
  sense : SenseSt := {}
  red : RedSt := {}
  saf : SafSt := {}
  mgt : MgtSt := {}
  sec : SecSt := {}
  fuse : FuseSt := {}
  geo : GeoSt := {}
  clk : ClkSt := {}
  pwr : PwrSt := {}
  eth : EthSt := {}
  ser : SerSt := {}
  pin : PinSt := {}
  /-- what has been sent, newest last -/
  out : List Emit := []
  /-- the model's own counter of open values drawn (Config.freeNat); not the spec's -/
  free : Nat := 0
  /-- commands waiting, first in, first out -/
  pending : List Instr := []
  deriving DecidableEq, Repr

/-- Right after power-on reset: every register at its listed value, memories initialised, the POR overlap not yet left. -/
def State.reset : State := {}

/-- Why a step stops. No command of this block stops: every one the spec describes has an effect, and one that the spec gives no
effect leaves the state as it is. The type is empty on purpose; nobody raises it. -/
inductive Fault where
  deriving DecidableEq, Repr

/-- Why a command has no meaning. -/
inductive Refusal where
  /-- raised by `exec` alone, for a row of the opcode table that has no meaning yet; safe: the machine stops -/
  | notModelled (mnemonic : String)
  deriving DecidableEq, Repr

end Sys2Proof.Machine
end

