-- ==== Sys2Proof/Machine/Ops.lean ====
section
/-!
DEFINITION. Machine/Ops.lean: the named operations over registers, memories and open values that every meaning is written with.
-/

namespace Sys2Proof.Machine

/-! ## Registers -/

/-- The bits of field `f` in a register word. -/
def wordGet (w : Word) (f : Fld) : Nat := (w.extractLsb' f.lo f.w).toNat

/-- The bits that field `f` covers. -/
def fldMask (f : Fld) : Word := BitVec.ofNat 32 (2 ^ f.w - 1) <<< f.lo

/-- A register word with field `f` set to the low bits of `v`. -/
def wordSet (w : Word) (f : Fld) (v : Nat) : Word :=
  (w &&& ~~~ fldMask f) ||| ((BitVec.ofNat 32 v <<< f.lo) &&& fldMask f)

/-- The word that the register file holds at local address `a`. -/
def State.reg (s : State) (a : Nat) : Word := SMap.get (regDefault a) s.regs a

/-- The register file with the word at `a` replaced. -/
def State.setReg (s : State) (a : Nat) (w : Word) : State := { s with regs := SMap.set (regDefault a) s.regs a w }

/-- The value of a field. -/
def State.get (s : State) (f : Fld) : Nat := wordGet (s.reg f.addr) f

/-- A field set by hardware. -/
def State.set (s : State) (f : Fld) (v : Nat) : State := s.setReg f.addr (wordSet (s.reg f.addr) f v)

/-- A one-bit field reads 1. -/
def State.flag (s : State) (f : Fld) : Bool := s.get f != 0

/-- A one-bit field set from a condition. -/
def State.setFlag (s : State) (f : Fld) (b : Bool) : State := s.set f (bit b)

/-- The field set when the condition holds, unchanged otherwise. -/
def State.setIf (s : State) (c : Bool) (f : Fld) (v : Nat) : State := if c then s.set f v else s

/-- Hardware sets a sticky bit; that it did so in the present cycle is remembered (R4). -/
def State.stick (s : State) (f : Fld) : State :=
  let s := s.set f 1
  { s with sys := { s.sys with setNow := SMap.set 0 s.sys.setNow f.addr (SMap.get 0 s.sys.setNow f.addr ||| 2 ^ f.lo) } }

def State.stickIf (s : State) (c : Bool) (f : Fld) : State := if c then s.stick f else s

/-- `n` added to a count that saturates at all ones (R422). -/
def State.add (s : State) (f : Fld) (n : Nat) : State :=
  s.set f (if s.get f + n < 2 ^ f.w then s.get f + n else 2 ^ f.w - 1)

/-- A saturating count incremented (R422). -/
def State.inc (s : State) (f : Fld) : State := s.add f 1

/-- A wrapping count incremented. -/
def State.wrap (s : State) (f : Fld) : State := s.set f ((s.get f + 1) % 2 ^ f.w)

/-- A 64-bit (or 48-bit) value that stands in two registers, low word first. -/
def State.getPair (s : State) (lo hi : Fld) : Nat := s.get lo + 2 ^ 32 * s.get hi

def State.setPair (s : State) (lo hi : Fld) (v : Nat) : State := (s.set lo (v % 2 ^ 32)).set hi (v / 2 ^ 32)

/-- Bit `i` of a field set or cleared. -/
def State.setBit (s : State) (f : Fld) (i : Nat) (b : Bool) : State :=
  s.set f (if b then (s.get f) ||| 2 ^ i else s.get f - (if (s.get f).testBit i then 2 ^ i else 0))

/-- Bit `i` of a field. -/
def State.getBit (s : State) (f : Fld) (i : Nat) : Bool := (s.get f).testBit i

/-! ## Memories -/

def memByte (d : Byte) (m : List Host.Cell) (a : Nat) : Byte := SMap.get d m a

/-- Bytes written from address `a` upwards. -/
def memPut (d : Byte) (m : List Host.Cell) (a : Nat) : List Byte → List Host.Cell
  | [] => m
  | b :: bs => memPut d (SMap.set d m a b) (a + 1) bs

/-- `n` bytes from address `a` upwards. -/
def memGet (d : Byte) (m : List Host.Cell) (a n : Nat) : List Byte := (List.range n).map (fun i => memByte d m (a + i))

/-- Check bits after a write that covers the 64-bit words `lo` to `hi` of memory `target`: they fit the data again, and an armed injection that
names one of the words spoils its check bits and is used up (R430, R436). -/
def State.eccStored (s : State) (target lo hi base : Nat) (m : SMap EccMark) : SMap EccMark × State :=
  let m := m.filter (fun e => decide (e.1 < lo) || decide (hi < e.1))
  let w := (s.get SYS.INJADDR.ADDR - base) / 8
  if s.flag SYS.INJCTL.ARMED && s.get SYS.INJCTL.TARGET == target && decide (lo ≤ w) && decide (w ≤ hi) &&
      decide (base ≤ s.get SYS.INJADDR.ADDR) then
    (SMap.set ⟨0, 0⟩ m w ⟨1 + s.get SYS.INJCTL.DOUBLE, 0⟩, s.set SYS.INJCTL.ARMED 0)
  else (m, s)

def sramBase : Nat := 0x20000000
def capBase : Nat := 0x30000000

/-- Bytes of system SRAM (R522); SRAM reads 0 after initialisation (R404). -/
def State.sramGet (s : State) (a n : Nat) : List Byte := memGet 0 s.sram a n
def State.sramPut (s : State) (a : Nat) (bs : List Byte) : State :=
  if bs.isEmpty then s
  else
    let r := s.eccStored 0 ((a - sramBase) / 8) ((a + bs.length - 1 - sramBase) / 8) sramBase s.sys.eccSys
    { r.2 with sram := memPut 0 s.sram a bs, sys := { s.sys with eccSys := r.1 } }

/-- Bytes of capture SRAM. -/
def State.capGet (s : State) (a n : Nat) : List Byte := memGet 0 s.cap a n
def State.capPut (s : State) (a : Nat) (bs : List Byte) : State :=
  if bs.isEmpty then s
  else
    let r := s.eccStored 1 ((a - capBase) / 8) ((a + bs.length - 1 - capBase) / 8) capBase s.sys.eccCap
    { r.2 with cap := memPut 0 s.cap a bs, sys := { s.sys with eccCap := r.1 } }

/-- Bytes of the boot flash by flash offset; an erased byte reads 0xFF. -/
def State.flashGet (s : State) (a n : Nat) : List Byte := memGet 0xFF s.flash a n
def State.flashPut (s : State) (a : Nat) (bs : List Byte) : State := { s with flash := memPut 0xFF s.flash a bs }

/-- The memory regions of R483 and R522. -/
def sramSize : Nat := 0x400000
def capSize : Nat := 0x400000
def qspiBase : Nat := 0x10000000
def qspiSize : Nat := 0x1000000
def romSize : Nat := 0x10000
def fwArea : Nat := 0x20000000
def fwStaging : Nat := 0x20080000
def cnvActive : Nat := 0x20100000
def cnvStaging : Nat := 0x20180000
def logRing : Nat := 0x20200000
def journalBase : Nat := 0x20280000
def slotA : Nat := 0x00010000
def slotB : Nat := 0x00090000

/-! ## Open values -/

/-- A value that the spec leaves open, fresh at each use, below 2^w. -/
def State.draw (s : State) (w : Nat) : Nat × State := (Config.freeNat s.free % 2 ^ w, { s with free := s.free + 1 })

/-- `n` random bytes of the entropy source. -/
def State.random (s : State) (n : Nat) : List Byte × State :=
  ((List.range n).map (fun i => (Config.entropy s.free n).getD i 0), { s with free := s.free + 1 })

/-! ## Sparse tables of structures -/

def State.lane (s : State) (n : Nat) : LaneSt := SMap.get {} s.link.lanes n
def State.setLane (s : State) (n : Nat) (l : LaneSt) : State :=
  { s with link := { s.link with lanes := SMap.set {} s.link.lanes n l } }
def State.modLane (s : State) (n : Nat) (f : LaneSt → LaneSt) : State := s.setLane n (f (s.lane n))

/-- Something leaves the block. -/
def State.emit (s : State) (e : Emit) : State := { s with out := s.out ++ [e] }

/-! ## Names of the blocks (R429, R523) -/

def bSYS : Nat := 0
def bCLK : Nat := 1
def bPWR : Nat := 2
def bRST : Nat := 3
def bFUSE : Nat := 4
def bSEC : Nat := 5
def bLOG : Nat := 6
def bCNV : Nat := 7
def bTB : Nat := 8
def bLNK : Nat := 9
def bSCR : Nat := 10
def bPWM : Nat := 11
def bADC : Nat := 12
def bENV : Nat := 13
def bSAF : Nat := 14
def bLPE : Nat := 15
def bGEO : Nat := 16
def bRED : Nat := 17
def bMGT : Nat := 18
def bSDM : Nat := 19
def bETH : Nat := 20
def bPIN : Nat := 21
def bSER : Nat := 22

/-- The blocks that every device has (R47): SYS, CLK, PWR, RST, FUSE, SEC, LOG, CNV, TB, LNK, MGT, PIN, SER. -/
def fixedBlocks : Nat := 0x6403FF

/-- The blocks that no block reset reaches (R403): SYS, CLK, RST, FUSE, SEC, LOG, CNV, LNK. -/
def unresettable : Nat := 0x2FB

/-! ## Roles and what runs -/

/-- The loader has given the device its role: a canvas is applied or Basecamp runs (R49, R63). -/
def State.hasRole (s : State) : Bool := s.flag CNV.STAT.ACTIVE || s.flag CNV.STAT.BASECAMP
/-- The role: 0 cell, 1 hub, 2 central: CNV.ROLE.ROLE; while a reset holds CNV.ROLE at its reset value, what the always-on forwarder keeps. -/
def State.role (s : State) : Nat := if s.hasRole then s.get CNV.ROLE.ROLE else s.link.role
def State.isCell (s : State) : Bool := s.role == 0
def State.isHub (s : State) : Bool := s.role == 1
def State.isCentral (s : State) : Bool := s.role == 2
/-- 0 member A, 1 member B. -/
def State.member (s : State) : Nat := if s.hasRole then s.get CNV.ROLE.MEMBER else s.link.member
def State.segment (s : State) : Nat := s.get CNV.ROLE.SEGMENT
def State.address (s : State) : Nat := s.get SYS.DEVADDR.ADDR
def State.position (s : State) : Nat := s.get SYS.DEVADDR.POS
/-- The partner's address: the other member of the pair (R24). -/
def State.partner (s : State) : Nat := if s.address % 2 = 0 then s.address + 1 else s.address - 1
/-- The power state: 0 Run, 1 Idle, 2 Bivouac, 3 Struck (R396, R402). -/
def State.power (s : State) : Nat := s.get PWR.STAT.STATE
def State.inRun (s : State) : Bool := s.power == 0
def State.basecamp (s : State) : Bool := s.flag CNV.STAT.BASECAMP
def State.active (s : State) : Bool := s.flag CNV.STAT.ACTIVE

/-- The block exists in the device as configured (R47, R48). -/
def State.inst (s : State) (b : Nat) : Bool := fixedBlocks.testBit b || s.getBit CNV.INST.INST b

/-- The block's clock runs: its gate is open (R392) and the power state keeps it (R396); fixed blocks have no gate. -/
def State.clocked (s : State) (b : Nat) : Bool :=
  (fixedBlocks.testBit b || s.getBit CLK.GATE.RUN b) &&
    (decide (s.power ≤ 1) || b == bRST || b == bLNK || b == bPWR || b == bCLK || b == bSAF)

/-- The block is held in reset: an overlap of reach W or wider holds every block, one of reach B those it names (R407). -/
def State.heldInReset (s : State) (b : Nat) : Bool :=
  match s.rst.overlap with
  | none => false
  | some o => if o.reach ≥ 2 then true else o.blocks.testBit b

/-- The block works: instantiated, clocked, not held in reset (R48, R392, R424). -/
def State.runs (s : State) (b : Nat) : Bool := s.inst b && s.clocked b && !s.heldInReset b

/-- The whole device is held in reset. -/
def State.inReset (s : State) : Bool :=
  match s.rst.overlap with
  | none => false
  | some o => decide (o.reach ≥ 2)

end Sys2Proof.Machine
end

