-- ==== Sys2Proof/Machine/Operands.lean ====
section
/-!
DEFINITION. Machine/Operands.lean: the quantities that commands name indirectly: local time and its views (R122 to R124, R144), ticks
named by a 16-bit SEQ (R84, R529), device addresses (R24), lanes of a role (R20), fields of received frames.
-/

namespace Sys2Proof.Machine

/-! ## Time -/

/-- One nanosecond of the scale. -/
def nsUnit : Nat := 2 ^ 32

/-- Whole 5 ns counts of local time: ⌊total time / 5 ns⌋ (R123). -/
def State.now5 (s : State) : Nat := s.time.scale / (5 * nsUnit)

/-- The short counter (R123). -/
def State.short (s : State) : Nat := s.now5 % 2 ^ 32

/-- The hardware stamp of R100: 78.125 ps units, the short count in [37:6]. -/
def State.stamp (s : State) : Nat := s.time.scale * 64 / (5 * nsUnit) % 2 ^ 38

/-- Local time in 78.125 ps units. -/
def State.time64 (s : State) : Nat := s.time.scale * 64 / (5 * nsUnit)

/-- Something that may trigger Geode happens now (R336, R337): trigger TYPE, frame event code or source bit, lane. It is taken at the end
of the command. -/
def State.event (s : State) (typ code lane : Nat) : State :=
  { s with geo := { s.geo with events := s.geo.events ++ [⟨typ, code, lane, s.time64⟩] } }

/-- Local time in units of 2⁻¹⁶ ns as a stamp resolves it: 78.125 ps are 5120 units. -/
def State.stampFine (s : State) : Nat := s.time.scale * 64 / (5 * nsUnit) * 5120

def State.secNow (s : State) : Nat := s.time.scale / (nsUnit * 10 ^ 9)
def State.nsecNow (s : State) : Nat := s.time.scale / nsUnit % 10 ^ 9

/-- T in 5 ns counts (R32, R148). -/
def State.tu (s : State) : Nat := s.get TB.TICKLEN.TU

/-- The tick number (R124). -/
def State.tick (s : State) : Nat := s.now5 / s.tu

/-- The schedule offsets in 5 ns counts (R33, R148: the registers hold 10 ns units). -/
def State.offT (s : State) : Nat := 2 * s.get TB.SCHED0.TT
def State.offD (s : State) : Nat := 2 * s.get TB.SCHED0.TD
def State.offO (s : State) : Nat := 2 * s.get TB.SCHED1.TO
def State.offApply (s : State) : Nat := 2 * s.get TB.SCHED1.D

/-- The tick whose instant at offset `off` (5 ns counts) was the latest one reached. -/
def State.tickAt (s : State) (off : Nat) : Nat := (s.now5 - off) / s.tu

/-- The full number of the first tick after the present one whose number modulo 65 536 is `seq` (R529). -/
def namedTick (now seq : Nat) : Nat :=
  let d := (seq % 65536 + 65536 - now % 65536) % 65536
  now + (if d = 0 then 65536 else d)

/-- The named tick lies at least 16 ticks ahead (R112, R139, R369, R397, R473). -/
def farEnough (now seq : Nat) : Bool := decide (namedTick now seq ≥ now + 16)

/-- The full tick number that a received SEQ names, within −8 to +8 of `now`; none beyond (R84). -/
def seqTick (now seq : Nat) : Option Nat :=
  let d := seqDiff 16 seq now
  if -8 ≤ d ∧ d ≤ 8 ∧ 0 ≤ (now : Int) + d then some ((now : Int) + d).toNat else none

/-! ## Addresses and lanes -/

def addrHost : Nat := 0x7F00
def addrUnjoined : Nat := 0x7FFE
def addrAll : Nat := 0x7FFF

def isCellAddr (a : Nat) : Bool := decide (a < 0x6000) && decide (a / 64 % 16 < 12)
def isHubAddr (a : Nat) : Bool := decide (0x7C00 ≤ a) && decide (a ≤ 0x7C2F)
def isCentralAddr (a : Nat) : Bool := a == 0x7E00 || a == 0x7E01

/-- A reserved device address (R24). -/
def isReservedAddr (a : Nat) : Bool :=
  !(isCellAddr a || isHubAddr a || isCentralAddr a || a == addrHost || a == addrUnjoined || a == addrAll)

/-- The parts of a cell address (R24). -/
def cellSegment (a : Nat) : Nat := a / 1024 % 32
def cellRing (a : Nat) : Nat := a / 64 % 16
def cellPos (a : Nat) : Nat := a % 64

/-- The cell has not joined its ring (R24, R106). -/
def State.unjoined (s : State) : Bool := s.address == addrUnjoined

/-- Ring and position of this cell. -/
def State.myRing (s : State) : Nat := cellRing s.address

/-- The lane that joins the members of a pair (R20): L14 of a hub, L1 of a central. -/
def State.crossLane (s : State) : Nat := if s.isHub then 14 else 1

/-- The lane of ring `r` of a hub (R20). -/
def ringLane (r : Nat) : Nat := r

/-- The lane is a ring lane of this hub. -/
def State.isRingLane (s : State) (n : Nat) : Bool := s.isHub && decide (n < 12)

/-- The trunk lanes: L12 and L13 of a hub, L2 to L7 of a central. -/
def State.isTrunkLane (s : State) (n : Nat) : Bool :=
  (s.isHub && (n == 12 || n == 13)) || (s.isCentral && decide (2 ≤ n) && decide (n ≤ 7))

/-- The lane that another lane of the device forwards to (R102): L0 and L1 of a cell, L12 and L13 of a hub. -/
def State.forwardLane (s : State) (n : Nat) : Option Nat :=
  if s.isCell then (if n = 0 then some 1 else if n = 1 then some 0 else none)
  else if s.isHub then (if n = 12 then some 13 else if n = 13 then some 12 else none)
  else none

/-- The rings that a hub terminates: those that its canvas enables, all 12 in Basecamp (R66). -/
def State.rings (s : State) : List Nat := (List.range 12).filter (fun r => s.basecamp || s.cnv.ringEn.testBit r)

/-- The Guyline lanes that the role uses (R20); L8 of a central only when the canvas enables it. -/
def State.usedLanes (s : State) : List Nat :=
  if s.isCell then [0, 1]
  else if s.isHub then s.rings ++ [12, 13, 14]
  else [0, 1, 2, 3, 4, 5, 6, 7] ++ (if s.get (LNK.CTRL.MODE 8) = 1 then [8] else [])

/-- The lane is UP (R76); a device whose root has stopped sends nothing on any lane (R389). -/
def State.laneUp (s : State) (n : Nat) : Bool := s.flag (LNK.STAT.UP n) && !s.clk.stopped

/-- The device's ring or trunk lanes run at the full Guyline rate (R142): of the lanes that it uses for rings and trunks none that is on stands at
the Beacon rate. -/
def State.fullRate (s : State) : Bool :=
  (s.usedLanes.filter (fun n => (s.isCell || s.isRingLane n || s.isTrunkLane n) && s.get (LNK.CTRL.MODE n) == 1)).all
    (fun n => !s.flag (LNK.STAT.RATE n))

/-- Tick events fire (R142): aligned, full rate, time base running, device out of reset. -/
def State.tickEvents (s : State) : Bool :=
  s.flag TB.STAT.ALIGNED && s.fullRate && decide (s.power ≤ 1) && !s.inReset

end Sys2Proof.Machine

namespace Sys2Proof

open Sys2Proof.Machine

/-! ## Fields of frames -/

/-- Little-endian field of block `block`, `n` bytes from byte `i` (R79). -/
def Frame.field (f : Frame) (block i n : Nat) : Nat := leAt f.body (8 * (block - 1) + i) n

/-- The frame with a little-endian field written. -/
def Frame.put (f : Frame) (block i n v : Nat) : Frame := { f with body := putLE f.body (8 * (block - 1) + i) n v }

/-- The blocks of a frame: SOF, data blocks, EOF. -/
def Frame.blocks (f : Frame) : Nat := 2 + (f.body.length + 7) / 8

end Sys2Proof
end

