-- ==== Sys2Proof/Machine/Sha256.lean ====
section
/-!
DEFINITION. Machine/Sha256.lean: SHA-256 (FIPS 180-4) and HMAC-SHA-256 (FIPS 198-1), the hash and tag functions that R41, R45, R58,
R409, R450 to R459 name. The spec names the functions and gives no definition: they are the published ones.
-/

namespace Sys2Proof.Machine

/-- The 64 round constants of SHA-256. -/
def shaK1 : List Word :=
  [0x428a2f98#32, 0x71374491#32, 0xb5c0fbcf#32, 0xe9b5dba5#32, 0x3956c25b#32, 0x59f111f1#32, 0x923f82a4#32, 0xab1c5ed5#32,
   0xd807aa98#32, 0x12835b01#32, 0x243185be#32, 0x550c7dc3#32, 0x72be5d74#32, 0x80deb1fe#32, 0x9bdc06a7#32, 0xc19bf174#32,
   0xe49b69c1#32, 0xefbe4786#32, 0x0fc19dc6#32, 0x240ca1cc#32, 0x2de92c6f#32, 0x4a7484aa#32, 0x5cb0a9dc#32, 0x76f988da#32,
   0x983e5152#32, 0xa831c66d#32, 0xb00327c8#32, 0xbf597fc7#32, 0xc6e00bf3#32, 0xd5a79147#32, 0x06ca6351#32, 0x14292967#32]

/-- The second half of the round constants. -/
def shaK2 : List Word :=
  [0x27b70a85#32, 0x2e1b2138#32, 0x4d2c6dfc#32, 0x53380d13#32, 0x650a7354#32, 0x766a0abb#32, 0x81c2c92e#32, 0x92722c85#32,
   0xa2bfe8a1#32, 0xa81a664b#32, 0xc24b8b70#32, 0xc76c51a3#32, 0xd192e819#32, 0xd6990624#32, 0xf40e3585#32, 0x106aa070#32,
   0x19a4c116#32, 0x1e376c08#32, 0x2748774c#32, 0x34b0bcb5#32, 0x391c0cb3#32, 0x4ed8aa4a#32, 0x5b9cca4f#32, 0x682e6ff3#32,
   0x748f82ee#32, 0x78a5636f#32, 0x84c87814#32, 0x8cc70208#32, 0x90befffa#32, 0xa4506ceb#32, 0xbef9a3f7#32, 0xc67178f2#32]

/-- The eight working words. -/
structure ShaSt where
  a : Word
  b : Word
  c : Word
  d : Word
  e : Word
  f : Word
  g : Word
  h : Word
  deriving DecidableEq, Repr

/-- The initial hash value. -/
def shaInit : ShaSt :=
  ⟨0x6a09e667#32, 0xbb67ae85#32, 0x3c6ef372#32, 0xa54ff53a#32, 0x510e527f#32, 0x9b05688c#32, 0x1f83d9ab#32, 0x5be0cd19#32⟩

def rotr (n : Nat) (x : Word) : Word := x.rotateRight n

/-- One round with schedule word `w` and constant `k`. -/
def shaRound (s : ShaSt) (kw : Word × Word) : ShaSt :=
  let t1 := s.h + (rotr 6 s.e ^^^ rotr 11 s.e ^^^ rotr 25 s.e) + ((s.e &&& s.f) ^^^ (~~~ s.e &&& s.g)) + kw.1 + kw.2
  let t2 := (rotr 2 s.a ^^^ rotr 13 s.a ^^^ rotr 22 s.a) + ((s.a &&& s.b) ^^^ (s.a &&& s.c) ^^^ (s.b &&& s.c))
  ⟨t1 + t2, s.a, s.b, s.c, s.d + t1, s.e, s.f, s.g⟩

/-- The message schedule, held newest word first. -/
def shaExpand : Nat → List Word → List Word
  | 0, ws => ws
  | n + 1, ws =>
    let w2 := ws.getD 1 0
    let w15 := ws.getD 14 0
    let s0 := rotr 7 w15 ^^^ rotr 18 w15 ^^^ (w15 >>> 3)
    let s1 := rotr 17 w2 ^^^ rotr 19 w2 ^^^ (w2 >>> 10)
    shaExpand n ((s1 + ws.getD 6 0 + s0 + ws.getD 15 0) :: ws)

/-- A big-endian word of a block. -/
def shaWord (bs : List Byte) (i : Nat) : Word := BitVec.ofNat 32 (fromBE (sliceB bs (4 * i) 4))

/-- One 64-byte block. -/
def shaBlock (s : ShaSt) (block : List Byte) : ShaSt :=
  let ws := (shaExpand 48 ((List.range 16).map (shaWord block)).reverse).reverse
  let t := (((shaK1 ++ shaK2).zip ws).foldl shaRound s)
  ⟨s.a + t.a, s.b + t.b, s.c + t.c, s.d + t.d, s.e + t.e, s.f + t.f, s.g + t.g, s.h + t.h⟩

/-- The message with its padding: one 1 bit, zeros, the bit length in 64 bits. -/
def shaPad (m : List Byte) : List Byte :=
  let zeros := (119 - m.length % 64) % 64
  m ++ [0x80#8] ++ zeroB zeros ++ toBE 8 (8 * m.length)

/-- All blocks in order. -/
def shaBlocks (s : ShaSt) (m : List Byte) : ShaSt :=
  (List.range (m.length / 64)).foldl (fun s i => shaBlock s (sliceB m (64 * i) 64)) s

/-- SHA-256 of a byte list: 32 bytes. -/
def sha256 (m : List Byte) : List Byte :=
  let s := shaBlocks shaInit (shaPad m)
  [s.a, s.b, s.c, s.d, s.e, s.f, s.g, s.h].flatMap (fun w => toBE 4 w.toNat)

/-- HMAC-SHA-256 under `key`. -/
def hmac256 (key msg : List Byte) : List Byte :=
  let k0 := if key.length > 64 then sha256 key else key
  let k := k0 ++ zeroB (64 - k0.length)
  sha256 (k.map (· ^^^ 0x5C#8) ++ sha256 (k.map (· ^^^ 0x36#8) ++ msg))

end Sys2Proof.Machine
end

