-- ==== Sys2Proof/Machine/P256.lean ====
section
/-!
DEFINITION. Machine/P256.lean: ECDSA over P-256 with SHA-256 and the x-coordinate of ECDH, the published functions that R41, R450, R451
and R453 name. Points are affine; `none` is the point at infinity.
-/

namespace Sys2Proof.Machine

def p256p : Nat := 0xFFFFFFFF00000001000000000000000000000000FFFFFFFFFFFFFFFFFFFFFFFF
def p256n : Nat := 0xFFFFFFFF00000000FFFFFFFFFFFFFFFFBCE6FAADA7179E84F3B9CAC2FC632551
def p256b : Nat := 0x5AC635D8AA3A93E7B3EBBD55769886BC651D06B0CC53B0F63BCE3C3E27D2604B

/-- The base point. -/
def p256G : Nat × Nat :=
  (0x6B17D1F2E12C4247F8BCE6E563A440F277037D812DEB33A0F4A13945D898C296,
   0x4FE342E2FE1A7F9B8EE7EB4A7C0F9E162BCE33576B315ECECBB6406837BF51F5)

/-- a^e mod m, over the low `k` bits of the exponent. -/
def powMod (m a : Nat) : Nat → Nat → Nat
  | 0, _ => 1 % m
  | k + 1, e =>
    let h := powMod m (a * a % m) k (e / 2)
    if e % 2 = 1 then h * a % m else h

/-- Inverse modulo a prime below 2^256. -/
def invMod (m a : Nat) : Nat := powMod m (a % m) 256 (m - 2)

/-- The point lies on the curve. -/
def onCurve (q : Nat × Nat) : Bool :=
  decide (q.1 < p256p) && decide (q.2 < p256p) &&
    decide (q.2 * q.2 % p256p = (q.1 * q.1 * q.1 + (p256p - 3) * q.1 + p256b) % p256p)

/-- Addition of points. -/
def ptAdd : Option (Nat × Nat) → Option (Nat × Nat) → Option (Nat × Nat)
  | none, q => q
  | some a, none => some a
  | some (x1, y1), some (x2, y2) =>
    if x1 = x2 ∧ (y1 + y2) % p256p = 0 then none
    else
      let l := if x1 = x2 then (3 * x1 * x1 + (p256p - 3)) * invMod p256p (2 * y1) % p256p
               else (y2 + p256p - y1) * invMod p256p (x2 + p256p - x1) % p256p
      let x3 := (l * l + 2 * p256p - x1 - x2) % p256p
      some (x3, (l * (x1 + p256p - x3) + p256p - y1) % p256p)

/-- `k` times a point, over the low `fuel` bits of `k`. -/
def ptMul (q : Option (Nat × Nat)) : Nat → Nat → Option (Nat × Nat)
  | 0, _ => none
  | fuel + 1, k =>
    let h := ptMul (ptAdd q q) fuel (k / 2)
    if k % 2 = 1 then ptAdd h q else h

/-- The public key of 64 bytes, X then Y, each little-endian (R446); `none` off the curve. -/
def pubPoint (key : List Byte) : Option (Nat × Nat) :=
  let q := (fromLE (sliceB key 0 32), fromLE (sliceB key 32 32))
  if key.length = 64 && onCurve q then some q else none

/-- ECDSA verification of the message hash `h` under a public key. -/
def ecdsaVerifyHash (key h r s : List Byte) : Bool :=
  match pubPoint key with
  | none => false
  | some q =>
    let r := fromLE r
    let s := fromLE s
    if r = 0 ∨ p256n ≤ r ∨ s = 0 ∨ p256n ≤ s then false
    else
      let w := invMod p256n s
      match ptAdd (ptMul (some p256G) 256 (fromBE h * w % p256n)) (ptMul (some q) 256 (r * w % p256n)) with
      | none => false
      | some (x, _) => decide (x % p256n = r)

/-- ECDSA verification of a message: SHA-256, then P-256 (R41, R453). -/
def ecdsaVerify (key msg r s : List Byte) : Bool := ecdsaVerifyHash key (sha256 msg) r s

/-- ECDSA signature of a message under private key `d` with nonce `k`: r and s, 32 bytes each, little-endian (R446). -/
def ecdsaSign (d k : Nat) (msg : List Byte) : List Byte × List Byte :=
  match ptMul (some p256G) 256 k with
  | none => (zeroB 32, zeroB 32)
  | some (x, _) =>
    let r := x % p256n
    let s := invMod p256n k * (fromBE (sha256 msg) + r * d) % p256n
    (toLE 32 r, toLE 32 s)

/-- The public key of a private key: 64 bytes, X then Y. -/
def pubKey (d : Nat) : List Byte :=
  match ptMul (some p256G) 256 d with
  | none => zeroB 64
  | some (x, y) => toLE 32 x ++ toLE 32 y

/-- The x-coordinate of the ECDH point, 32 bytes; `none` for an invalid peer key. -/
def ecdh (d : Nat) (peer : List Byte) : Option (List Byte) :=
  match pubPoint peer with
  | none => none
  | some q => (ptMul (some q) 256 d).map (fun r => toLE 32 r.1)

end Sys2Proof.Machine
end

