-- ==== Sys2Proof/Machine/Slots.lean ====
section
/-!
DEFINITION. Machine/Slots.lean: the record slots of Geode in capture SRAM (R322, R323), and how a record ends that does not complete (R350).
-/

namespace Sys2Proof.Machine

def gIdle : Nat := 0
def gPrefill : Nat := 1
def gArmed : Nat := 2
def gPost : Nat := 3
def gStopped : Nat := 4
def gStalled : Nat := 5

def State.geoState (s : State) : Nat := s.get GEO.STAT.STATE
def State.setGeo (s : State) (st : Nat) : State := s.set GEO.STAT.STATE st

/-! ## Slots (R322, R323) -/

def State.nrec (s : State) : Nat := 2 ^ (if s.get GEO.CFG.NRECLOG ≤ 6 then s.get GEO.CFG.NRECLOG else 6)
def State.slotSize (s : State) : Nat := capSize / s.nrec
def State.slotAddr (s : State) (i : Nat) : Nat := capBase + i * s.slotSize

/-- The state in a slot's header: 0 EMPTY, 1 FILLING, 2 DONE, 3 TRUNC, 4 DAMAGED. -/
def State.slotState (s : State) (i : Nat) : Nat := byteAt (s.capGet (s.slotAddr i + 4) 1) 0

/-- Bit `i` of a register pair for the 64 slots. -/
def State.slotBit (s : State) (lo hi : Fld) (i : Nat) : Bool := if i < 32 then s.getBit lo i else s.getBit hi (i - 32)
def State.setSlotBit (s : State) (lo hi : Fld) (i : Nat) (b : Bool) : State :=
  if i < 32 then s.setBit lo i b else s.setBit hi (i - 32) b

def State.slotHeld (s : State) (i : Nat) : Bool := s.slotBit GEO.RECHOLD_LO.HOLD GEO.RECHOLD_HI.HOLD i
def State.slotLocked (s : State) (i : Nat) : Bool := s.slotBit GEO.RECLOCK_LO.LOCK GEO.RECLOCK_HI.LOCK i
def State.slotBusy (s : State) (i : Nat) : Bool := s.geo.proc.any (fun r => r.slot == i)

/-- A slot's state stored and shown in RECDONE. -/
def State.setSlotState (s : State) (i st : Nat) : State :=
  (s.capPut (s.slotAddr i + 4) (toLE 1 st)).setSlotBit GEO.RECDONE_LO.DONE GEO.RECDONE_HI.DONE i (decide (2 ≤ st))

/-- Rows held and the physical index of the oldest. -/
def StreamSt.rows (x : StreamSt) : Nat := if x.next - x.first < x.depth then x.next - x.first else x.depth
def StreamSt.oldest (x : StreamSt) : Nat := x.next - x.rows
def StreamSt.place (x : StreamSt) (n : Nat) : Nat := if x.depth = 0 then 0 else (n - x.first) % x.depth

/-- A stream's descriptor (R347). -/
def streamDesc (x : StreamSt) : List Byte :=
  toLE 4 x.off ++ toLE 4 x.depth ++ toLE 4 (x.place x.oldest) ++ toLE 4 x.rows ++ toLE 4 ((x.trig.getD x.oldest) - x.oldest) ++
    toLE 4 x.dec ++ toLE 2 x.rowb ++ [1, 0] ++ zeroB 4

/-- The header fields of a record that ends (R346, R347). -/
def State.closeHeader (s : State) (r : GeoRec) : State :=
  let a := s.slotAddr r.slot
  let raw := ((r.streams.find? (fun x => x.index == 0)).map (fun x => x.next - x.first)).getD 0
  let s := s.capPut (a + 5) (toLE 1 r.flags ++ toLE 1 r.primary)
  let s := s.capPut (a + 0xA) (toLE 2 r.tmask)
  let mk := r.mark.getD (0, 0, 0)
  let s := s.capPut (a + 0x48) (toLE 4 mk.1 ++ toLE 2 mk.2.1 ++ toLE 2 mk.2.2)
  let s := s.capPut (a + 0x5C) (toLE 4 raw)
  r.streams.foldl (fun s x => s.capPut (a + 0x80 + 32 * x.index) (streamDesc x)) s

/-- The record in progress ends without completing (R323, R350). -/
def State.truncRecord (s : State) : State :=
  match s.geo.cur with
  | none => s
  | some r =>
    let s := s.closeHeader r
    { s.setSlotState r.slot 3 with geo := { s.geo with cur := none, recnum := s.geo.recnum + 1 } }

end Sys2Proof.Machine
end

