-- ==== Sys2Proof/Machine/Restore.lean ====
section
/-!
DEFINITION. Machine/Restore.lean: what a reset of each reach restores (R6, R404, R405): register fields by their listed reach, the internal
state of the blocks reached, memories, the always-on domain at power-on, where the fuses are read (R444, R450).
-/

namespace Sys2Proof.Machine

/-! ## Registers -/

/-- A register word after a reset of rank `r` (1 B, 2 W, 3 C, 4 the initialisation of the always-on domain): every field whose reach is
as narrow as the reset takes its listed value, every other field keeps its bits (R6). -/
def restoreWord (fs : List FieldSpec) (r : Nat) (w : Word) : Word :=
  fs.foldl (fun w f => if f.reach.rank ≤ r then wordSet w ⟨0, f.lo, f.w⟩ f.reset else w) w

/-- The register file after a reset of rank `r` that reaches the blocks of `blocks`. -/
def restoreRegs (r blocks : Nat) : SMap Word → SMap Word
  | [] => []
  | e :: m =>
    let w := if blocks.testBit (blockOf e.1) then restoreWord (fieldsAt e.1) r e.2 else e.2
    if w = regDefault e.1 then restoreRegs r blocks m else (e.1, w) :: restoreRegs r blocks m

def allBlocks : Nat := 2 ^ 23 - 1

/-! ## Fuses (R256, R443, R444) -/

/-- The value used of word `w` whose copies are `a` (primary) and `b`: REVOKE, MINCNV, MINFW, DSATBYPREQ and DBGLOCK are the OR of both
(R444). -/
def usedWord (w : Nat) (a b : Word) : Word :=
  if w = 0x20 then a ||| (b &&& 0x000F0000)
  else if 0x21 ≤ w ∧ w ≤ 0x24 then a ||| b
  else if w = 0x27 then a ||| (b &&& 0x00000300)
  else a

/-- The value used of fuse word `w` as the array holds it now. -/
def State.fuseNow (s : State) (w : Nat) : Word := usedWord w (SMap.get 0 s.fuse.first w) (SMap.get 0 s.fuse.second w)

/-- Bits of a fuse word as read at power-on. -/
def State.fuseBits (s : State) (w lo n : Nat) : Nat := wordGet (s.reg (FUSE.WORD.VALUE w).addr) ⟨0, lo, n⟩

/-- The fields of R256: an unprogrammed one acts as the listed value. -/
def orUnless (v d : Nat) : Nat := if v = 0 then d else v
def State.slvHard (s : State) : Nat := orUnless (s.fuseBits 0x28 0 12) 0xC00
def State.slvMin (s : State) : Nat := s.fuseBits 0x28 12 12
def State.slvMax (s : State) : Nat := orUnless (s.fuseBits 0x29 0 12) 0xFFF
def State.emaxLim (s : State) : Nat := orUnless (s.fuseBits 0x29 12 16) 0xFFFF
/-- The bypass pulse in ms (R256): BYPPULSE + 1, 20 where it is not programmed. -/
def State.bypPulseMs (s : State) : Nat := let v := s.fuseBits 0x27 10 6; if v = 0 then 20 else v + 1
def State.dsatBypReq (s : State) : Bool := s.fuseBits 0x27 8 1 == 1
def State.dbgLock (s : State) : Bool := s.fuseBits 0x27 9 1 == 1

/-- Role and member of BASEROLE (R63): 0 cell, 1 hub, 2 central. -/
def State.baseRole (s : State) : Nat × Nat :=
  match s.fuseBits 0x27 0 3 with
  | 2 => (1, 0)
  | 3 => (1, 1)
  | 4 => (2, 0)
  | 5 => (2, 1)
  | _ => (0, 0)

/-- The bytes of fuse words `w` to `w + n − 1`, little-endian, from the array. -/
def State.fuseBytes (s : State) (w n : Nat) : List Byte := (List.range n).flatMap (fun i => toLE 4 (s.fuseNow (w + i)).toNat)

/-- The identity private key (R443): no register shows it. -/
def State.idKey (s : State) : Nat := fromLE (s.fuseBytes 0x30 8)

/-- FUSE at power-on reset (R444, R450): words, mismatches with READERR, the identity public key. -/
def State.loadFuses (s : State) : State :=
  let s := (List.range 128).foldl (fun s w =>
    let s := if 0x30 ≤ w ∧ w < 0x38 then s else s.setReg (FUSE.WORD.VALUE w).addr (s.fuseNow w)
    if SMap.get 0 s.fuse.first w = SMap.get 0 s.fuse.second w then s
    else ((s.setBit (FUSE.MISMATCH.WORDS (w / 32)) (w % 32) true).set ⟨FUSE.FLTSTAT.STAT.addr, 0, 1⟩ 1).set
      ⟨FUSE.FLTLIVE.LIVE.addr, 0, 1⟩ 1) s
  let pub := pubKey s.idKey
  (List.range 16).foldl (fun s i => s.set (SEC.IDPUB.KEY i) (leAt pub (4 * i) 4)) s

/-- The fuse map's code of fusable pin `j` (R413, R443). -/
def State.padCode (s : State) (j : Nat) : Nat :=
  let all := (List.range 5).foldl (fun m i => m + s.fuseBits (0x2A + i) 0 32 * 2 ^ (32 * i)) 0
  all / 2 ^ (3 * j) % 8

/-- The fields of the pads that the fuse map gives (R521). -/
def State.fusePads (s : State) : State :=
  (List.range 34).foldl (fun s j =>
    let c := s.padCode j
    let s := s.setFlag (PIN.PAD.DIR j) (c == 3 || c == 4)
    let s := s.set (PIN.PAD.PULL j) (if c = 1 then 1 else if c = 2 then 2 else 0)
    s.setFlag (PIN.PAD.OUT j) (c == 4)) s

/-! ## Internal state of the blocks -/

/-- PWM (R204, R205): Blocked, or Bypassed where the cell is. A debug halt lasts. -/
def State.clearPwm (s : State) : State :=
  let st := if s.saf.bypassed then 4 else 0
  let s := s.set PWM.STAT.STATE st
  let p : PwmSt := { halted := s.pwm.halted, full := st }
  let spoilt : SenseSt := { s.sense with spoiled := true }
  -- a retired line stays out of service until a reset of reach W (R193)
  if s.get PWM.CAL.FAILED = 0 then { s with pwm := p, sense := spoilt }
  else { s.set PWM.CAL.SPARE 7 with pwm := { p with lines := s.pwm.lines, calTurn := s.pwm.calTurn }, sense := spoilt }

/-- The sums of the capacitance estimator and the ledger's latches (R226, R233, R255). -/
def State.clearEnv (s : State) : State :=
  { s with sense := { sampleDone := s.sense.sampleDone, sampleTick := s.sense.sampleTick, convs := s.sense.convs, auxLeft := s.sense.auxLeft,
                      auxSum := s.sense.auxSum, auxBad := s.sense.auxBad, sdm := s.sense.sdm, iarms := s.sense.iarms,
                      sigmaAt := s.time64, spoiled := true } }

/-- SAF (R205, R242, R245, R246, R404): latches that need no clock and the closed bypass last; a reset of reach W ends PAIRMIS and WDOG, and
CLKSAFE lasts as CLK shows it; a cold reset clears what records BYP. -/
def State.clearSaf (s : State) (r : Nat) : State :=
  let safe := if r = 1 then s.saf.safe else bit (s.flag CLK.STAT.SAFE)
  let keep : SafSt :=
    { bypassed := s.saf.bypassed, bypRb := s.saf.bypRb, wasClosed := s.saf.wasClosed && decide (r < 3)
      bypHigh := s.saf.bypHigh, bypPulses := if r < 3 then s.saf.bypPulses else 0
      bypAgain := s.saf.bypAgain && decide (r < 3), bypStart := s.saf.bypStart
      safe := safe, wdCycle := s.time.cycles, dsat := s.saf.dsat, cmpTick := s.tick }
  let s := (s.setFlag SAF.STAT.SAFESTATE (safe != 0)).set SAF.HARDV.CODE s.slvHard
  { s.setFlag SAF.STAT.BYPCLOSED s.saf.bypRb with saf := keep }

/-- GEO (R350): a record being filled becomes TRUNC. -/
def State.clearGeo (s : State) (r : Nat) : State :=
  let g := s.geo
  let s := if r < 3 then (g.proc.foldl (fun s q => s.setSlotState q.slot 3) s).truncRecord else s
  { s with geo := { recnum := if r < 3 then s.geo.recnum else 0 } }

/-- MGT (R404, R473, R478): contexts end; a reset of reach W discards timed writes and open pushes; a verified image and its key stay with
the staging area until SRAM is initialised. -/
def State.clearMgt (s : State) (r : Nat) : State :=
  let p := s.mgt.push
  let kept : PushSt := if r < 3 then { len := p.len, total := p.total, kind := p.kind, key := p.key, good := p.good } else {}
  { s with mgt := { timed := if r = 1 then s.mgt.timed else [], ctr := s.mgt.ctr, push := if r = 1 then p else kept,
                    flashJob := if r = 1 then s.mgt.flashJob else none, cells := if r < 3 then s.mgt.cells else [],
                    polled := if r < 3 then s.mgt.polled else [], replied := if r < 3 then s.mgt.replied else [] } }

/-- CNV: the applied canvas goes; the staging area keeps its image until SRAM is initialised (R60, R404). Ring enables stay with the always-on
lanes. -/
def State.clearCnv (s : State) (r : Nat) : State :=
  let p := s.cnv.push
  let kept : PushSt := if r < 3 then { len := p.len, total := p.total, kind := p.kind, key := p.key, good := p.good } else {}
  { s with cnv := { push := kept, ringEn := s.cnv.ringEn } }

/-- SEC (R455, R466): sessions, handshakes, quotes and the failed entropy test end; the keys of the always-on domain stay (R458). -/
def State.clearSec (s : State) : State :=
  let x := s.sec
  (({ s with sec := { rstKey := x.rstKey, grpKey := x.grpKey, gctr := x.gctr, gctrOut := x.gctrOut } }.setFlag SEC.STAT.RSTKEY
    x.rstKey.isSome).setFlag SEC.STAT.GRPKEY x.grpKey.isSome)

/-- The internal state of block `b` after a reset of rank `r` that reaches it. -/
def State.clearBlock (s : State) (r b : Nat) : State :=
  if b = bTB then { s with time := { s.time with lateFire := [] } }
  else if b = bLPE then
    -- delay memory keeps its words (R279); the contexts' memory is written anew
    { s with lpe := { delay := s.lpe.delay }, sys := { s.sys with eccEng := s.sys.eccEng.filter (fun x => decide (x.1 % 2 ^ 20 < 0x4000)) } }
  else if b = bPWM then s.clearPwm
  else if b = bSCR then { s with scr := {} }
  else if b = bADC then { s with sense := { s.sense with sampleDone := false, sampleTick := none, auxLeft := 0, auxSum := [], auxBad := 0 } }
  else if b = bSDM then { s with sense := { s.sense with sdm := [] } }
  else if b = bENV then s.clearEnv
  else if b = bSAF then s.clearSaf r
  else if b = bRED then { s with red := { formingSince := s.tick } }
  else if b = bMGT then s.clearMgt r
  else if b = bETH then { s with eth := {} }
  else if b = bSER then { s with ser := { images := if r < 3 then s.ser.images else [] }, time := { s.time with ptp := {} }, sys := { s.sys with inTrap := 0, trapPend := 0 } }
  else if b = bPIN then
    { (if r = 1 then s else s.fusePads) with pin := { s.pin with ddmLane := 0, pulse := [], released := s.pin.released && decide (r = 1) } }
  else if r = 1 then s
  else if b = bCNV then s.clearCnv r
  else if b = bSEC then s.clearSec
  else if b = bFUSE then { s.setFlag FUSE.PROGCMD.VFUSEOK s.fuse.vfuse with fuse := { s.fuse with job := none } }
  else if b = bPWR then { s with pwr := {} }
  else if b = bSYS then { s with sys := { s.sys with shadows := [], held := [], parity := [] } }
  else if b = bCLK then
    { s with clk := { s.clk with switching := none, service := none, relockAt := none, broken := 0, rateHold := false } }
  else if b = bLOG ∧ r = 3 then { s with log := {} }
  else s

def State.clearBlocks (s : State) (r blocks : Nat) : State :=
  (List.range 23).foldl (fun s b => if blocks.testBit b then s.clearBlock r b else s) s

/-- GEO is cleared before its registers, which tell where its slots lie. -/
def State.cutRecords (s : State) (r blocks : Nat) : State := if blocks.testBit bGEO then s.clearGeo r else s

/-! ## The reaches (R404) -/

/-- Reach B: the registers and the internal state of the blocks reached. -/
def State.restoreBlocks (s : State) (blocks : Nat) : State :=
  let s := s.cutRecords 1 blocks
  ({ s with regs := restoreRegs 1 blocks s.regs }).clearBlocks 1 blocks

/-- Reach W: every block; memories, the always-on domain and the time base keep. -/
def State.restoreWarm (s : State) : State :=
  let s := s.cutRecords 2 allBlocks
  ({ s with regs := restoreRegs 2 allBlocks s.regs, link := { s.link with launched := 0 } }).clearBlocks 2 allBlocks

/-- Reach C: every block; memories are initialised to 0 with good check bits and the time base is cleared (R137). -/
def State.restoreCold (s : State) : State :=
  let s := s.cutRecords 3 allBlocks
  let s : State := { s with link := { s.link with fromA := 0, fromB := 0, launched := 0 } }
  let s := { s with
    regs := restoreRegs 3 allBlocks s.regs, sram := [], cap := [], time := { cycles := s.time.cycles }
    sys := { s.sys with eccSys := [], eccCap := [], eccEng := [], scrubSys := 0, scrubCap := 0, ceSys := 0, ceCap := 0,
                        scrubEng := [], ceEng := [] } }
  s.clearBlocks 3 allBlocks

/-- Power-on: as C, and the always-on domain is initialised (R404, R405); the fuses are read (R444). What stands outside the chip's state
lasts: flash, fuses, levels at pins. -/
def State.restorePor (s : State) : State :=
  let s' : State := { State.reset with
    flash := s.flash, fuse := { first := s.fuse.first, second := s.fuse.second, vfuse := s.fuse.vfuse }
    saf := { bypassed := s.saf.bypassed, bypRb := s.saf.bypRb, dsat := s.saf.dsat }
    rst := { supplyBad := s.rst.supplyBad, testen := s.rst.testen, pinLow := s.rst.pinLow, pinLowAt := s.rst.pinLowAt }
    time := { cycles := s.time.cycles }
    pin := { vref := s.pin.vref, losBalls := s.pin.losBalls }
    out := s.out, free := s.free, pending := s.pending }
  let s' := s'.loadFuses
  let s' := (s'.clearSaf 3).fusePads
  { s'.clearPwm with link := { s'.link with role := s'.baseRole.1, member := s'.baseRole.2 } }

end Sys2Proof.Machine
end

