-- ==== Sys2Proof/Machine/Flags.lean ====
section
/-!
DEFINITION. Machine/Flags.lean: fault sources, their sticky, live and enable bits, the reactions (R421 to R429, R440), the reset sources that
reactions assert (R403, R407), and nERR (R428).
-/

namespace Sys2Proof.Machine

/-- A fault source: its block, the local address of the block's FLTSTAT, its bit. LIVE, IEN and REACT follow FLTSTAT at +4, +8, +0xC. -/
structure Src where
  blk : Nat
  base : Nat
  idx : Nat
  deriving DecidableEq, Repr

/-! The sources of R440 by name. -/
def srcSYS (i : Nat) : Src := ⟨bSYS, SYS.FLTSTAT.STAT.addr, i⟩
def srcCLK (i : Nat) : Src := ⟨bCLK, CLK.FLTSTAT.STAT.addr, i⟩
def srcPWR (i : Nat) : Src := ⟨bPWR, PWR.FLTSTAT.REFUSED.addr, i⟩
def srcRST (i : Nat) : Src := ⟨bRST, RST.FLTSTAT.STAT.addr, i⟩
def srcFUSE (i : Nat) : Src := ⟨bFUSE, FUSE.FLTSTAT.STAT.addr, i⟩
def srcSEC (i : Nat) : Src := ⟨bSEC, SEC.FLTSTAT.STAT.addr, i⟩
def srcLOG (i : Nat) : Src := ⟨bLOG, LOG.FLTSTAT.STAT.addr, i⟩
def srcSCR (i : Nat) : Src := ⟨bSCR, SCR.FLTSTAT.STAT.addr, i⟩
def srcPWM (i : Nat) : Src := ⟨bPWM, PWM.FLTSTAT.STAT.addr, i⟩
def srcADC (i : Nat) : Src := ⟨bADC, ADC.FLTSTAT.STAT.addr, i⟩
def srcENV (i : Nat) : Src := ⟨bENV, ENV.FLTSTAT.STAT.addr, i⟩
/-- The safety sources of ENV, in SFLTSTAT (R423, R429). -/
def srcENVS (i : Nat) : Src := ⟨bENV, ENV.SFLTSTAT.STAT.addr, i⟩
def srcSAF (i : Nat) : Src := ⟨bSAF, SAF.FLTSTAT.STAT.addr, i⟩
def srcLPE (i : Nat) : Src := ⟨bLPE, LPE.FLTSTAT.STAT.addr, i⟩
def srcGEO (i : Nat) : Src := ⟨bGEO, GEO.FLTSTAT.STAT.addr, i⟩
def srcRED (i : Nat) : Src := ⟨bRED, RED.FLTSTAT.STAT.addr, i⟩
def srcMGT (i : Nat) : Src := ⟨bMGT, MGT.FLTSTAT.STAT.addr, i⟩
def srcSDM (i : Nat) : Src := ⟨bSDM, SDM.FLTSTAT.STAT.addr, i⟩
def srcETH (i : Nat) : Src := ⟨bETH, ETH.FLTSTAT.STAT.addr, i⟩
def srcPIN (i : Nat) : Src := ⟨bPIN, PIN.FLTSTAT.STAT.addr, i⟩
def srcSER (i : Nat) : Src := ⟨bSER, SER.FLTSTAT.STAT.addr, i⟩

def Src.stat (x : Src) : Fld := ⟨x.base, x.idx, 1⟩
def Src.live (x : Src) : Fld := ⟨x.base + 4, x.idx, 1⟩
def Src.ien (x : Src) : Fld := ⟨x.base + 8, x.idx, 1⟩

/-- The reaction nibble of a source: four bits per source in FLTSTAT order (R425); SAF holds only those of ENWELD, TPINC and CMPTEST,
the other sources of SAF react by rule (R259, R262). -/
def Src.nibble (x : Src) : Option Fld :=
  if x.blk = bSAF then
    (if x.idx = 2 then some ⟨x.base + 0xC, 0, 4⟩
     else if x.idx = 4 then some ⟨x.base + 0xC, 4, 4⟩
     else if x.idx = 8 then some ⟨x.base + 0xC, 8, 4⟩
     else none)
  else some ⟨x.base + 0xC + 4 * (x.idx / 8), 4 * (x.idx % 8), 4⟩

/-- The nibble's value; a fixed source reads 0 (R426). -/
def State.reaction (s : State) (x : Src) : Nat :=
  match x.nibble with
  | some f => s.get f
  | none => 0

/-- The index that SYS.RSTSRC records: the FLTSTAT bit, and 3 + bit for the safety sources of ENV (R429). -/
def Src.index (x : Src) : Nat := if x.base = ENV.SFLTSTAT.STAT.addr then 3 + x.idx else x.idx

/-- The source's block detects faults (R424); RST lies in the always-on domain and always does (R405). -/
def State.detects (s : State) (b : Nat) : Bool := b == bRST || s.runs b

/-- The checker of class `cls` detects an error (R439): answers whether it lies within 4 cycles of the checker's clock, `root` root cycles each,
after the one that it handles, and so is lost. An error found by one command together with an earlier one stands at a place of its own in the
command's time, which the spec does not give: whether it is lost is then a free value. -/
def State.errorLost (s : State) (cls root : Nat) (many : Bool) : Bool × State :=
  let now := s.time.cycles
  let last := SMap.get 0 s.sys.handled cls
  let d := if many && last == now + 1 then s.draw 1 else (bit (decide (last ≠ 0) && decide (6 * (now + 1 - last) < 4 * root)), s)
  if d.1 = 1 then (true, d.2)
  else (false, { d.2 with sys := { d.2.sys with handled := SMap.set 0 d.2.sys.handled cls (now + 1) } })

/-! ## Reset sources -/

/-- A reset of reach `reach` (1 B, 2 W, 3 C), for B of the block set `blocks`, joins the overlap, or the start-up that is not complete, or starts one, and what its reach restores is
restored (R403, R404, R407). -/
def State.joinReset (s : State) (reach : Nat) (por : Bool) (blocks : Nat) : State :=
  let o : OverlapSt := match s.rst.overlap.orElse (fun _ => s.rst.starting) with
    | none => ⟨reach, por, blocks⟩
    | some o => ⟨if reach > o.reach then reach else o.reach, o.por || por, o.blocks ||| blocks⟩
  let s := if por then s.restorePor else if reach = 3 then s.restoreCold
    else if reach = 2 then s.restoreWarm else s.restoreBlocks blocks
  { s with rst := { s.rst with overlap := some o, starting := none } }

/-- The blocks of a mask that a block reset reaches (R403). -/
def resettable (blocks : Nat) : Nat := maskOf (fun i => blocks.testBit i && !unresettable.testBit i) 23

/-- Reset source `cause` (its bit in RST.CAUSE) asserts (R403). A block reset in Bivouac is widened to W (R410). -/
def State.assertReset (s : State) (cause reach blocks : Nat) : State :=
  let reach := if reach = 1 ∧ s.power = 2 then 2 else reach
  let blocks := if reach = 1 then resettable blocks else 0
  if reach = 1 ∧ blocks = 0 then s
  else (s.joinReset reach (cause == 0) blocks).stick ⟨RST.CAUSE.CAUSE.addr, cause, 1⟩

/-! ## Traps -/

/-- A non-maskable trap to every running service core: taken, or held pending at a core inside its trap handler, one per core (R427). -/
def State.trapAll (s : State) : State :=
  let run := s.get SER.CORESTAT.RUN
  { s with sys := { s.sys with
      trapPend := s.sys.trapPend ||| (run &&& s.sys.inTrap)
      inTrap := s.sys.inTrap ||| run } }

/-! ## Raising a source -/

/-- The action of R425 that a source takes: 3 chip reset, 2 block reset, 1 trap, 0 interrupt or record; 0b010 acts as 0b011 on the blocks
that are never block-reset (R426), 0b100 to 0b111 act as 0b000. -/
def State.action (s : State) (x : Src) : Nat :=
  let a := s.reaction x % 8
  if a ≥ 4 then 0 else if a = 2 && unresettable.testBit x.blk then 3 else a

/-- The record of a fault-driven reset (R429). -/
def State.recordSource (s : State) (x : Src) : State :=
  ((s.set SYS.RSTSRC.BLOCK x.blk).set SYS.RSTSRC.SOURCE x.index).set SYS.RSTSRC.VALID 1

/-- The widest action among sources of one block that set in one cycle (R427): chip reset, then block reset, then trap. -/
def State.react (s : State) (xs : List Src) : State :=
  match xs.find? (fun x => s.action x == 3) with
  | some x => (s.recordSource x).assertReset 8 2 0
  | none =>
    match xs.find? (fun x => s.action x == 2) with
    | some x => (s.recordSource x).assertReset 7 1 (2 ^ x.blk)
    | none => if xs.any (fun x => s.action x == 1) then s.trapAll else s

/-- Sticky and live bits of one source set (R421). -/
def State.mark (s : State) (x : Src) : State := (s.stick x.stat).set x.live 1

/-- A safety source as Geode counts it (R337): bits 10 to 0 the sources of SAF, 15 to 11 those of ENV.SFLTSTAT. -/
def Src.safetyBit (x : Src) : Option Nat :=
  if x.blk = bSAF then some x.idx
  else if x.base = ENV.SFLTSTAT.STAT.addr then some (11 + x.idx)
  else none

/-- The occurrence of a safety source reaches Geode (R337). -/
def State.markEvent (s : State) (x : Src) : State :=
  match x.safetyBit with
  | some i => s.event 6 i 0
  | none => s

/-- Sources of one block occur in one cycle: sticky and live bits, then the reaction (R421, R427). A block that detects nothing records
nothing (R424). -/
def State.raiseMany (s : State) (xs : List Src) : State :=
  match xs with
  | [] => s
  | x :: _ => if s.detects x.blk then ((xs.foldl State.mark s).react xs |> (xs.foldl State.markEvent ·)) else s

/-- One occurrence of a source (R421, R425). -/
def State.raise (s : State) (x : Src) : State := s.raiseMany [x]

/-- The condition of a source is gone, or its latest evaluation found none (R421). -/
def State.unlive (s : State) (x : Src) : State := if s.detects x.blk then s.set x.live 0 else s

/-- A lasting condition evaluated: at a change from absent to present it raises the source, in `onset` (a count, say) and in the sticky
bit; while it lasts LIVE stays 1 (R421, R422). -/
def State.level (s : State) (x : Src) (present : Bool) (onset : State → State) : State :=
  if present then (if s.flag x.live then s else (onset s).raise x) else s.unlive x

/-- The interrupt line of a block: (FLTSTAT AND FLTIEN) not zero (R423). -/
def State.irqAt (s : State) (base : Nat) : Bool := (s.reg base &&& s.reg (base + 8)) != 0

end Sys2Proof.Machine
end

