-- ==== Sys2Proof/Machine/Cairn.lean ====
section
/-!
DEFINITION. Machine/Cairn.lean: the Cairn log (R459 to R465): entries, the queue of the LOG unit, the hash-chained ring in system SRAM.
-/

namespace Sys2Proof.Machine

/-- The origin of hardware events (R459: agent 6), of the loader (0) and of the boot ROM (9). -/
def hwOrigin : Origin := ⟨6, 0, 0xFF, 0xFF⟩
def loaderOrigin : Origin := ⟨0, 0, 0xFF, 0xFF⟩

/-- Bytes 0 to 23 of an entry: type, origin, time of detection, ADDR, OLD, NEW (R459, R461). -/
def State.entry (s : State) (typ : Nat) (o : Origin) (addr old new : Nat) : List Byte :=
  toLE 1 typ ++ toLE 1 (o.lane % 16 + 16 * o.agent) ++ toLE 1 o.sess ++ toLE 1 o.key ++ toLE 4 s.secNow ++
    toLE 4 (s.nsecNow % 2 ^ 30 + 2 ^ 30 * s.get TB.STAT.GOV + 2 ^ 31 * s.get TB.STAT.ALIGNED) ++
    toLE 4 addr ++ toLE 4 old ++ toLE 4 new

/-- A continuation entry: 20 data bytes in bytes 4 to 23, CONT set in the type (R459). -/
def contEntry (typ : Nat) (o : Origin) (data : List Byte) : List Byte :=
  toLE 1 (typ % 128 + 128) ++ toLE 1 (o.lane % 16 + 16 * o.agent) ++ toLE 1 o.sess ++ toLE 1 o.key ++
    (data ++ zeroB 20).take 20

def State.wrseq (s : State) : Nat := s.getPair LOG.WRSEQ_LO.SEQ LOG.WRSEQ_HI.SEQ
def State.rdseq (s : State) : Nat := s.getPair LOG.RDSEQ_LO.SEQ LOG.RDSEQ_HI.SEQ

/-- Entries in the ring (R459, R483). -/
def logEntries : Nat := 16384

/-- The local address of entry `n`. -/
def logAddr (n : Nat) : Nat := logRing + 32 * (n % logEntries)

/-- Entry `n` as stored; 32 bytes of 0 before the first (R459). -/
def State.logAt (s : State) (n : Nat) : List Byte := s.sramGet (logAddr n) 32

/-- The predecessor of entry `n`. -/
def State.logPrev (s : State) (n : Nat) : List Byte := if n = 0 then zeroB 32 else s.logAt (n - 1)

/-- The chain bytes of an entry whose predecessor is `prev` (R459). -/
def chainOf (prev e : List Byte) : List Byte := (sha256 (prev ++ e)).take 8

/-- A word of system SRAM whose check bits show an uncorrectable error (R430). -/
def State.sramBad (s : State) (a : Nat) : Bool :=
  let m := SMap.get (⟨0, 0⟩ : EccMark) s.sys.eccSys ((a - sramBase) / 8)
  decide (m.inj + m.real ≥ 2)

/-- The check of the latest entry's CHAIN before a write (R465). -/
def State.chainGood (s : State) : Bool :=
  let n := s.wrseq
  if n = 0 then true
  else
    let e := s.logAt (n - 1)
    (e.drop 24 == chainOf (s.logPrev (n - 1)) (e.take 24)) &&
      !((List.range 4).any (fun i => s.sramBad (logAddr (n - 1) + 8 * i)))

/-- One entry stored: chained to the latest entry as stored, WRSEQ and HEAD moved on (R459, R465). RDSEQ names the oldest unread
entry that still stands in the ring (R462). -/
def State.logStore (s : State) (e : List Byte) : State :=
  let n := s.wrseq
  let full := e ++ chainOf (s.logPrev n) e
  let s := s.sramPut (logAddr n) full
  let s := s.setPair LOG.WRSEQ_LO.SEQ LOG.WRSEQ_HI.SEQ (n + 1)
  let s := if s.rdseq + logEntries ≤ n then s.setPair LOG.RDSEQ_LO.SEQ LOG.RDSEQ_HI.SEQ (n + 1 - logEntries) else s
  let h := sha256 full
  (List.range 8).foldl (fun s i => s.set (LOG.HEAD.HASH i) (leAt h (4 * i) 4)) s

/-- The next write falls on an unread entry (R463). -/
def State.logOverwrites (s : State) : Bool := decide (s.wrseq ≥ s.rdseq + logEntries)

/-- Counts of an overwritten unread entry; the first after a drain raises OVERRUN (R463). -/
def State.logLose (s : State) : State :=
  let first := s.get LOG.RUNLOST.COUNT == 0
  let s := (s.inc LOG.LOST.COUNT).inc LOG.RUNLOST.COUNT
  if first then s.raise (srcLOG 0) else s

/-- The LOG unit writes one entry: the chain check of R465, the OVERRUN marker of R463, the entry. -/
def State.logWrite (s : State) (e : List Byte) : State :=
  let s := if s.chainGood then s.unlive (srcLOG 1) else s.raise (srcLOG 1)
  if s.logOverwrites then
    let marker := s.get LOG.RUNLOST.COUNT % 1024 == 0
    let s := s.logLose
    let s := if marker then
        (s.logStore (s.entry 0x0C hwOrigin 0 (s.get LOG.RUNLOST.COUNT) (s.get LOG.LOST.COUNT))).logLose
      else s
    s.logStore e
  else s.logStore e

/-- The oldest queued entry written (R461). -/
def State.logPop (s : State) : State :=
  match s.log.queue with
  | [] => s
  | e :: q =>
    let s := { s with log := { s.log with queue := q } }
    (s.set LOG.STAT.QUEUE q.length).logWrite e

/-- Places of the queue that an origin may use: 16, of which 4 are reserved for hardware agents (R461). -/
def queuePlaces (o : Origin) : Nat := if o.agent = 6 ∨ o.agent = 8 then 16 else 12

/-- An entry queued. Where the origin's part of the queue is full, the writer first writes the oldest entry: a core or remote
write stalls until a place frees (R461). -/
def State.logPut (s : State) (o : Origin) (e : List Byte) : State :=
  let s := if s.log.queue.length ≥ queuePlaces o then s.logPop else s
  let s := { s with log := { s.log with queue := s.log.queue ++ [e] } }
  s.set LOG.STAT.QUEUE s.log.queue.length

/-- An event logged (R460). -/
def State.cairn (s : State) (typ : Nat) (o : Origin) (addr old new : Nat) : State :=
  s.logPut o (s.entry typ o addr old new)

/-- An event logged with continuation entries carrying `data`, 20 bytes each (R459). -/
def State.cairnCont (s : State) (typ : Nat) (o : Origin) (data : List Byte) : State :=
  (List.range ((data.length + 19) / 20)).foldl
    (fun s i => s.logPut o (contEntry typ o (sliceB data (20 * i) 20))) s

/-- RDSEQ moved to `n` (R462): a move backwards or beyond WRSEQ is refused and raises DRAINERR. -/
def State.logAck (s : State) (o : Origin) (n : Nat) : State :=
  let old := s.rdseq
  if n < old ∨ s.wrseq < n then s.raise (srcLOG 2)
  else
    let s := (s.setPair LOG.RDSEQ_LO.SEQ LOG.RDSEQ_HI.SEQ n).set LOG.RUNLOST.COUNT 0
    let s := (s.unlive (srcLOG 0)).unlive (srcLOG 2)
    s.cairn 0x0D o 0 (old % 2 ^ 32) (n % 2 ^ 32)

end Sys2Proof.Machine
end

