-- ==== Sys2Proof/Machine/Crc.lean ====
section
/-!
DEFINITION. Machine/Crc.lean: the CRC-32 of IEEE 802.3 (R82): polynomial 0x04C1_1DB7, initial value 0xFFFF_FFFF, bits taken least
significant first, the result complemented.
-/

namespace Sys2Proof.Machine

/-- One bit of the reflected CRC-32 register; 0xEDB8_8320 is 0x04C1_1DB7 with its bits reversed (R82). -/
def crcBit (c : Word) : Word := if c.getLsbD 0 then (c >>> 1) ^^^ 0xEDB88320#32 else c >>> 1

/-- One byte of the reflected CRC-32 register. -/
def crcByte (c : Word) (b : Byte) : Word :=
  let c := c ^^^ b.setWidth 32
  crcBit (crcBit (crcBit (crcBit (crcBit (crcBit (crcBit (crcBit c)))))))

/-- The CRC-32 of a byte list (R82). -/
def crc32 (bs : List Byte) : Word := ~~~ (bs.foldl crcByte 0xFFFFFFFF#32)

end Sys2Proof.Machine
end

