-- ==== Sys2Proof/Machine/Links.lean ====
section
/-!
DEFINITION. Machine/Links.lean: the link layer (R71 to R121, R528): checking and counting received frames, forwarding, the output
priorities with their protected windows, originating frames, lane state, rate switch, unwrapping.
-/

namespace Sys2Proof.Machine

def ftTally : Nat := 1
def ftOrder : Nat := 2
def ftMark : Nat := 3
def ftTime : Nat := 4
def ftEcho : Nat := 5
def ftMgmt : Nat := 6

/-- Bytes 1 to 7 of the SOF (R80). -/
def sofBytes (f : Frame) : List Byte :=
  toLE 1 (f.ftype % 16 + 16 * (f.dir % 2) + 32 * bit f.wrap + 64 * (f.rsv % 4)) ++ toLE 1 f.hop ++ toLE 1 (f.rsv / 4 % 256) ++ toLE 2 f.seq ++
    toLE 2 f.dst

/-- Bytes 1 to 3 of the EOF (R80): STOMP and what stands in the reserved bits. -/
def eofBytes (f : Frame) : List Byte := toLE 1 (bit f.stomp + 2 * (f.rsv / 2 ^ 10 % 128)) ++ toLE 2 (f.rsv / 2 ^ 17 % 65536)

/-- The CRC over bytes 1 to 7 of the SOF, the data bytes, and bytes 1 to 3 of the EOF (R82). -/
def frameCrc (f : Frame) : Word := crc32 (sofBytes f ++ f.body ++ eofBytes f)

/-- The frame with the CRC of its contents (R82), complemented when STOMP is set (R83). -/
def sealFrame (f : Frame) : Frame := { f with crc := if f.stomp then ~~~ frameCrc f else frameCrc f }

/-- PLEN of a Mgmt frame (R101). -/
def plen (f : Frame) : Nat := f.field 1 6 2

/-- Kinds of lanes by what runs on them (R20). -/
inductive LaneKind where
  | ring | trunk | cross | host
  deriving DecidableEq, Repr

def State.laneKind (s : State) (n : Nat) : LaneKind :=
  if s.isCell then .ring
  else if s.isRingLane n then .ring
  else if s.isTrunkLane n then .trunk
  else if n = s.crossLane then .cross
  else .host

/-- The blocks that a frame's type, lane and PLEN require; none for an unlisted type or a PLEN above 488 (R81, R101, R528). -/
def requiredBlocks (k : LaneKind) (f : Frame) : Option Nat :=
  match f.ftype with
  | 1 => match k with | .ring => some 28 | _ => some 19
  | 2 => match k with | .ring => some 10 | .trunk => some 9 | _ => some 5
  | 3 => some 4
  | 4 => some 8
  | 5 => some 6
  | 6 => if plen f > 488 then none else some (3 + (plen f + 7) / 8)
  | _ => none

/-- The findings of R528. -/
inductive LenFinding where
  | good | unlisted | early | late
  deriving DecidableEq, Repr

def lenFinding (k : LaneKind) (f : Frame) : LenFinding :=
  match requiredBlocks k f with
  | none => .unlisted
  | some n => if f.blocks = n then .good else if f.blocks < n then .early else .late

/-- The CRC of a received frame fits its contents; of a stomped frame, the complement does (R83). -/
def crcGood (f : Frame) : Bool := f.crc == (sealFrame f).crc

/-- Lane `n` counted SYNCERR, BLKERR, CRCERR or LOCKLOSS: SYS sets its bit and raises LINK (R435). -/
def State.laneFault (s : State) (n : Nat) : State :=
  if s.detects bSYS then (s.stick ⟨SYS.LNKFLT.LANE.addr, n, 1⟩).raise (srcSYS 5) else s

/-- SYS.LNKLIVE: the enabled lane `n` is DOWN (R435). -/
def State.showDown (s : State) (n : Nat) : State :=
  s.setBit SYS.LNKLIVE.LANE n (s.get (LNK.CTRL.MODE n) = 1 && !s.laneUp n)

/-- Cycles of the 200 MHz clock for one block of lane `n` (R71). -/
def State.blockCycles (s : State) (n : Nat) : Nat := if s.flag (LNK.STAT.RATE n) then 16 else 2

/-- The lane carries Guyline or Ethernet blocks and no LOSn holds it off (R72, R495). -/
def State.laneOn (s : State) (n : Nat) : Bool :=
  s.get (LNK.CTRL.MODE n) != 0 && !s.flag (LNK.CTRL.PRBS n) && !(s.lane n).los

/-- The lane's receiver finds blocks: a Guyline lane that is on and holds block lock (R20, R71, R76). -/
def State.receives (s : State) (n : Nat) : Bool :=
  s.get (LNK.CTRL.MODE n) == 1 && n != 15 && s.laneOn n && s.flag (LNK.STAT.LOCK n) && !s.clk.stopped

/-- The frame reaches the lane's receiver: under near-end loopback that receiver hears the lane's own transmitter and nothing else (R119). -/
def State.hears (s : State) (n : Nat) (f : Frame) : Bool :=
  s.receives n && (!s.flag (LNK.CTRL.LOOP n) ||
    (match (s.lane n).sending with
     | some (g, _) => g.ftype == f.ftype && g.dir == f.dir && g.hop == f.hop && g.seq == f.seq && g.dst == f.dst
     | none => false))

/-! ## Holdover -/

/-- Automatic switching in holdover (R386): the first lane of ALTLIST whose READY is 1. -/
def State.autoSwitch (s : State) : State :=
  if s.flag CLK.STAT.HOLDOVER && s.flag CLK.CTRL.AUTOSW && s.clk.switching.isNone then
    let alts := (List.range 4).map (fun i => s.get CLK.ALTLIST.ALT / 16 ^ i % 16)
    match alts.find? (fun n => n != 15 && s.flag (LNK.STAT.READY n)) with
    | some n => { s with clk := { s.clk with switching := some (n, false) } }
    | none => s
  else s

/-- The root goes into holdover (R384, R388). -/
def State.holdover (s : State) : State :=
  if s.flag CLK.STAT.HOLDOVER then s
  else
    let s := ((s.set CLK.STAT.HOLDOVER 1).set CLK.STAT.LOCKED 0).inc CLK.HOLDOVERS.COUNT
    { s with clk := { s.clk with holdStart := s.time.cycles } }

/-- The reference is lost (R384); automatic switching begins (R386). -/
def State.referenceLoss (s : State) : State :=
  if s.flag CLK.STAT.LOCKED then ((s.holdover).raise (srcCLK 0)).autoSwitch else s

/-! ## Lane state -/

/-- A change to DOWN (R76): sticky DOWN; LOCKLOSS when block lock was lost, which on the reference lane is the loss of the reference (R384). -/
def State.laneDown (s : State) (n : Nat) (lostLock : Bool) : State :=
  let was := s.laneUp n
  let hadLock := s.flag (LNK.STAT.LOCK n)
  let s := s.set (LNK.STAT.UP n) 0
  let s := if lostLock then (s.set (LNK.STAT.LOCK n) 0).set (LNK.STAT.READY n) 0 else s
  let s := if was then (s.stick (LNK.STAT.DOWN n)).event 4 2 n else s
  let s := if was && lostLock && hadLock then (s.inc (LNK.LOCKLOSS.COUNT n)).laneFault n else s
  let s := if lostLock && hadLock && s.get CLK.STAT.REF == n then s.referenceLoss else s
  s.showDown n

/-- UP needs block lock and RXOK = 1 in the last IDLE (R76). -/
def State.laneTryUp (s : State) (n : Nat) : State :=
  if s.flag (LNK.STAT.LOCK n) && s.flag (LNK.STAT.PEERRX n) && !s.laneUp n then
    ((s.set (LNK.STAT.UP n) 1).modLane n (fun l => { l with upTick := s.tick, idleBad := 0 })).showDown n
  else s

/-- A frame checker of lane `n` finds an error: counted at `f`, unless the lane's checkers handle an earlier one (R435, R439). -/
def State.frameError (s : State) (n : Nat) (f : Fld) : Bool × State :=
  let r := s.errorLost (16 + n) (6 * s.blockCycles n) false
  if r.1 then (true, r.2) else (false, (r.2.inc f).laneFault n)

/-- A block with an invalid sync header (R74, R76): counted; the sixteenth within 1024 blocks loses block lock. -/
def State.badBlockHeader (s : State) (n : Nat) : State :=
  let now := s.time.cycles
  let heads := now :: (s.lane n).badHeads.filter (fun c => decide (now < c + 1024 * s.blockCycles n))
  let s := (s.frameError n (LNK.SYNCERR.COUNT n)).2.modLane n (fun l => { l with badHeads := heads })
  if 16 ≤ heads.length then s.laneDown n true else s

/-- A control block of unknown type (R74). -/
def State.badBlockType (s : State) (n : Nat) : State := (s.frameError n (LNK.BLKERR.COUNT n)).2

/-- A 48-bit frame counter advanced; it wraps (R121). -/
def State.countFrame (s : State) (lo hi : Fld) : State := s.setPair lo hi ((s.getPair lo hi + 1) % 2 ^ 48)

/-- The CRC of a frame checked, a bad one counted. An armed injection into the checker of lane `n` meets the next Mgmt frame: the check is
inverted, and the injection is used up (R436, R437). Answers whether the CRC is found bad. -/
def State.crcCheck (s : State) (n : Nat) (f : Frame) : Bool × State :=
  let bad := !crcGood f
  let armed := s.flag SYS.INJCTL.ARMED && s.get SYS.INJCTL.TARGET == 7 && s.get SYS.INJCTL.LANE == n && f.ftype == ftMgmt
  let s := if armed then s.set SYS.INJCTL.ARMED 0 else s
  if bad || armed then
    let r := s.frameError n (LNK.CRCERR.COUNT n)
    (true, if r.1 then r.2
      else ((if !armed then r.2 else if bad then r.2.stick SYS.INJSTAT.INJ_MASKED else (r.2.stick SYS.INJSTAT.INJHIT).inc SYS.INJCNT.COUNT).event 4 0 n))
  else (false, s)

/-- A frame that ended before an EOF: its type or PLEN, or a data block in the place of its EOF, has been found bad length (R528). -/
def State.cutFrame (s : State) (n : Nat) (f : Frame) : State :=
  match lenFinding (s.laneKind n) f with
  | .unlisted | .late => s.inc (LNK.BADLEN.COUNT n)
  | _ => s

/-- Reception on lane `n`: counters and the answer whether a receiver may use the frame (R74, R83, R528). A lane that is Off or without block
lock receives nothing (R20, R76). A frame of bad length is counted in BADLEN alone, whatever its CRC (DESIGN CHOICE, log entry 152). -/
def State.rxFrame (s : State) (n : Nat) (f : Frame) : Bool × State :=
  if !s.hears n f then (false, s)
  else match f.ending with
  | .loneHeader => (false, s.badBlockHeader n)
  | .loneType => (false, s.badBlockType n)
  | .abort => (false, (s.countFrame (LNK.RXFRM_LO.COUNT n) (LNK.RXFRM_HI.COUNT n)).cutFrame n f)
  | .badHeader => (false, ((s.countFrame (LNK.RXFRM_LO.COUNT n) (LNK.RXFRM_HI.COUNT n)).cutFrame n f).badBlockHeader n)
  | .badType => (false, ((s.countFrame (LNK.RXFRM_LO.COUNT n) (LNK.RXFRM_HI.COUNT n)).cutFrame n f).badBlockType n)
  | .eof =>
    let s := s.countFrame (LNK.RXFRM_LO.COUNT n) (LNK.RXFRM_HI.COUNT n)
    if f.stomp then (false, (s.inc (LNK.STOMPED.COUNT n)).event 4 1 n)
    else if lenFinding (s.laneKind n) f != .good then (false, s.inc (LNK.BADLEN.COUNT n))
    else
      let c := s.crcCheck n f
      (!c.1, c.2)

/-- A Tally or Order whose SEQ names no tick that the receiver expects (R84). -/
def State.seqError (s : State) (n : Nat) : State := (s.inc (LNK.SEQERR.COUNT n)).event 4 3 n

/-- The tick that a Tally or Order names at its receiver: the present one or one of the two before, whose records and copies a device still
keeps (R84, R87); a cell's Order is judged by `awaitedTick`. -/
def State.expectedTick (s : State) (seq : Nat) : Option Nat :=
  match seqTick s.tick seq with
  | some k => if k ≤ s.tick ∧ s.tick ≤ k + 2 then some k else none
  | none => none

/-- The tick whose Order a cell awaits (R84, R90): begun, and its apply instant still ahead. -/
def State.awaitedTick (s : State) (seq : Nat) : Option Nat :=
  match seqTick s.tick seq with
  | some k => if k ≤ s.tick ∧ s.now5 < k * s.tu + s.offApply then some k else none
  | none => none

/-! ## Link delays -/

/-- The device starts the Echo measurements of lane `n`: it stands at the B-side end of the link (R114). -/
def State.initiates (s : State) (n : Nat) : Bool :=
  if s.isCell then n == 0
  else if s.isHub then (s.isRingLane n && s.member == 1) || n == 12 || (n == s.crossLane && s.member == 1)
  else n == 0 || n == 8 || (s.isTrunkLane n && s.member == 1) || (n == s.crossLane && s.member == 1)

/-- The inbound delay of lane `n` in 2⁻¹⁶ ns (R116): DELAY − ASYM/2 towards the initiator, DELAY + ASYM/2 towards the responder. -/
def State.inboundDelay (s : State) (n : Nat) : Int :=
  let d : Int := (s.get (LNK.DELAY.DELAY n) : Int) * 5120
  let a := toSigned 16 (s.get (LNK.ASYM.ASYM n)) * 2560
  if s.initiates n then d - a else d + a

/-- CORR of a Time frame, signed 64-bit, increased (R99). -/
def addCorr (f : Frame) (d : Int) : Frame := f.put 4 0 8 (ofSigned 64 (toSigned 64 (f.field 4 0 8) + d))

/-! ## Outputs -/

/-- The ring or trunk ring that a Tally or Order names (R85, R88, R91, R92, R96). -/
def ringOf (k : LaneKind) (f : Frame) : Nat :=
  if f.ftype = ftTally then (if k = .cross then f.field 1 2 1 % 16 else f.field 1 0 1 % 16)
  else if k = .cross then 0 else f.field 1 5 1 % 16

/-- The instants, in 5 ns counts, at which this device launches frames of priority 1 itself on lane `n`, with their blocks (R104). -/
def State.ownWindows (s : State) (n : Nat) : List (Nat × Nat) :=
  if !s.tickEvents then []
  else
    let k := s.tick
    let at2 (off blocks : Nat) := [(k * s.tu + off, blocks), ((k + 1) * s.tu + off, blocks)]
    if s.isRingLane n then at2 s.offT 28 ++ at2 s.offO 10
    else if s.isCentral && s.isTrunkLane n then at2 s.offT 19 ++ at2 s.offO 9
    else if n = s.crossLane then at2 s.offO 5
    else []

/-- The protected windows of output `n` as (first block, blocks), in 5 ns counts (R104). -/
def State.windowsOf (s : State) (n : Nat) : List (Nat × Nat) :=
  s.ownWindows n ++ (s.lane n).windows.map (fun w => (w.left + s.tu, w.blocks))

/-- A frame of `blocks` blocks started now on output `n` ends before the next protected window and starts outside of one (R103). -/
def State.fits (s : State) (n blocks : Nat) : Bool :=
  (s.windowsOf n).all (fun w =>
    decide (s.now5 + 2 * blocks ≤ w.1 - 8) || decide (w.1 + 2 * (w.2 - 1) + 2 ≤ s.now5))

/-- The output sends nothing, and 2 IDLE blocks have followed the last frame (R78). -/
def State.outFree (s : State) (n : Nat) : Bool := decide ((s.lane n).busyUntil ≤ s.time.cycles)

/-- A frame is being sent there; in the 2 IDLE blocks after its EOF none is. -/
def State.midFrame (s : State) (n : Nat) : Bool := decide (s.time.cycles + 2 * s.blockCycles n < (s.lane n).busyUntil)

/-- The departure stamp that an Echo request (T1) or response (T3) takes as it leaves the balls (R100). -/
def State.departStamp (s : State) (f : Frame) : Frame :=
  if f.ftype = ftEcho ∧ f.field 1 0 1 = 0 then f.put 2 0 8 s.stamp
  else if f.ftype = ftEcho ∧ f.field 1 0 1 = 1 then f.put 4 0 8 s.stamp
  else f

/-- A frame leaves lane `n` now: the output is busy for its blocks and the 2 IDLE blocks after it (R78). -/
def State.sendNow (s : State) (n : Nat) (f : Frame) (own : Option Nat) : State :=
  let f := sealFrame (s.departStamp f)
  let till := s.time.cycles + (f.blocks + 2) * s.blockCycles n
  let s := s.modLane n (fun l => { l with busyUntil := till, sending := some (f, own) })
  (s.countFrame (LNK.TXFRM_LO.COUNT n) (LNK.TXFRM_HI.COUNT n)).emit (.frame n f)

/-- The instant at which a frame of priority 1 left output `n`, for its window of the next tick (R104). -/
def State.noteWindow (s : State) (n : Nat) (f : Frame) : State :=
  let k := s.laneKind n
  let r := ringOf k f
  let keep (w : WindowSt) := !(w.ftype == f.ftype && w.ring == r && w.dir == f.dir)
  s.modLane n (fun l => { l with windows := ⟨f.ftype, r, f.dir, s.now5, f.blocks⟩ :: l.windows.filter keep })

/-- This device originated the frame: its address stands where the frame's layout names the originator (R97, R98, R100, R101). -/
def State.ownFrame (s : State) (f : Frame) : Bool :=
  if f.ftype = ftMgmt then f.field 1 0 2 == s.address
  else if f.ftype = ftMark then f.field 2 0 2 == s.address
  else if f.ftype = ftTime then f.field 6 2 2 == s.address
  else true

/-- CORR of a Time frame, increased by a stay of `c` cycles in this device (R99). -/
def staysCycles (f : Frame) (c : Nat) : Frame := addCorr f ((c * 5 * 65536 : Nat) : Int)

/-- A frame of priority 3 as it stands at its launch, after it came to wait at cycle `since`: one of this device's own carries SEQ of the launch
tick (R84, R101), a Time frame the time of the launch (R98); a relayed Time frame carries its wait in CORR (R99). -/
def State.atLaunch (s : State) (f : Frame) (since : Nat) : Frame :=
  if s.ownFrame f then
    let f := { f with seq := s.tick % 65536 }
    if f.ftype = ftTime then (((f.put 1 0 8 s.tick).put 2 0 6 s.secNow).put 3 0 4 s.nsecNow).put 3 4 4 s.short else f
  else if f.ftype = ftTime then staysCycles f (s.time.cycles - since)
  else f

/-- A frame joins what waits for an output (R103): Time, Echo and Mark stand before Mgmt; one that is launched again stands first of its kind. -/
def queueFrame (again : Bool) (x : WaitSt) (l : List WaitSt) : List WaitSt :=
  let a := l.filter (fun y => y.frame.ftype != ftMgmt)
  let b := l.filter (fun y => y.frame.ftype == ftMgmt)
  if x.frame.ftype = ftMgmt then (if again then a ++ x :: b else a ++ b ++ [x])
  else if again then x :: a ++ b else a ++ x :: b

/-- A frame of priority 1 on output `n` (R103, R105): it never waits; a frame being sent there ends with an ABORT block, is counted in
PREEMPT, and is launched again when this device originated it, up to 4 times in all (R477). In the 2 IDLE blocks after an EOF it goes out at once
(DESIGN CHOICE between R78 and R103, log entry 153). -/
def State.sendFirst (s : State) (n : Nat) (f : Frame) : State :=
  let s :=
    if !s.midFrame n then s
    else
      let l := s.lane n
      let s := (s.inc (LNK.PREEMPT.COUNT n)).event 4 4 n
      match l.sending with
      | none => s
      | some (g, own) =>
        let again (w : List WaitSt) : List WaitSt := match own with
          | some k => if k < 5 && s.ownFrame g then queueFrame true ⟨g, k, s.time.cycles⟩ w else w
          | none => w
        let s := s.modLane n (fun l => { l with sending := none, waiting := again l.waiting })
        s.emit (.frame n { g with ending := .abort })
  s.sendNow n f none

/-! ## Contexts (R474) -/

/-- The last reply to a request, made here (R470): its context ends when it leaves (R474). -/
def State.lastReply (s : State) (f : Frame) : Bool :=
  decide (f.ftype = ftMgmt) && f.field 1 0 2 == s.address && f.field 2 1 1 % 2 == 1 && !(f.field 2 1 1).testBit 3

/-- Last replies that still wait for an output. -/
def State.repliesWait (s : State) : Nat :=
  s.link.lanes.foldl (fun k e => k + (e.2.waiting.filter (fun w => s.lastReply w.frame)).length) 0

/-- Contexts in use: requests of this device, relayed ones, a quote and a capture assembly that run, replies that have not left. -/
def State.ctxUsed (s : State) : Nat :=
  (s.mgt.sends.filter (fun x => x.ended.isNone)).length + s.mgt.relayed.length + bit s.sec.quote.isSome + bit s.mgt.asm.isSome + s.repliesWait

def State.ctxFree (s : State) : Bool := decide (s.ctxUsed < 128)

def State.showContexts (s : State) : State := s.set MGT.STAT.CTXFREE (128 - s.ctxUsed)

/-- CTXFREE follows a reply that came to wait, or that left. -/
def State.replyContexts (s before : State) : State := if s.repliesWait = before.repliesWait then s else s.showContexts

/-- CORR of a Time frame that leaves after its wait: residence from the cycle of arrival to now (R99). -/
def State.residence (s : State) (f : Frame) (inLane arrived : Nat) : Frame :=
  if f.ftype = ftTime then
    addCorr (staysCycles f (s.time.cycles - arrived + 2 * s.blockCycles inLane)) (s.inboundDelay inLane)
  else f

/-- What waits for a DOWN output is discarded and counted in BRKDROP (R106). -/
def State.dropWaiting (s : State) (n : Nat) : State :=
  let l := s.lane n
  (s.add (LNK.BRKDROP.COUNT n) (l.buffer.length + l.waiting.length)).modLane n (fun l => { l with buffer := [], waiting := [] })

/-- What waits for output `n` and may start now, oldest first: the forward buffer, then own frames (R103). -/
def State.drainLane (s : State) (n : Nat) : Nat → State
  | 0 => s
  | fuel + 1 =>
    let l := s.lane n
    if !s.laneUp n then s.dropWaiting n
    else if !s.outFree n then s
    else
      match l.buffer with
      | (f, t, i) :: rest =>
        if s.fits n f.blocks then
          let s := s.modLane n (fun l => { l with buffer := rest })
          (s.sendNow n (s.residence f i t) none).drainLane n fuel
        else s
      | [] =>
        match l.waiting with
        | w :: rest =>
          if s.fits n w.frame.blocks then
            let s := s.modLane n (fun l => { l with waiting := rest })
            let s := if w.launches > 0 then s.inc MGT.RELAUNCH.COUNT else s
            (s.sendNow n (s.atLaunch w.frame w.since) (some (w.launches + 1))).drainLane n fuel
          else s
        | [] => s

/-- Blocks held in the forward buffer of output `n`. -/
def State.bufferBlocks (s : State) (n : Nat) : Nat := (s.lane n).buffer.foldl (fun a e => a + e.1.blocks) 0

/-- A forwarded frame reaches output `n` (R102, R103): a Tally or Order goes out at once, any other frame when the output is free and
the frame fits before the next window, else it waits in the forward buffer of 128 blocks or is dropped whole. -/
def State.sendForward (s : State) (n inLane : Nat) (f : Frame) : State :=
  if !s.laneUp n then s.inc (LNK.BRKDROP.COUNT n)
  else if f.ftype = ftTally ∨ f.ftype = ftOrder then (s.sendFirst n f).noteWindow n f
  else if s.outFree n && (s.lane n).buffer.isEmpty && s.fits n f.blocks then
    s.sendNow n (s.residence f inLane s.time.cycles) none
  else if s.bufferBlocks n + f.blocks > 128 then s.inc (LNK.OVERFLOW.COUNT n)
  else s.modLane n (fun l => { l with buffer := l.buffer ++ [(f, s.time.cycles, inLane)] })

/-- A frame of this device's own, priority 3 (R103): launched when the output is free, nothing is buffered and it fits, else it waits. -/
def State.originate (s : State) (n : Nat) (f : Frame) : State :=
  if !s.laneUp n then s.inc (LNK.BRKDROP.COUNT n)
  else
    ((s.modLane n (fun l => { l with waiting := queueFrame false ⟨f, 0, s.time.cycles⟩ l.waiting })).drainLane n
      ((s.lane n).waiting.length + 1)).replyContexts s

/-- A frame of priority 1 that this device launches at its instant (R103). -/
def State.launch (s : State) (n : Nat) (f : Frame) : State :=
  if s.laneUp n then (s.sendFirst n f).noteWindow n f else s.inc (LNK.BRKDROP.COUNT n)

/-! ## Forwarding -/

/-- The frame as a forwarder sends it: HOP one higher, saturating (R80); STOMP set when its CRC is bad, it came stomped or it ended early
(R83, R528). -/
def passOn (f : Frame) (bad : Bool) : Frame :=
  sealFrame { f with hop := if f.hop < 255 then f.hop + 1 else 255, stomp := f.stomp || bad }

/-- The always-on forwarder sends a frame on (R102, R117, R528): nothing of an unlisted frame, an early one stomped, one that runs too
long or was broken off ended by an ABORT block; never an Echo frame (R100). -/
def State.forward (s : State) (inLane : Nat) (f : Frame) (bad : Bool) : State :=
  match s.forwardLane inLane with
  | none => s
  | some o =>
    if !s.hears inLane f || f.ftype == ftEcho || f.ending == .loneHeader || f.ending == .loneType then s
    else
      let keep := 8 * ((requiredBlocks (s.laneKind inLane) f).getD 2 - 2)
      match f.ending, lenFinding (s.laneKind inLane) f with
      | _, .unlisted => s
      | _, .late => s.sendForward o inLane { passOn f false with body := f.body.take keep, ending := .abort }
      | .eof, .early => s.sendForward o inLane (passOn f true)
      | .eof, .good => s.sendForward o inLane (passOn f bad)
      | _, _ => s.sendForward o inLane { passOn f false with ending := .abort }

/-- The frame arrives at lane `n` of a device that forwards it: it is counted, checked and sent on; the answer says whether a receiver
behind the lane may use it. -/
def State.arrive (s : State) (n : Nat) (f : Frame) : Bool × State :=
  let r := s.rxFrame n f
  (r.1, r.2.forward n f (!r.1))

/-! ## Originating -/

/-- A frame of this device with its SOF fields (R80). -/
def State.newFrame (s : State) (ft dir dst : Nat) (body : List Byte) : Frame :=
  sealFrame { ftype := ft, dir := dir, wrap := false, hop := 0, seq := s.tick % 65536, dst := dst, body := body, stomp := false, crc := 0, ending := .eof }

/-- DIR of a frame that this device launches on lane `n` (R80): away from the A end 0, towards it 1. -/
def State.launchDir (s : State) (n : Nat) : Nat :=
  if s.isCell then (if n = 1 then 0 else 1)
  else if s.isHub then (if s.isRingLane n then s.member else if n = 12 then 1 else if n = 13 then 0 else s.member)
  else if s.isTrunkLane n then s.member else if n = 1 then s.member else 1

/-- A Mgmt frame with PLEN bytes of payload (R101), padded to whole blocks. -/
def State.mgmtFrame (s : State) (n dst mseq tgthop mflags : Nat) (payload : List Byte) : Frame :=
  let head := toLE 2 s.address ++ toLE 2 mseq ++ toLE 1 tgthop ++ toLE 1 mflags ++ toLE 2 payload.length
  let pad := (8 - payload.length % 8) % 8
  s.newFrame ftMgmt (s.launchDir n) dst (head ++ payload ++ zeroB pad)

/-- The latest wrapped Tally of ring `r` that this member received itself. -/
def State.latestWrapped (s : State) (r : Nat) : Option TallySt :=
  match SMap.get none s.scr.wrapped (2 * r), SMap.get none s.scr.wrapped (2 * r + 1) with
  | some a, some b => if a.tick < b.tick then some b else some a
  | some a, none => some a
  | none, b => b

/-- A cell of the hub's segment lies beyond the wrap position from this member's end (R106). -/
def State.beyondWrap (s : State) (addr : Nat) : Bool :=
  let r := cellRing addr
  s.scr.decision.modes.getD r 0 == 1 &&
    (match s.latestWrapped r with
     | some w => w.wrappos != 0xFE && (if s.member = 0 then decide (w.wrappos < cellPos addr) else decide (cellPos addr < w.wrappos))
     | none => true)

/-- The lane out of which this device sends a Mgmt frame of its own (R106). -/
def State.routeOwn (s : State) (dst : Nat) : Nat :=
  if s.isCell then
    let want := if isHubAddr dst && decide ((dst - 0x7C00) / 2 = cellSegment s.address) then dst % 2
      else SMap.get (0 : Nat) s.link.route dst
    if s.laneUp want then want else 1 - want
  else if s.isHub then
    if isCellAddr dst && decide (cellSegment dst = s.segment) then (if s.beyondWrap dst then 14 else ringLane (cellRing dst))
    else if dst = s.partner then 14
    else if s.laneUp 12 then 12 else 13
  else
    if dst = addrHost then 0
    else if dst = s.partner then 1
    else SMap.get (2 : Nat) s.link.route dst

/-- MFLAGS of a Mgmt frame of this device to `dst` that leaves by lane `n`: a hub's frame to a cell over its cross-link is RELAYED (R101, R106). -/
def State.ownFlags (s : State) (n dst : Nat) : Nat := bit (s.isHub && n == 14 && isCellAddr dst)

/-- The next MSEQ (R101). -/
def State.nextMseq (s : State) : Nat × State :=
  (s.link.mseq, { s with link := { s.link with mseq := (s.link.mseq + 1) % 65536 } })

/-- A Mgmt frame originated to `dst` (R101, R106). -/
def State.sendMgmt (s : State) (dst : Nat) (payload : List Byte) : State :=
  let m := s.nextMseq
  let n := m.2.routeOwn dst
  m.2.originate n (m.2.mgmtFrame n dst m.1 0xFF (m.2.ownFlags n dst) payload)

/-! ## Duplicates (R107) -/

/-- No copy of the same broadcast frame has arrived within `window` ticks. -/
def State.firstCopy (s : State) (kind src ident window : Nat) : Bool :=
  !(s.link.dups.any (fun d => d.kind == kind && d.src == src && d.ident == ident && decide (s.tick < d.tick + window)))

/-- The copy remembered; entries beyond every window drop out. -/
def State.noteCopy (s : State) (kind src ident : Nat) : State :=
  let keep (d : DupSt) := decide (s.tick < d.tick + 65536) && !(d.kind == kind && d.src == src && d.ident == ident)
  { s with link := { s.link with dups := ⟨kind, src, ident, s.tick⟩ :: s.link.dups.filter keep } }

/-- The first copy of a broadcast is taken, every later one is counted in DUPDROP of the receiving lane; the window runs from the latest copy
of either kind. -/
def State.takeCopy (s : State) (n kind src ident window : Nat) : Bool × State :=
  if s.firstCopy kind src ident window then (true, s.noteCopy kind src ident)
  else (false, (s.noteCopy kind src ident).inc (LNK.DUPDROP.COUNT n))

/-- The lane on which the last frame from an originator arrived (R106). -/
def State.noteRoute (s : State) (n src : Nat) : State :=
  { s with link := { s.link with route := SMap.set (if s.isCell then 0 else 2) s.link.route src n } }

/-! ## Lane state -/

/-- The role uses lane `n` (R20); L15 is not used by a cell. -/
def State.laneInRole (s : State) (n : Nat) : Bool :=
  if s.isCell then decide (n < 2) else if s.isHub then decide (n < 16) else decide (n < 9) || n == 15

/-- An armed rate switch is refused and LATE set unless RATEAT is ahead (R77). A cell's L1 window has no say. -/
def State.rateArm (s : State) (n : Nat) : State :=
  if s.isCell && n == 1 then s
  else if 0 < seqDiff 32 (s.get (LNK.RATEAT.AT n)) s.short then
    (s.set (LNK.RATECMD.ARMED n) 1).modLane n (fun l => { l with rateTarget := s.get (LNK.RATECMD.TARGET n) })
  else s.stick (LNK.RATECMD.LATE n)

/-- An armed unwrap (R112): the named tick at least 16 ticks ahead, else LATE and any earlier arming stays. A cell obeys its L0 window,
a hub its L12 window for the trunk. -/
def State.unwrapArm (s : State) (n : Nat) : State :=
  if (s.isCell && n == 1) || (s.isHub && n == 13) then s
  else
    let seq := s.get (LNK.UNWRAP.SEQ n)
    if farEnough s.tick seq then
      (s.set (LNK.UNWRAP.ARMED n) 1).modLane n (fun l => { l with unwrapTick := namedTick s.tick seq })
    else s.stick (LNK.UNWRAP.LATE n)

/-- LNK.CTRL written: a mode that the lane cannot run, or any on a lane that the device's role leaves unused, leaves the lane Off (R20, R72). -/
def State.modeWritten (s : State) (n : Nat) : State :=
  let m := s.get (LNK.CTRL.MODE n)
  if (n = 15 ∧ m = 1) ∨ (n ≠ 15 ∧ m ≥ 2) ∨ (s.hasRole && !s.laneInRole n) = true then s.set (LNK.CTRL.MODE n) 0 else s

end Sys2Proof.Machine
end

