-- ==== Sys2Proof/Machine/TimeBase.lean ====
section
/-!
DEFINITION. Machine/TimeBase.lean: the local time scale, Time frames and phase alignment, the two domains, compare units (R122 to R143).
-/

namespace Sys2Proof.Machine

/-- The time base runs in Run and Idle (R137). -/
def State.timeRuns (s : State) : Bool := decide (s.power ≤ 1) && !s.clk.stopped

/-- TB.INCR, a 32.32 value in ns (R122). -/
def State.incr (s : State) : Nat := s.getPair TB.INCR_LO.FRAC TB.INCR_HI.NS

/-- The values that TB.INCR accepts (R128). -/
def incrMin : Nat := 0x4FFDF3B64
def incrMax : Nat := 0x50020C49C
def incrOk (v : Nat) : Bool := decide (incrMin ≤ v) && decide (v ≤ incrMax)

/-! ## Compare units -/

/-- The target of unit `n` is reached: the signed difference SHORT − TARGET is zero or positive (R125). -/
def State.cmpReached (s : State) (n : Nat) : Bool := decide (0 ≤ seqDiff 32 s.short (s.get (TB.CMP_TARGET.TARGET n)))

/-- Unit `n` is armed: on a target already reached it fires in the next cycle with LATE (R125, R143). -/
def State.cmpArm (s : State) (n : Nat) : State :=
  if s.flag (TB.CMP_CTRL.EN n) && s.cmpReached n then
    { s with time := { s.time with lateFire := n :: s.time.lateFire.filter (· != n) } }
  else { s with time := { s.time with lateFire := s.time.lateFire.filter (· != n) } }

/-- Unit `n` fires (R143): FIRED, FIRECNT, LATE when it was armed on a reached target; a periodic unit adds PERIOD to TARGET, any other
clears EN. The consumer that DEST selects is signalled by the command itself. -/
def State.cmpFire (s : State) (n : Nat) : State :=
  let late := s.time.lateFire.contains n
  let s := ((s.stick (TB.CMP_CTRL.FIRED n)).inc (TB.CMP_FIRECNT.COUNT n)).stickIf late (TB.CMP_CTRL.LATE n)
  let s := { s with time := { s.time with lateFire := s.time.lateFire.filter (· != n) } }
  if s.flag (TB.CMP_CTRL.PERIODIC n) then
    (s.set (TB.CMP_TARGET.TARGET n) ((s.get (TB.CMP_TARGET.TARGET n) + s.get (TB.CMP_PERIOD.PERIOD n)) % 2 ^ 32)).cmpArm n
  else s.set (TB.CMP_CTRL.EN n) 0

/-! ## Steps -/

/-- The scale set to `v`: every derived value follows (R123, R124), and a compare that the step carries past its target fires with LATE
(R134). -/
def State.stepScale (s : State) (v : Nat) : State :=
  let before := s
  let s := { s with time := { s.time with scale := v } }
  let passed (n : Nat) := s.flag (TB.CMP_CTRL.EN n) && !before.cmpReached n && s.cmpReached n
  { s with time := { s.time with lateFire := s.time.lateFire ++ (List.range 8).filter passed } }

/-- Local time moved by `e`, in 2⁻¹⁶ ns. -/
def State.stepBy (s : State) (e : Int) : State := s.stepScale ((s.time.scale : Int) + e * 65536).toNat

/-- One cycle of the 200 MHz clock: the scale advances by TB.INCR and the present slew while the time base runs (R122, R134); waiting
frames leave their outputs when these become free (R103). -/
def State.cycle (s : State) : State :=
  let t := s.time
  let slew := if t.switched then 0 else t.slew
  let t := { t with cycles := t.cycles + 1, switched := false, stepNext := none }
  let t := if s.timeRuns then { t with scale := ((t.scale : Int) + s.incr + slew).toNat } else t
  let step := s.time.stepNext
  let s := { s with time := t, sys := { s.sys with setNow := [] } }
  let s := match step with
    | some v => if s.timeRuns then (s.stepScale v).set TB.STAT.ALIGNED 1 else s
    | none => s
  (s.link.lanes.foldl (fun s e => s.drainLane e.1 (e.2.buffer.length + e.2.waiting.length)) s).replyContexts s

/-! ## Offsets -/

/-- A full difference in the signed 32-bit register, saturated at ±(2^31 − 1) (R133). -/
def offReg (d : Int) : Nat := ofSigned 32 (clampI (-(2 ^ 31 - 1)) (2 ^ 31 - 1) d)

/-- The full difference of domain `x` (0 A, 1 B); 0 before its first accepted frame. -/
def State.fullOff (s : State) (x : Nat) : Int := ((if x = 0 then s.time.offA else s.time.offB).getD 0)

/-- A frame of domain `x` accepted: the domain is valid, and hold ends (R138, R141, R148). -/
def State.domainSeen (s : State) (x : Nat) : State :=
  let s := { s with time := if x = 0 then { s.time with lastA := some s.time.cycles } else { s.time with lastB := some s.time.cycles } }
  let s := if x = 0 then (s.inc TB.TACCA.COUNT).set TB.STAT.VALIDA 1 else (s.inc TB.TACCB.COUNT).set TB.STAT.VALIDB 1
  s.set TB.STAT.HOLD 0

/-- The full difference of domain `x` measured (R133). -/
def State.setOff (s : State) (x : Nat) (d : Int) : State :=
  let s := { s with time := if x = 0 then { s.time with offA := some d } else { s.time with offB := some d } }
  let s := if x = 0 then s.set TB.OFFA.OFF (offReg d) else s.set TB.OFFB.OFF (offReg d)
  if d < -(2 ^ 31 - 1) ∨ 2 ^ 31 - 1 < d then s.stick TB.STAT.OFFSAT else s

/-- TB.HANDOFF set (R140). -/
def State.setHandoff (s : State) (h : Int) : State :=
  { s with time := { s.time with handoff := h } }.set TB.HANDOFF.OFF (offReg h)

/-- The governing domain. -/
def State.gov (s : State) : Nat := s.get TB.STAT.GOV

/-- 1 µs in 2⁻¹⁶ ns. -/
def oneMicro : Int := 65536000

/-- The correction of R134 for alignment error `e`. -/
def State.correct (s : State) (e : Int) : State :=
  let big := decide (oneMicro < e) || decide (e < -oneMicro)
  let lim : Int := (s.incr * 10 / 1000000 : Nat)
  -- after a step no error is left
  let stepped := !s.flag TB.STAT.ALIGNED || (big && !s.inRun)
  let s := s.setFlag TB.STAT.LIVE (big && !stepped)
  if stepped then
    { (s.stepBy e).set TB.STAT.ALIGNED 1 with time := { (s.stepBy e).time with slew := 0 } }
  else if big then
    { s.stick TB.STAT.OFFBIG with time := { s.time with slew := if 0 < e then lim else -lim } }
  else
    { s with time := { s.time with slew := clampI (-lim) lim (e * 256 / s.tu) } }

/-- HANDOFF moved towards 0 by at most 32 768 units (R140). -/
def State.decayHandoff (s : State) : State :=
  let h := s.time.handoff
  s.setHandoff (if h > 32768 then h - 32768 else if h < -32768 then h + 32768 else 0)

/-! ## Time frames -/

/-- The domain that a Time frame belongs to, when R132 lets this device take it by origin. -/
def State.frameDomain (s : State) (f : Frame) : Option Nat :=
  let dom := f.field 6 0 1
  let org := f.field 6 2 2
  if (dom = 0 ∧ org = 0x7E00) ∨ (dom = 1 ∧ org = 0x7E01) then some dom
  else if org = addrHost ∧ (s.cnv.noCentral || s.basecamp) ∧ dom ≤ 1 then some dom
  else none

/-- The Time frame moves this device's own time (R130, R133 to R135): the offset of its domain; a cell or hub takes INCR and corrects its
time by a frame of the governing domain. `age` is the time since its SOF arrived, in 78.125 ps. -/
def State.measureTime (s : State) (n x : Nat) (f : Frame) (age : Nat) : State :=
  let domTime : Int := (((leAt f.body 8 6) * 10 ^ 9 + f.field 3 0 4 % 2 ^ 30) * 65536 : Nat) + toSigned 64 (f.field 4 0 8) +
    s.inboundDelay n
  let localTime : Int := (s.stampFine : Int) - age * 5120
  let d := domTime - localTime
  if s.isCentral then
    -- its own offset reads 0, and it never steers (R135)
    if x = s.member then s else s.setOff x d
  else
    let s := s.setOff x d
    if x = s.gov then
      let s := s.setPair TB.INCR_LO.FRAC TB.INCR_HI.NS (f.field 5 0 8)
      s.correct (d - s.time.handoff)
    else s

/-- An accepted Time frame of domain `x`, while the time base runs (R137): validity, this device's own time, and the decay of the handoff (R140). -/
def State.takeTime (s : State) (n x : Nat) (f : Frame) (age : Nat) : State :=
  if !s.timeRuns then s
  else
    let s := (s.domainSeen x).measureTime n x f age
    if x = s.gov then (s.event 4 8 n).decayHandoff else s

/-- The lanes onto which this device relays an accepted Time frame (R107, R131). -/
def State.timeRelay (s : State) (n : Nat) (f : Frame) : List Nat :=
  if s.isHub && s.isTrunkLane n then s.rings
  else if s.isCentral && n == s.crossLane && f.field 6 2 2 == s.partner then [2, 3, 4, 5, 6, 7]
  else []

/-- A relayed Time frame leaves `lane`: HOP one higher, CORR with the inbound delay and the residence up to now (R99). -/
def State.relayTime (s : State) (n : Nat) (f : Frame) (age : Nat) (lane : Nat) : State :=
  let f := addCorr f (s.inboundDelay n + (age * 5120 : Nat))
  s.originate lane { passOn f false with dir := s.launchDir lane }

/-- Reception of a Time frame (R132): forwarded where the lane forwards; the first copy of each (ORIGIN, TICK) with valid origin and
INCR is accepted, later copies are counted in DUPDROP. Of two copies that complete in one cycle the one on the lower lane is measured, the other
counted, in whichever order the two arrive here. -/
def State.timeFrame (s : State) (n : Nat) (f : Frame) (age : Nat) : State :=
  let r := s.arrive n f
  let s := r.2
  if !r.1 || s.inReset then s
  else
    match s.frameDomain f with
    | none => s
    | some x =>
      if !incrOk (f.field 5 0 8) then s
      else
        let key := (f.field 6 2 2, f.field 1 0 8)
        let at_ := s.time.acceptedAt
        if s.time.accepted.head? == some key && at_.1 == s.time.cycles && decide (n < at_.2) then
          let s := { s.inc (LNK.DUPDROP.COUNT at_.2) with time := { s.time with acceptedAt := (s.time.cycles, n) } }
          if s.timeRuns then s.measureTime n x f age else s
        else if s.time.accepted.contains key then s.inc (LNK.DUPDROP.COUNT n)
        else
          let s := { s with time := { s.time with accepted := key :: s.time.accepted, acceptedAt := (s.time.cycles, n) } }
          let s := (s.timeRelay n f).foldl (fun s l => s.relayTime n f age l) s
          s.takeTime n x f age

/-- The body of a central's own Time frame (R98): the tick, whole seconds, nanoseconds and short count of its local time, CORR 0, its increment,
domain and address. -/
def State.timeBody (s : State) : List Byte :=
  toLE 8 s.tick ++ toLE 6 s.secNow ++ [0, 0] ++ toLE 4 s.nsecNow ++ toLE 4 s.short ++ zeroB 8 ++ toLE 8 s.incr ++ toLE 1 s.member ++ [0] ++
    toLE 2 s.address ++ zeroB 4

/-- The instant k·T of a tick k with k mod 256 = 0 fires at a central whose time base is aligned, at either rate (R131, R142). -/
def State.launchesTime (s : State) : Bool :=
  s.isCentral && s.flag TB.STAT.ALIGNED && decide (s.power ≤ 1) && !s.inReset && s.pwm.halted == 0 && s.tick % 256 == 0

/-- A central launches its own Time frame on every trunk lane and on its cross-link (R98, R131). -/
def State.launchTime (s : State) : State :=
  if s.launchesTime then
    [1, 2, 3, 4, 5, 6, 7].foldl (fun t l => t.originate l (s.newFrame ftTime (s.launchDir l) addrAll s.timeBody)) s
  else s

/-! ## Domains -/

/-- No frame of domain `x` for 768 · T_u cycles (R138). -/
def State.domainStale (s : State) (x : Nat) : Bool :=
  match (if x = 0 then s.time.lastA else s.time.lastB) with
  | none => true
  | some c => decide (c + 768 * s.tu ≤ s.time.cycles)

/-- VALID of domain `x` clears; with neither domain valid the device holds: it keeps INCR and stops slewing (R141). After a cold reset HOLD keeps
its listed 0 until the first expiry comes here (DESIGN CHOICE, log entry 156). -/
def State.expireDomain (s : State) (x : Nat) : State :=
  if !s.domainStale x then s else
  let s := s.set (if x = 0 then TB.STAT.VALIDA else TB.STAT.VALIDB) 0
  if !s.flag TB.STAT.VALIDA && !s.flag TB.STAT.VALIDB then
    { s.set TB.STAT.HOLD 1 with time := { s.time with slew := 0 } }
  else s

/-- The governing domain becomes `x` (R140): the alignment error stays unchanged, and no step or slew happens in this cycle. -/
def State.switchDomain (s : State) (x : Nat) : State :=
  let h := if s.flag TB.STAT.ALIGNED then s.fullOff x - s.fullOff s.gov + s.time.handoff else 0
  let s := ((s.setHandoff h).set TB.STAT.GOV x).stick TB.STAT.SWITCHED
  { s with time := { s.time with switched := true } }

/-- The switch instant (R139): an armed switch whose tick has come, else the automatic switch to the only valid domain. -/
def State.domainInstant (s : State) : State :=
  let valid (x : Nat) := s.flag (if x = 0 then TB.STAT.VALIDA else TB.STAT.VALIDB)
  if s.flag TB.DOMSW.ARMED && decide (s.time.switchTick ≤ s.tick) then
    let x := s.get TB.DOMSW.TARGET
    let s := s.set TB.DOMSW.ARMED 0
    if x = s.gov then s else s.switchDomain x
  else if s.flag TB.CTRL.AUTOSW && !valid s.gov && valid (1 - s.gov) then s.switchDomain (1 - s.gov)
  else s

/-- TB.DOMSW.ARM written (R139). A refused arming leaves an earlier one in force (DESIGN CHOICE, log entry 157). -/
def State.domswArm (s : State) : State :=
  let seq := s.get TB.DOMSW.SEQ
  if farEnough s.tick seq then
    { s.set TB.DOMSW.ARMED 1 with time := { s.time with switchTick := namedTick s.tick seq } }
  else s.stick TB.DOMSW.LATE

/-! ## A central's time -/

/-- TB.INCR_HI written on a central: the held fraction and the new integer part are committed together, or refused (R128, R129). A
refused commit uses up the held fraction (DESIGN CHOICE, log entry 158). -/
def State.incrCommit (s : State) (hi : Nat) : State :=
  let lo := s.time.incrHeld.getD (s.get TB.INCR_LO.FRAC)
  let v := hi * 2 ^ 32 + lo
  let old := s.incr
  let s := { s with time := { s.time with incrHeld := none } }
  if incrOk v && decide (v ≤ old + 0x53E3) && decide (old ≤ v + 0x53E3) then s.setPair TB.INCR_LO.FRAC TB.INCR_HI.NS v
  else s.stick TB.STAT.INCRERR

/-- TB.SETCMD.STEP written (R135): a central outside Run takes the SET values, with a low word of the seconds that is still held (R395), and is
aligned, in the next cycle. -/
def State.stepCmd (s : State) : State :=
  if !s.isCentral then s
  else if s.inRun then s.stick TB.STAT.STEPERR
  else
    let h := SMap.get 0 s.sys.held TB.SETSEC_LO.SEC.addr
    let s : State := if h = 0 then s
      else { s.set TB.SETSEC_LO.SEC (h - 1) with sys := { s.sys with held := SMap.set 0 s.sys.held TB.SETSEC_LO.SEC.addr 0 } }
    let sec := s.getPair TB.SETSEC_LO.SEC TB.SETSEC_HI.SEC
    { s with time := { s.time with stepNext := some ((sec * 10 ^ 9 + s.get TB.SETNS.NS) * nsUnit) } }

/-- TB.SNAP.CAPTURE written: the time-base values of one cycle (R127). -/
def State.snapshot (s : State) : State :=
  let s := (s.set TB.SNAP_SHORT.COUNT s.short).set TB.SNAP_FRAC.FRAC (s.stamp % 64)
  let s := (s.set TB.SNAP_NSEC.NS s.nsecNow).setPair TB.SNAP_SEC_LO.SEC TB.SNAP_SEC_HI.SEC (s.secNow % 2 ^ 48)
  s.setPair TB.SNAP_TICK_LO.TICK TB.SNAP_TICK_HI.TICK (s.tick % 2 ^ 64)

end Sys2Proof.Machine
end

