-- ==== Sys2Proof/Machine/Arms.lean ====
section
/-!
DEFINITION. Machine/Arms.lean: segments, arms and leadership as a hub or central knows them (R29, R30, R169, R300, R354), and the debug-halt
and reset conditions under which only the always-on forwarder works (R117, R118).
-/

namespace Sys2Proof.Machine

/-- Member states (R353). -/
def rsForming : Nat := 0
def rsPrimary : Nat := 1
def rsStandby : Nat := 2
def rsJoining : Nat := 3
def rsIsolated : Nat := 4
def rsTagmis : Nat := 5

def State.redState (s : State) : Nat := s.get RED.STAT.STATE

/-- The member serves (R354). -/
def State.serves (s : State) : Bool := s.redState == rsPrimary || s.redState == rsStandby

/-- The arm of a segment by ARMTABLE; 0xFF: none (R29). -/
def State.armOf (s : State) (seg : Nat) : Nat := s.cnv.arms.getD seg 0xFF

/-- The segments of an arm, ascending. -/
def State.armSegments (s : State) (arm : Nat) : List Nat := (List.range 24).filter (fun j => s.armOf j == arm && arm != 0xFF)

/-- The hub at `addr` serves: its own state, the partner's latest heartbeat, or the ACTIVE bit of a trunk Tally entry of this tick or the
previous one (R300, R354). -/
def State.hubServes (s : State) (addr : Nat) : Bool :=
  if addr = s.address then s.serves
  else if s.isHub && addr == s.partner then s.flag RED.STAT.PSERVE
  else
    let h := SMap.get {} s.scr.hubs (addr - 0x7C00)
    h.hb.testBit 1 && decide (s.tick ≤ h.tick + 1)

/-- A segment is active when at least one member of its hub pair serves (R169). -/
def State.segActive (s : State) (j : Nat) : Bool := s.hubServes (0x7C00 + 2 * j) || s.hubServes (0x7C01 + 2 * j)

/-- The active segments of this hub's arm, ascending. -/
def State.activeSegments (s : State) : List Nat := (s.armSegments (s.armOf s.segment)).filter s.segActive

/-- This pair acts as arm leader (R30). -/
def State.leads (s : State) : Bool := s.activeSegments.head? == some s.segment

/-- A core of the device is halted for debug (R202). -/
def State.halted (s : State) : Bool := s.pwm.halted != 0

/-- Only the always-on forwarder works: the device is in reset, or its cores are halted (R117, R118). -/
def State.forwarderOnly (s : State) : Bool := s.inReset || s.halted

end Sys2Proof.Machine
end

