-- ==== Sys2Proof/Machine/Checkers.lean ====
section
/-!
DEFINITION. Machine/Checkers.lean: SEC-DED memory as its checkers see it (R430, R431, R433, R436, R437, R439): marks of damaged words, what a
read finds, what a write leaves.
-/

namespace Sys2Proof.Machine

/-! ## Capture -/

/-- The CRIT reset source for an error in critical state (R403, R434). -/
def State.critReset (s : State) : State :=
  if s.flag RST.CFG.CRITEN then
    (s.inc RST.CRITCNT.COUNT).assertReset 3 (if s.flag RST.CFG.CRITREACH then 3 else 2) 0
  else s

/-- An injected error has been detected, or a real one stood beside it (R437). -/
def State.injectionSeen (s : State) (injected masked : Bool) : State :=
  if injected then (s.stick SYS.INJSTAT.INJHIT).inc SYS.INJCNT.COUNT
  else if masked then s.stick SYS.INJSTAT.INJ_MASKED else s

/-- The marks of a memory: 0 system SRAM, 1 capture SRAM, 2 + e engine e (key e · 2^20 + word). -/
def State.marks (s : State) (mem : Nat) : SMap EccMark :=
  if mem = 0 then s.sys.eccSys else if mem = 1 then s.sys.eccCap else s.sys.eccEng

def State.setMarks (s : State) (mem : Nat) (m : SMap EccMark) : State :=
  if mem = 0 then { s with sys := { s.sys with eccSys := m } }
  else if mem = 1 then { s with sys := { s.sys with eccCap := m } }
  else { s with sys := { s.sys with eccEng := m } }

def markKey (mem w : Nat) : Nat := if mem < 2 then w else (mem - 2) * 2 ^ 20 + w

/-- The address that a capture set records: a local address, or the word index of an engine memory. -/
def captureAddr (mem w : Nat) : Nat := if mem = 0 then sramBase + 8 * w else if mem = 1 then capBase + 8 * w else w

/-! The 64-bit words of an engine's memory (R264). Their order is the model's (DESIGN CHOICE, log entry 170): 16 384 words of delay memory,
then 512 for each context: 256 of the two banks, 128 of state, 32 of slots, 48 descriptors, 8 of routing and 8 of destinations. -/

/-- The memory of a context begins here. -/
def ctxWords (c : Nat) : Nat := 0x4000 + 512 * (c % 32)
def delayWord (a : Nat) : Nat := a % 32768 / 2
def coefWord (c k : Nat) : Nat := ctxWords c + k % 512 / 2
def stateWordOf (c k : Nat) : Nat := ctxWords c + 256 + k % 256 / 2
def slotWordOf (c i : Nat) : Nat := ctxWords c + 384 + i % 64 / 2
def descWord (c i : Nat) : Nat := ctxWords c + 416 + i % 48
def routeWord (c i : Nat) : Nat := ctxWords c + 464 + i % 16 / 2
def destWord (c i : Nat) : Nat := ctxWords c + 472 + i % 8

/-- The word lies in SEC-DED critical state (R433): programs, routing, destinations and banks of an engine, or the active canvas copy. -/
def criticalWord (mem w : Nat) : Bool :=
  (decide (2 ≤ mem) && decide (0x4000 ≤ w) && (decide (w % 512 < 256) || decide (416 ≤ w % 512))) ||
    (mem == 0 && decide (cnvActive ≤ sramBase + 8 * w) && decide (sramBase + 8 * w < cnvStaging))

/-- An uncorrectable error in record slot `i` (R323, R348). -/
def State.damage (s : State) (i : Nat) : State := (s.setSlotState i 4).raise (srcGEO 4)

/-- The slot that holds word `w` of capture SRAM is damaged, when it holds a record or one is being made (R323). -/
def State.damageAt (s : State) (w : Nat) : State :=
  let i := 8 * w / s.slotSize
  if s.runs bGEO && s.slotState i != 0 then s.damage i else s

/-- Root cycles of one cycle of a memory's checker (R439): the system bus (R381), or the engine (R263). -/
def State.checkerRoot (s : State) (mem : Nat) : Nat := if mem < 2 then s.get CLK.DIV.BUSDIV else 3

/-- A read of word `w` checked (R430, R431, R437, R439); `agent`: 0 core or remote, 1 scrubber, 2 hardware reader; `many`: the command reads
other words too. Answers UE. The code is not given in the spec, so the syndrome is a free value. An error within the handling window is lost:
the word stays as it is. -/
def State.checkWord (s : State) (mem w agent : Nat) (many : Bool) : Bool × State :=
  let m := SMap.get (⟨0, 0⟩ : EccMark) (s.marks mem) (markKey mem w)
  let n := m.inj + m.real
  let r := if n = 0 then (false, s) else s.errorLost (if mem < 2 then mem else 2) (s.checkerRoot mem) many
  if n = 0 ∨ r.1 then (decide (2 ≤ n), r.2)
  else
    let s := r.2
    let set_ := if mem < 2 then mem else 2
    let injected := m.real == 0
    let ue := decide (2 ≤ n)
    let s := s.injectionSeen injected (m.inj != 0 && m.real != 0)
    let d := s.draw 8
    let s := (d.2.set (SYS.ECC_ADDR.ADDR set_) (captureAddr mem w)).set (SYS.ECC_INFO.SYN set_) d.1
    let s := (s.setFlag (SYS.ECC_INFO.UE set_) ue).setFlag (SYS.ECC_INFO.INJ set_) injected
    let s := (s.set (SYS.ECC_INFO.AGENT set_) agent).set (SYS.ECC_INFO.ENGINE set_) (mem - 2)
    if ue then
      let s := s.inc (SYS.ECC_UECNT.COUNT set_)
      if criticalWord mem w then (true, (s.raiseMany [srcSYS 1, srcSYS 4]).critReset)
      else (true, (if mem = 1 then s.damageAt w else s).raise (srcSYS 1))
    else
      let s := s.inc (SYS.ECC_CECNT.COUNT set_)
      let s := s.setMarks mem (SMap.erase (s.marks mem) (markKey mem w))
      (false, s.raise (srcSYS 0))

/-- The words of a byte range checked for a reader; answers whether any is uncorrectable. Only words with a mark need a look. -/
def State.checkRange (s : State) (mem a n agent : Nat) : Bool × State :=
  let base := if mem = 0 then sramBase else capBase
  let lo := (a - base) / 8
  let hi := (a + n - 1 - base) / 8
  if n = 0 then (false, s)
  else
    let ws := ((s.marks mem).filter (fun e => decide (lo ≤ e.1) && decide (e.1 ≤ hi))).map (fun e => e.1)
    ws.foldl (fun r w => let x := r.2.checkWord mem w agent (decide (lo < hi)); (r.1 || x.1, x.2)) (false, s)

/-- The words of engine `e` that a reader takes, checked. -/
def State.engineRead (s : State) (e : Nat) (reads : Nat → Bool) : State :=
  let ws := ((s.sys.eccEng.filter (fun x => x.1 / 2 ^ 20 == e)).map (fun x => x.1 % 2 ^ 20)).filter reads
  ws.foldl (fun s w => (s.checkWord (2 + e) w 2 true).2) s

/-- Whole words of engine `e` written: their check bits are good, unless an armed injection names one (R436). -/
def State.engineStored (s : State) (e : Nat) (stored : Nat → Bool) : State :=
  let m := s.sys.eccEng.filter (fun x => !(x.1 / 2 ^ 20 == e && stored (x.1 % 2 ^ 20)))
  let a := s.get SYS.INJADDR.ADDR
  let hit := s.flag SYS.INJCTL.ARMED && s.get SYS.INJCTL.TARGET == 2 + e && decide (a < 0x8000) && stored a
  let m := if hit then SMap.set ⟨0, 0⟩ m (e * 2 ^ 20 + a) ⟨1 + s.get SYS.INJCTL.DOUBLE, 0⟩ else m
  let s := if hit then s.set SYS.INJCTL.ARMED 0 else s
  { s with sys := { s.sys with eccEng := m } }

/-- Halves of words of engine `e` written (R430): each word is read and checked first, and an uncorrectable error cancels its write. Answers
the words not written. -/
def State.enginePart (s : State) (e agent : Nat) (stored : Nat → Bool) : List Nat × State :=
  let ws := ((s.sys.eccEng.filter (fun x => x.1 / 2 ^ 20 == e)).map (fun x => x.1 % 2 ^ 20)).filter stored
  let r := ws.foldl (fun (r : List Nat × State) w => let x := r.2.checkWord (2 + e) w agent true; (if x.1 then w :: r.1 else r.1, x.2))
    ([], s)
  (r.1, r.2.engineStored e (fun w => stored w && !r.1.contains w))

end Sys2Proof.Machine
end

