-- ==== Sys2Proof/Machine/Float.lean ====
section
/-!
DEFINITION. Machine/Float.lean: IEEE 754 binary32 and binary64 arithmetic, exactly: decode to a signed dyadic number, compute, round once
to nearest with ties to even (R228, R265). Nothing here is a machine float: every operation is on natural numbers.
-/

namespace Sys2Proof.Machine

/-- A binary interchange format: stored fraction bits, exponent bits. -/
structure FpFmt where
  frac : Nat
  expo : Nat
  deriving DecidableEq, Repr

def fmt32 : FpFmt := ⟨23, 8⟩
def fmt64 : FpFmt := ⟨52, 11⟩

/-- The exponent bias of a format. -/
def FpFmt.bias (f : FpFmt) : Nat := 2 ^ (f.expo - 1) - 1

/-- The largest exponent field, that of infinities and NaNs. -/
def FpFmt.emax (f : FpFmt) : Nat := 2 ^ f.expo - 1

/-- A decoded number: `fin neg m e` is (−1)^neg · m · 2^e. -/
inductive Fp where
  | nan
  | inf (neg : Bool)
  | fin (neg : Bool) (m : Nat) (e : Int)
  deriving DecidableEq, Repr

/-- The quiet NaN of a format: 0x7FC0_0000 in binary32 (R223). -/
def qnan (f : FpFmt) : Nat := f.emax * 2 ^ f.frac + 2 ^ (f.frac - 1)

/-- The number that the bits `x` hold. -/
def fpDecode (f : FpFmt) (x : Nat) : Fp :=
  let neg := x.testBit (f.frac + f.expo)
  let ex := x / 2 ^ f.frac % 2 ^ f.expo
  let fr := x % 2 ^ f.frac
  if ex = f.emax then (if fr = 0 then .inf neg else .nan)
  else if ex = 0 then .fin neg fr (1 - f.bias - f.frac)
  else .fin neg (2 ^ f.frac + fr) (ex - f.bias - f.frac)

/-- The sign bit of a format. -/
def fpSign (f : FpFmt) (neg : Bool) : Nat := if neg then 2 ^ (f.frac + f.expo) else 0

/-- The bits of (−1)^neg · (m + θ) · 2^e rounded to nearest, ties to even; θ is 0 when `sticky` is false and a value strictly
between 0 and 1 when it is true. -/
def fpRound (f : FpFmt) (neg : Bool) (m : Nat) (e : Int) (sticky : Bool) : Nat :=
  if m = 0 then fpSign f neg
  else
    -- two guard bits below the quotient keep `sticky` below every rounding point
    let m4 := 4 * m + bit sticky
    let e4 := e - 2
    let top := e4 + (Nat.log2 m4 : Int)
    let emin : Int := 1 - f.bias - f.frac
    let ee := if top - f.frac < emin then emin else top - f.frac
    let sh := ee - e4
    let q := if sh ≤ 0 then m4 * 2 ^ (-sh).toNat
      else
        let d := 2 ^ sh.toNat
        let q := m4 / d
        let r := m4 % d
        if 2 * r < d then q else if 2 * r > d then q + 1 else q + q % 2
    -- q < 2^(frac+1) is stored with the exponent field of ee; the carry of a rounding runs into the field by itself
    let field := (ee - emin).toNat * 2 ^ f.frac + q
    if field ≥ f.emax * 2 ^ f.frac then fpSign f neg + f.emax * 2 ^ f.frac
    else fpSign f neg + field

/-- The bits of a decoded number. -/
def fpEncode (f : FpFmt) : Fp → Nat
  | .nan => qnan f
  | .inf neg => fpSign f neg + f.emax * 2 ^ f.frac
  | .fin neg m e => fpRound f neg m e false

/-- The exact sum; an exact zero is +0 unless both operands are −0. -/
def fpAdd : Fp → Fp → Fp
  | .nan, _ => .nan
  | _, .nan => .nan
  | .inf a, .inf b => if a = b then .inf a else .nan
  | .inf a, .fin _ _ _ => .inf a
  | .fin _ _ _, .inf b => .inf b
  | .fin na ma ea, .fin nb mb eb =>
    let e := if ea ≤ eb then ea else eb
    let a : Int := (if na then -1 else 1) * (ma * 2 ^ (ea - e).toNat : Nat)
    let b : Int := (if nb then -1 else 1) * (mb * 2 ^ (eb - e).toNat : Nat)
    let s := a + b
    if s = 0 then .fin (na && nb) 0 e else .fin (decide (s < 0)) s.natAbs e

def fpNeg : Fp → Fp
  | .nan => .nan
  | .inf n => .inf (!n)
  | .fin n m e => .fin (!n) m e

/-- The exact product. -/
def fpMul : Fp → Fp → Fp
  | .nan, _ => .nan
  | _, .nan => .nan
  | .inf a, .inf b => .inf (a != b)
  | .inf a, .fin b m _ => if m = 0 then .nan else .inf (a != b)
  | .fin a m _, .inf b => if m = 0 then .nan else .inf (a != b)
  | .fin a m e, .fin b k g => .fin (a != b) (m * k) (e + g)

/-- The rounded quotient. -/
def fpDivBits (f : FpFmt) : Fp → Fp → Nat
  | .nan, _ => qnan f
  | _, .nan => qnan f
  | .inf _, .inf _ => qnan f
  | .inf a, .fin b _ _ => fpEncode f (.inf (a != b))
  | .fin a _ _, .inf b => fpSign f (a != b)
  | .fin a m e, .fin b k g =>
    if k = 0 then (if m = 0 then qnan f else fpEncode f (.inf (a != b)))
    else
      let n := m * 2 ^ (2 * f.frac + 8)
      fpRound f (a != b) (n / k) (e - g - (2 * f.frac + 8 : Nat)) (decide (n % k ≠ 0))

/-- Integer square root, most significant bit first. -/
def natSqrt (n : Nat) : Nat :=
  (List.range (Nat.log2 n / 2 + 1)).reverse.foldl (fun r k => if (r + 2 ^ k) * (r + 2 ^ k) ≤ n then r + 2 ^ k else r) 0

/-- The rounded square root. -/
def fpSqrtBits (f : FpFmt) : Fp → Nat
  | .nan => qnan f
  | .inf neg => if neg then qnan f else fpEncode f (.inf false)
  | .fin neg m e =>
    if m = 0 then fpSign f neg
    else if neg then qnan f
    else
      let odd := e % 2 ≠ 0
      let n := (if odd then 2 * m else m) * 2 ^ (2 * (f.frac + 4))
      let h := ((if odd then e - 1 else e) / 2) - (f.frac + 4 : Nat)
      let r := natSqrt n
      fpRound f false r h (decide (r * r ≠ n))

/-- a < b; false with a NaN. −0 and +0 are equal (R265). -/
def fpLt : Fp → Fp → Bool
  | .nan, _ => false
  | _, .nan => false
  | .inf a, .inf b => a && !b
  | .inf a, .fin _ _ _ => a
  | .fin _ _ _, .inf b => !b
  | .fin na ma ea, .fin nb mb eb =>
    let e := if ea ≤ eb then ea else eb
    let a : Int := (if na then -1 else 1) * (ma * 2 ^ (ea - e).toNat : Nat)
    let b : Int := (if nb then -1 else 1) * (mb * 2 ^ (eb - e).toNat : Nat)
    decide (a < b)

/-- The bits of the rational n / d rounded to nearest, ties to even. -/
def fpOfRat (f : FpFmt) (n : Int) (d : Nat) : Nat :=
  if d = 0 then qnan f
  else
    let sh := 2 * f.frac + 8 + Nat.log2 d
    let a := n.natAbs * 2 ^ sh
    fpRound f (decide (n < 0)) (a / d) (-(sh : Int)) (decide (a % d ≠ 0))

/-- The numerator and denominator of a finite number. -/
def fpToRat : Fp → Option (Int × Nat)
  | .fin neg m e =>
    let s : Int := if neg then -1 else 1
    if 0 ≤ e then some (s * (m * 2 ^ e.toNat : Nat), 1) else some (s * (m : Nat), 2 ^ (-e).toNat)
  | _ => none

/-! Operations on the 32-bit words of registers. -/

/-- The number a binary32 word holds. -/
def f32 (x : Nat) : Fp := fpDecode fmt32 x

/-- A binary32 value as a binary64 value is the same dyadic number; binary64 results are rounded by `fpEncode fmt64`. -/
def f64 (x : Nat) : Fp := fpDecode fmt64 x

def f32add (a b : Nat) : Nat := fpEncode fmt32 (fpAdd (f32 a) (f32 b))
def f32sub (a b : Nat) : Nat := fpEncode fmt32 (fpAdd (f32 a) (fpNeg (f32 b)))
def f32mul (a b : Nat) : Nat := fpEncode fmt32 (fpMul (f32 a) (f32 b))
def f32div (a b : Nat) : Nat := fpDivBits fmt32 (f32 a) (f32 b)
def f32lt (a b : Nat) : Bool := fpLt (f32 a) (f32 b)
def f32le (a b : Nat) : Bool := fpLt (f32 a) (f32 b) || (!fpLt (f32 b) (f32 a) && f32 a != .nan && f32 b != .nan)
def f32abs (a : Nat) : Nat := a % 2 ^ 31
def f32neg (a : Nat) : Nat := (a + 2 ^ 31) % 2 ^ 32
def f32nan : Nat := 0x7FC00000
/-- An integer rounded to binary32. -/
def f32ofInt (i : Int) : Nat := fpOfRat fmt32 i 1

/-- Neither infinite nor NaN. -/
def f32finite (a : Nat) : Bool := a / 2 ^ 23 % 256 != 255

def f64add (a b : Nat) : Nat := fpEncode fmt64 (fpAdd (f64 a) (f64 b))
def f64sub (a b : Nat) : Nat := fpEncode fmt64 (fpAdd (f64 a) (fpNeg (f64 b)))
def f64mul (a b : Nat) : Nat := fpEncode fmt64 (fpMul (f64 a) (f64 b))
def f64div (a b : Nat) : Nat := fpDivBits fmt64 (f64 a) (f64 b)
def f64sqrt (a : Nat) : Nat := fpSqrtBits fmt64 (f64 a)
def f64lt (a b : Nat) : Bool := fpLt (f64 a) (f64 b)
def f64ofInt (i : Int) : Nat := fpOfRat fmt64 i 1

/-- binary32 to binary64 is exact; binary64 to binary32 rounds to nearest, ties to even. -/
def f32to64 (a : Nat) : Nat := fpEncode fmt64 (f32 a)
def f64to32 (a : Nat) : Nat := fpEncode fmt32 (f64 a)

/-- A subnormal word replaced by zero of the same sign (R265). -/
def f32ftz (a : Nat) : Nat := if a / 2 ^ 23 % 256 = 0 then a / 2 ^ 31 % 2 * 2 ^ 31 else a

/-- Rounding of a finite number to an integer: to nearest, ties to even; NaN and infinities answer none. -/
def fpToIntEven (x : Fp) : Option Int := (fpToRat x).map (fun r => divRoundEven r.1 r.2)

/-- Rounding to nearest, ties away from zero. -/
def fpToIntAway (x : Fp) : Option Int :=
  (fpToRat x).map (fun r => if r.1 < 0 then -divRoundHalfUp (-r.1) r.2 else divRoundHalfUp r.1 r.2)

/-- Truncation towards zero. -/
def fpTrunc (x : Fp) : Option Int :=
  (fpToRat x).map (fun r => if r.1 < 0 then -((-r.1) / r.2) else r.1 / r.2)

end Sys2Proof.Machine
end

