-- ==== Sys2Proof/Machine/Engine.lean ====
section
/-!
DEFINITION. Machine/Engine.lean: one run of a loop-engine context as a pure computation (R265 to R281, R288): the descriptors over slots,
coefficients, state words and delay memory. Words are binary32 bit patterns as natural numbers.
-/

namespace Sys2Proof.Machine

/-! Arithmetic of R265: every result rounded once, subnormal operands and results replaced by zero of the same sign. -/

def lAdd (a b : Nat) : Nat := f32ftz (f32add (f32ftz a) (f32ftz b))
def lSub (a b : Nat) : Nat := f32ftz (f32sub (f32ftz a) (f32ftz b))
def lMul (a b : Nat) : Nat := f32ftz (f32mul (f32ftz a) (f32ftz b))
def lDiv (a b : Nat) : Nat := f32ftz (f32div (f32ftz a) (f32ftz b))
def lLt (a b : Nat) : Bool := f32lt (f32ftz a) (f32ftz b)

/-- clamp of R265. -/
def lClamp (x lo hi : Nat) : Nat := if lLt x lo then f32ftz lo else if lLt hi x then f32ftz hi else f32ftz x

/-- The fields of a block descriptor (R272). -/
structure Desc where
  ty : Nat
  out : Nat
  in0 : Nat
  in1 : Nat
  in2 : Nat
  in3 : Nat
  coef : Nat
  st : Nat
  flags : Nat
  deriving DecidableEq, Repr

/-- The 64-bit word of a descriptor taken apart (R272). -/
def descOf (d : Nat) : Desc :=
  ⟨d % 64, d / 2 ^ 6 % 64, d / 2 ^ 12 % 64, d / 2 ^ 18 % 64, d / 2 ^ 24 % 64, d / 2 ^ 30 % 64, d / 2 ^ 36 % 256,
    d / 2 ^ 44 % 256, d / 2 ^ 52 % 4096⟩

/-- How a swap run treats the integrators (R288); `none` without a swap or after a RESETST at the same latch (R289). -/
abbrev SwapPolicy := Option Nat

/-- A run in progress: slots, state words, the engine's delay memory, what the run has written there, and its flags. -/
structure Eng where
  coef : SMap Nat
  /-- base key of the active bank in `coef` -/
  bank : Nat
  slots : SMap Nat
  /-- slots and state words before the run (R271, R277) -/
  slots0 : SMap Nat
  st : SMap Nat
  st0 : SMap Nat
  mem : SMap Nat
  memBase : Nat
  delay : List (Nat × Nat) := []
  /-- words of delay memory read -/
  reads : List Nat := []
  policy : SwapPolicy := none
  fresh : Bool := false
  /-- PI and PID blocks that wait for their update phase: descriptor, e, v, u -/
  upd : List (Desc × Nat × Nat × Nat) := []
  arith : Bool := false
  satswap : Bool := false
  anySat : Bool := false
  plausSet : Bool := false
  plausLive : Bool := false
  ramping : Bool := false
  win : Option Nat := none
  deriving DecidableEq, Repr

def Eng.slot (g : Eng) (i : Nat) : Nat := if i = 0 then 0 else SMap.get 0 g.slots i
def Eng.c (g : Eng) (d : Desc) (k : Nat) : Nat := SMap.get 0 g.coef (g.bank + (d.coef + k) % 256)
def Eng.s (g : Eng) (d : Desc) (k : Nat) : Nat := SMap.get 0 g.st ((d.st + k) % 256)
def Eng.setS (g : Eng) (d : Desc) (k v : Nat) : Eng := { g with st := SMap.set 0 g.st ((d.st + k) % 256) v }

/-- y_prev: what the output slot held before this run (R275). -/
def Eng.prev (g : Eng) (d : Desc) : Nat := if d.out = 0 then 0 else SMap.get 0 g.slots0 d.out

/-- An output below slot 16 writes nothing (R272). -/
def Eng.put (g : Eng) (d : Desc) (y : Nat) : Eng :=
  if d.out < 16 then g else { g with slots := SMap.set 0 g.slots d.out y }

/-- A result that is not finite: the output slot takes its previous value again, the state stays, ARITH (R271). -/
def Eng.arithErr (g : Eng) (d : Desc) : Eng := { g.put d (g.prev d) with arith := true }

/-- The block's output `y` and new binary32 state words when all are finite, else R271. -/
def Eng.finish (g : Eng) (d : Desc) (y : Nat) (sts : List (Nat × Nat)) : Eng :=
  if f32finite y && sts.all (fun p => f32finite p.2) then
    (sts.foldl (fun g p => g.setS d p.1 p.2) g).put d y
  else g.arithErr d

/-- The output phase of PI and PID (R275, R276, R288). `b` is the index of umin: 3 for PI, 5 for PID. -/
def Eng.piOut (g : Eng) (d : Desc) (pid : Bool) : Eng :=
  let b := if pid then 5 else 3
  let umin := g.c d b
  let umax := g.c d (b + 1)
  let r := g.slot d.in0
  let y := g.slot d.in1
  let ff := g.slot d.in3
  let e := lSub r y
  let p := lMul (g.c d 0) e
  let x := if d.flags.testBit 2 then e else f32neg (f32ftz y)
  let reset := g.policy == some 2
  let d0 := if reset then 0 else g.s d 1
  let dv := if pid then lAdd (lMul (g.c d 3) d0) (lMul (g.c d 4) (lSub x (g.s d 2))) else 0
  let i := g.s d 0
  let i0 := match g.policy with
    | none => i
    | some 1 => lClamp i umin umax
    | some 2 => 0
    | some _ => lSub (lSub (lSub (g.prev d) p) dv) ff
  let v0 := lAdd p i0
  let v := lAdd (if pid then lAdd v0 dv else v0) ff
  let u := lClamp v umin umax
  let out := lLt v umin || lLt umax v
  let sat := match g.policy with
    | none => false
    | some 1 => lLt i umin || lLt umax i
    | some 2 => false
    | some _ => out
  let sts := if pid then [(0, i0), (1, dv), (2, x)] else [(0, i0)]
  if f32finite u && sts.all (fun q => f32finite q.2) then
    let g := g.finish d u sts
    { g with upd := g.upd ++ [(d, e, v, u)], anySat := g.anySat || out, satswap := g.satswap || sat }
  else g.arithErr d

/-- The update phase of one PI or PID block (R275). An integrator that is not finite puts the block's output and states back as they were before
the run (R271). -/
def Eng.piUpd (g : Eng) (w : Desc × Nat × Nat × Nat) : Eng :=
  let (d, e, v, u) := w
  let pid := d.ty == 2
  let b := if pid then 5 else 3
  let umin := g.c d b
  let umax := g.c d (b + 1)
  let kit := g.c d 1
  let ktt := g.c d 2
  let i := g.s d 0
  let base := lAdd i (lMul kit e)
  let i' :=
    if d.flags.testBit 0 then lAdd base (lMul ktt (lSub (g.slot d.in2) v))
    else if !d.flags.testBit 1 then lAdd base (lMul ktt (lSub u v))
    else if (lLt umax v && lLt 0 e) || (lLt v umin && lLt e 0) then i
    else base
  if f32finite i' then g.setS d 0 i'
  else ((List.range (if pid then 3 else 1)).foldl (fun h k => h.setS d k (SMap.get 0 g.st0 ((d.st + k) % 256))) g).arithErr d

/-- The filter, limiter and arithmetic blocks (R277). -/
def Eng.biquad (g : Eng) (d : Desc) : Eng :=
  let x := g.slot d.in0
  let y := lAdd (lMul (g.c d 0) x) (g.s d 0)
  let s1 := lAdd (lSub (lMul (g.c d 1) x) (lMul (g.c d 3) y)) (g.s d 1)
  let s2 := lSub (lMul (g.c d 2) x) (lMul (g.c d 4) y)
  g.finish d y [(0, s1), (1, s2)]

def Eng.leadlag (g : Eng) (d : Desc) : Eng :=
  let x := g.slot d.in0
  let y := lAdd (lMul (g.c d 0) x) (g.s d 0)
  g.finish d y [(0, lSub (lMul (g.c d 1) x) (lMul (g.c d 2) y))]

def Eng.limit (g : Eng) (d : Desc) : Eng :=
  let dyn := d.flags.testBit 0
  let lo := if dyn then g.slot d.in1 else g.c d 0
  let hi := if dyn then g.slot d.in2 else g.c d 1
  let x := g.slot d.in0
  let g' := g.finish d (lClamp x lo hi) []
  { g' with anySat := g'.anySat || lLt x lo || lLt hi x }

def Eng.rate (g : Eng) (d : Desc) : Eng :=
  let x := g.slot d.in0
  if g.s d 0 = 0 then
    if f32finite x then (g.setS d 0 1).put d (f32ftz x) else g.arithErr d
  else
    let yp := g.prev d
    g.finish d (lAdd yp (lClamp (lSub x yp) (f32neg (g.c d 1)) (g.c d 0))) []

def Eng.lin (g : Eng) (d : Desc) : Eng :=
  let t (k i : Nat) := lMul (g.c d k) (g.slot i)
  g.finish d (lAdd (lAdd (lAdd (lAdd (g.c d 0) (t 1 d.in0)) (t 2 d.in1)) (t 3 d.in2)) (t 4 d.in3)) []

def one32 : Nat := 0x3F800000

def Eng.muldiv (g : Eng) (d : Desc) : Eng :=
  let a := if d.flags.testBit 0 then one32 else g.slot d.in1
  let b := if d.flags.testBit 1 then one32 else g.slot d.in2
  g.finish d (lDiv (lMul (g.slot d.in0) a) b) []

/-- MINMAX (R278): the winner and its index, lower index on equal values. -/
def Eng.minmax (g : Eng) (d : Desc) : Eng :=
  let nin := d.flags % 4 + 1
  let isMax := d.flags.testBit 2
  let xs := ([d.in0, d.in1, d.in2, d.in3].take nin).map g.slot
  let best := (xs.zip (List.range nin)).foldl
    (fun (b : Nat × Nat) p => if (if isMax then lLt b.1 p.1 else lLt p.1 b.1) then p else b) (xs.getD 0 0, 0)
  if f32finite best.1 then
    let g := (g.setS d 0 best.2).put d (f32ftz best.1)
    { g with win := match g.win with | some w => some w | none => some best.2 }
  else g.arithErr d

/-- A word of the engine's delay memory, addresses modulo 32 768 (R279). -/
def Eng.mread (g : Eng) (a : Nat) : Nat :=
  match g.delay.find? (fun p => p.1 = g.memBase + a % 32768) with
  | some p => p.2
  | none => SMap.get 0 g.mem (g.memBase + a % 32768)

/-- RC (R279). Line E stands from BASE, line D from BASE + N; `ptr` counts pushes modulo N · (N + 1). -/
def Eng.rc (g : Eng) (d : Desc) : Eng :=
  let n := g.c d 4
  let k := g.c d 5
  let base := g.c d 6
  let ptr := g.s d 0
  let fill := g.s d 1
  let dline (j : Nat) := if fill < j ∨ j = 0 then 0 else g.mread (base + n + (ptr + (n + 1) * n - j) % (n + 1))
  let eline (j : Nat) := if fill < j ∨ j = 0 then 0 else g.mread (base + (ptr + (n + 1) * n - j) % n)
  let e := g.slot d.in0
  let t := lMul (g.c d 2) (lAdd (dline (n + 1)) (dline (n - 1)))
  let w := lAdd (lAdd (lMul (g.c d 1) (dline n)) t) (lMul (g.c d 0) (eline (n - k)))
  let ymax := g.c d 3
  let y := lClamp w (f32neg ymax) ymax
  let g := { g with reads := [base + n + (ptr + (n + 1) * n - (n + 1)) % (n + 1), base + n + (ptr + (n + 1) * n - (n - 1)) % (n + 1),
    base + n + (ptr + (n + 1) * n - n) % (n + 1), base + (ptr + (n + 1) * n - (n - k)) % n] ++ g.reads }
  if f32finite y && f32finite e then
    let g1 := (g.setS d 0 ((ptr + 1) % (n * (n + 1)))).setS d 1 (if fill + 1 < n + 1 then fill + 1 else n + 1)
    let g2 := { g1 with delay := (g.memBase + (base + n + ptr % (n + 1)) % 32768, y) ::
      (g.memBase + (base + ptr % n) % 32768, f32ftz e) :: g1.delay }
    g2.put d y
  else g.arithErr d

/-- MODEL (R280). -/
def Eng.model (g : Eng) (d : Desc) : Eng :=
  let y := g.slot d.in0
  let m := lAdd (lAdd (lAdd (g.c d 0) (lMul (g.c d 1) (g.slot d.in1))) (lMul (g.c d 2) (g.slot d.in2)))
    (lMul (g.c d 3) (g.slot d.in3))
  let ym := if d.flags.testBit 0 then lMul (lSub y (g.s d 0)) (g.c d 4) else f32ftz y
  let f := lAdd (lMul (g.c d 5) (g.s d 1)) (lMul (g.c d 6) (lSub ym m))
  let cnt := g.c d 8
  let run0 := g.s d 2
  let live0 := run0 == cnt && cnt != 0
  if f32finite f && f32finite y then
    let run := if lLt (g.c d 7) (f32abs f) then (if run0 + 1 < cnt then run0 + 1 else cnt) else 0
    let live := run == cnt && cnt != 0
    let g := (((g.setS d 0 (f32ftz y)).setS d 1 f).setS d 2 run).put d f
    { g with plausLive := g.plausLive || live, plausSet := g.plausSet || (live && !live0) }
  else { g.arithErr d with plausLive := g.plausLive || live0 }

/-- XSEL (R281). State words: sel, j, y0. -/
def Eng.xsel (g : Eng) (d : Desc) : Eng :=
  let rampn := g.c d 0
  let x (k : Nat) := if k = 0 then g.slot d.in0 else if k = 1 then g.slot d.in1 else g.slot d.in2
  let s := (clampI 0 2 ((fpTrunc (f32 (g.slot d.in3))).getD 0)).toNat
  let st : Nat × Nat × Nat :=
    if g.fresh then (s, rampn, f32ftz (x s))
    else if s ≠ g.s d 0 then (s, 0, g.prev d)
    else (g.s d 0, g.s d 1, g.s d 2)
  let sel := st.1
  let j0 := st.2.1
  let y0 := st.2.2
  let j := if j0 < rampn then j0 + 1 else j0
  let y := if j0 < rampn then
      (if j = rampn then f32ftz (x sel)
       else lAdd y0 (lMul (lSub (x sel) y0) (lDiv (f32ofInt j) (f32ofInt rampn))))
    else f32ftz (x sel)
  if f32finite y && f32finite y0 then
    let g := (((g.setS d 0 sel).setS d 1 j).setS d 2 y0).put d y
    { g with ramping := g.ramping || decide (j < rampn) }
  else { g.arithErr d with ramping := g.ramping || decide (g.s d 1 < rampn) }

/-- One block of the output phase (R274). -/
def Eng.block (g : Eng) (d : Desc) : Eng :=
  match d.ty with
  | 0x01 => g.piOut d false
  | 0x02 => g.piOut d true
  | 0x03 => g.biquad d
  | 0x04 => g.leadlag d
  | 0x05 => g.limit d
  | 0x06 => g.rate d
  | 0x07 => g.minmax d
  | 0x08 => g.rc d
  | 0x09 => g.model d
  | 0x0A => g.lin d
  | 0x0B => g.muldiv d
  | 0x0C => g.xsel d
  | _ => g

/-- The coefficient and state words of a block (R274). -/
def coefCount : Nat → Nat
  | 0x01 => 5
  | 0x02 => 7
  | 0x03 => 5
  | 0x04 => 3
  | 0x05 => 2
  | 0x06 => 2
  | 0x08 => 7
  | 0x09 => 9
  | 0x0A => 5
  | 0x0C => 1
  | _ => 0

def stateCount : Nat → Nat
  | 0x01 => 1
  | 0x02 => 3
  | 0x03 => 2
  | 0x04 => 1
  | 0x06 => 1
  | 0x07 => 1
  | 0x08 => 2
  | 0x09 => 3
  | 0x0C => 3
  | _ => 0

/-- The cycles of a block (R274). -/
def descCycles (d : Desc) : Nat :=
  match d.ty with
  | 0x01 => 14
  | 0x02 => 20
  | 0x03 => 10
  | 0x04 => 7
  | 0x05 => 3
  | 0x06 => 5
  | 0x07 => 3 + (d.flags % 4 + 1)
  | 0x08 => 18
  | 0x09 => 16
  | 0x0A => 10
  | 0x0B => 12
  | 0x0C => 10
  | _ => 2

/-- The cycles of a run (R268). -/
def runCycles (descs : List Desc) (routed dests : Nat) : Nat :=
  10 + routed + (descs.map descCycles).foldl (· + ·) 0 + 4 + 2 * dests

/-- Output phase, then update phase (R268). -/
def Eng.run (g : Eng) (descs : List Desc) : Eng :=
  let g := descs.foldl Eng.block g
  g.upd.foldl Eng.piUpd g

/-- The coefficient words whose change a swap refuses (R287). -/
def structural (d : Desc) : List Nat :=
  match d.ty with
  | 0x08 => [d.coef + 4, d.coef + 5, d.coef + 6]
  | 0x09 => [d.coef + 8]
  | 0x0C => [d.coef]
  | _ => []

/-- A swap between the two banks changes a structural word (R287). -/
def swapBreaks (coef : SMap Nat) (descs : List Desc) : Bool :=
  descs.any (fun d => (structural d).any (fun w => SMap.get 0 coef (w % 256) != SMap.get 0 coef (256 + w % 256)))

end Sys2Proof.Machine
end

