-- ==== Sys2Proof/Machine/Loops.lean ====
section
/-!
DEFINITION. Machine/Loops.lean: the loop engines around a run (R263 to R292): starts, queue, latch, commit, deadline, coefficient banks.
-/

namespace Sys2Proof.Machine

/-- VALUE of sigma-delta channel `n`: the latched value, or the quiet NaN while STUCK is live (R223). -/
def State.sdmValue (s : State) (n : Nat) : Nat := if s.flag (srcSDM n).live then f32nan else s.get (SDM.CH_VALUE.VALUE n)

def State.ctx (s : State) (c : Nat) : CtxSt := SMap.get {} s.lpe.ctxs c
def State.setCtx (s : State) (c : Nat) (x : CtxSt) : State :=
  { s with lpe := { s.lpe with ctxs := SMap.set {} s.lpe.ctxs c x } }
def State.modCtx (s : State) (c : Nat) (f : CtxSt → CtxSt) : State := s.setCtx c (f (s.ctx c))

/-- The engine of a context (R263). -/
def engineOf (c : Nat) : Nat := c / 32

def State.engineEnabled (s : State) (e : Nat) : Bool := s.getBit LPE.CTRL.ENGEN e
def State.engineHalted (s : State) (e : Nat) : Bool := s.getBit LPE.STAT.HALTED e

/-- A fault of context `c`: its sticky bit in CTXc_STAT, FLTCTX, and the block's source (R292). -/
def State.ctxFault (s : State) (c i : Nat) : State :=
  if s.detects bLPE then
    let s := s.stick ⟨(LPE.CTX_STAT.OVERRUN c).addr, 8 + i, 1⟩
    (s.setBit (LPE.FLTCTX.MASK (c / 32)) (c % 32) true).raise (srcLPE i)
  else s

/-- An overrun or dropped start (R269). -/
def State.overrun (s : State) (c : Nat) : State := (s.inc (LPE.CTX_OVR.COUNT c)).ctxFault c 0

/-- FLTCTX bit of context `c` follows its sticky bits (R292). -/
def State.showCtx (s : State) (c : Nat) : State :=
  s.setBit (LPE.FLTCTX.MASK (c / 32)) (c % 32) (decide (s.get ⟨(LPE.CTX_STAT.OVERRUN c).addr, 8, 6⟩ ≠ 0))

/-- The context starts in tick `k` (R266): k mod m = PHASE mod m. -/
def State.ctxDue (s : State) (c k : Nat) : Bool :=
  let m := s.get (LPE.CTX_CFG.RATEM c) + 1
  s.flag (LPE.CTX_CFG.EN c) && k % m == s.get (LPE.CTX_CFG.PHASE c) % m

/-- Start instant of context `c` (R266, R267, R269): it joins its engine's queue; a start that finds the previous run queued or running,
or the engine halted for debug, is dropped and counted. A joiner runs no context before its item is complete (R375). -/
def State.ctxStart (s : State) (c : Nat) : State :=
  let k := s.tickAt (2 * s.get (LPE.CTX_TIME.STARTOFF c))
  if !(s.runs bLPE && s.inRun && s.tickEvents && s.engineEnabled (engineOf c) && s.ctxDue c k && decide (c < 128)) ||
      (s.redState == rsJoining && !SMap.get false s.red.admitted c) then s
  else if (s.ctx c).startTick = some k then s
  else
    let s := s.modCtx c (fun x => { x with startTick := some k })
    if s.engineHalted (engineOf c) || s.flag (LPE.CTX_STAT.QUEUED c) || s.flag (LPE.CTX_STAT.RUNNING c) then s.overrun c
    else (s.set (LPE.CTX_STAT.QUEUED c) 1).modCtx c (fun x => { x with startAt := s.now5 })

/-- The lowest queued context of an engine (R267). -/
def State.nextQueued (s : State) (e : Nat) : Option Nat :=
  ((List.range 32).map (32 * e + ·)).find? (fun c => s.flag (LPE.CTX_STAT.QUEUED c))

/-- The value of a routed source (R282). -/
def State.source (s : State) (c slot : Nat) : LoopSource → Nat
  | .none => 0
  | .sdm n => s.sdmValue n
  | .aux n => s.get (ADC.AUXVAL.VALUE n)
  | .volts => s.get ENV.VOLTS.V
  | .energySi => s.get ENV.ENERGYSI.E
  | .insnow => f32ofInt (s.get SCR.INSNOW.COUNT)
  | .xused => fpOfRat fmt32 (toSigned 32 (s.get SCR.XUSED.X)) 65536
  | .iarm => s.scr.iarm
  | .vref => s.scr.vref
  | .actseg => f32ofInt s.activeSegments.length
  | .lead => if s.leads then 0x3F800000 else 0
  | .segVal j second => SMap.get 0 s.scr.segVals (2 * j + bit second)
  | .sv n ch => s.get (ETH.SV_CH.VALUE n ch)
  | .hostIn n => s.get (LPE.HOSTIN.VALUE n)
  | .mailbox => SMap.get 0 (s.ctx c).mail slot

/-- The slots after the latch (R268): routed inputs in their slots. -/
def State.latched (s : State) (c : Nat) (slots : SMap Nat) : SMap Nat :=
  (s.ctx c).prog.routes.foldl (fun m r => if 1 ≤ r.1 ∧ r.1 ≤ 15 then SMap.set 0 m r.1 (s.source c r.1 r.2) else m) slots

/-- The 256 words of bank `b`, little-endian, for the CRC of the swap record (R286). -/
def bankBytes (coef : SMap Nat) (b : Nat) : List Byte :=
  (List.range 256).flatMap (fun w => toLE 4 (SMap.get 0 coef (256 * b + w)))

/-- A swap of context `c` takes place at a latch in this cycle: pending since an earlier one (R286). -/
def State.swapDue (s : State) (c : Nat) : Bool := s.flag (LPE.CTX_STAT.SWAPPEND c) && (s.ctx c).swapAsked != s.time.cycles

/-- The pending bank swap at a latch (R286, R287): refused when it would change a structural word. Answers whether the banks swapped. -/
def State.swapAt (s : State) (c : Nat) : Bool × State :=
  if !s.swapDue c then (false, s)
  else
    let x := s.ctx c
    let s := s.set (LPE.CTX_STAT.SWAPPEND c) 0
    if swapBreaks x.coef (x.prog.descs.map descOf) then (false, s.ctxFault c 4)
    else
      let b := 1 - s.get (LPE.CTX_STAT.ACTBANK c)
      let s := s.set (LPE.CTX_STAT.ACTBANK c) b
      (true, s.cairn 0x07 hwOrigin c b (crc32 (bankBytes x.coef b)).toNat)

/-- The words of its engine's memory that a run of context `c` reads beside delay memory (R264, R268): its program, routing and destinations,
the coefficient words, state words and slots of its blocks, and at a swap the whole new bank, over which the CRC runs. -/
def State.runReads (s : State) (c : Nat) (descs : List Desc) (w : Nat) : Bool :=
  let x := s.ctx c
  let b := s.get (LPE.CTX_STAT.ACTBANK c)
  let bank := if s.swapDue c then 1 - b else b
  let inside (f : Nat → Nat) (n : Nat) := (List.range n).any (fun i => f i == w)
  inside (descWord c) descs.length || inside (routeWord c) x.prog.routes.length || inside (destWord c) x.prog.dests.length ||
    (s.swapDue c && inside (fun k => coefWord c (256 * bank + k)) 256) ||
    descs.any (fun d => inside (fun k => coefWord c (256 * bank + (d.coef + k) % 256)) (coefCount d.ty) ||
      inside (fun k => stateWordOf c (d.st + k)) (stateCount d.ty) || [d.in0, d.in1, d.in2, d.in3].any (fun i => slotWordOf c i == w))

/-- A free engine takes the lowest queued context and runs it from latch to the end of the update phase (R267, R268, R270); the results
wait for the commit cycle. -/
def State.ctxRun (s : State) (e : Nat) : State :=
  if !(s.runs bLPE && s.inRun && s.engineEnabled e) || s.engineHalted e || s.getBit LPE.STAT.BUSY e then s
  else
    match s.nextQueued e with
    | none => s
    | some c =>
      let x := s.ctx c
      let descs := (x.prog.descs.map descOf).take (s.get (LPE.CTX_CFG.NBLK c))
      let s := s.engineRead e (s.runReads c descs)
      let s := s.set (LPE.CTX_STAT.QUEUED c) 0
      let slots0 := if x.resetPend then x.slots.filter (fun p => decide (p.1 < 16)) else x.slots
      let slots := s.latched c slots0
      let bad := x.prog.routes.any (fun r => decide (1 ≤ r.1) && decide (r.1 ≤ 15) && !f32finite (SMap.get 0 slots r.1))
      if bad then ((s.inc (LPE.CTX_SKIP.COUNT c)).set (LPE.CTX_STAT.SKIPPED c) 1).ctxFault c 1
      else
        let reset := x.resetPend
        let sw := s.swapAt c
        let s := sw.2
        let s := s.modCtx c (fun x => if reset then { x with resetPend := false, stateW := [], slots := slots0, fresh := true } else x)
        let st0 := if reset then [] else x.stateW
        let g : Eng :=
          { coef := x.coef, bank := 256 * s.get (LPE.CTX_STAT.ACTBANK c), slots := slots, slots0 := slots0, st := st0, st0 := st0, mem := s.lpe.delay, memBase := 32768 * e,
            policy := if sw.1 && !reset then some (s.get (LPE.CTX_CFG.POLICY c)) else none,
            fresh := x.fresh || reset }
        let g := g.run descs
        let s := s.engineRead e (fun w => g.reads.any (fun a => delayWord a == w))
        let cycles := runCycles descs x.prog.routes.length x.prog.dests.length
        let wait := (s.now5 - x.startAt) * 2
        let run : RunSt :=
          { ctx := c, stateW := g.st, slots := g.slots, delay := g.delay, cycles := cycles, wait := wait, arith := g.arith,
            satswap := g.satswap, anySat := g.anySat, plausSet := g.plausSet, plausLive := g.plausLive,
            ramping := g.ramping, win := g.win }
        let s := { s with lpe := { s.lpe with running := SMap.insert e run (SMap.erase s.lpe.running e) } }
        (s.set (LPE.CTX_STAT.RUNNING c) 1).setBit LPE.STAT.BUSY e true

/-- The run in progress of engine `e`. -/
def State.runOf (s : State) (e : Nat) : Option RunSt := (s.lpe.running.find? (fun p => p.1 == e)).map (fun p => p.2)

/-- The engine gives up its run. -/
def State.endRun (s : State) (e c : Nat) : State :=
  let s := { s with lpe := { s.lpe with running := SMap.erase s.lpe.running e } }
  (s.set (LPE.CTX_STAT.RUNNING c) 0).setBit LPE.STAT.BUSY e false

/-- binary32 to signed 16.16, rounded to nearest, ties to even, saturating (R283). -/
def toFix16 (v : Nat) : Nat :=
  match f32 v with
  | .nan => 0
  | .inf neg => if neg then 0x80000000 else 0x7FFFFFFF
  | x =>
    match fpToIntEven (fpMul x (.fin false 65536 0)) with
    | none => 0
    | some i => ofSigned 32 (clampI (-(2 ^ 31)) (2 ^ 31 - 1) i)

/-- One destination written in the commit cycle (R283). -/
def State.deliver (s : State) (v : Nat) (d : LoopDest) : State :=
  match d.kind with
  | 1 => s.modCtx d.target (fun x => { x with mail := SMap.set 0 x.mail d.slot2 v })
  | 2 => { s.set SCR.XIN.X (toFix16 v) with scr := { s.scr with xinFresh := true } }
  | 3 => { s with lpe := { s.lpe with val0 := v } }
  | 4 => { s with lpe := { s.lpe with val1 := v } }
  | 5 =>
    if d.target < 64 then
      { s.set (LPE.OUT.VALUE d.target) v with lpe := { s.lpe with outFresh := d.target :: s.lpe.outFresh.filter (· != d.target) } }
    else s
  | 6 => if d.target < 32 then { s with lpe := { s.lpe with geo := SMap.set 0 s.lpe.geo d.target v } } else s
  | _ => s

/-- Busy cycles of the engine in the present tick (LOAD.LAST, LOAD.PEAK). -/
def State.addLoad (s : State) (e cycles : Nat) : State :=
  let k := s.tick
  let old := if s.lpe.busyTick = k then s.lpe.busy else []
  let n := SMap.get 0 old e + cycles
  let s := { s with lpe := { s.lpe with busyTick := k, busy := SMap.set 0 old e n } }
  let last := if n < 65536 then n else 65535
  let s := s.set (LPE.LOAD.LAST e) last
  if s.get (LPE.LOAD.PEAK e) < last then s.set (LPE.LOAD.PEAK e) last else s

/-- LIVE bit `i` of LPE: the condition of the latest run of any context (R293); `set` raises through `ctxFault`. -/
def State.runLive (s : State) (c i : Nat) (present : Bool) : State := if present then s.ctxFault c i else s.unlive (srcLPE i)

/-- Cycles of the engine since the start instant of context `c`. -/
def State.sinceStart (s : State) (c : Nat) : Nat := 2 * (s.now5 - (s.ctx c).startAt)

/-- The deadline of context `c` has come without its commit (R269): the run is abandoned, queued or running. -/
def State.ctxDeadline (s : State) (c : Nat) : State :=
  let x := s.ctx c
  if !s.runs bLPE || !(decide (x.startAt + 2 * s.get (LPE.CTX_TIME.DEADLINE c) ≤ s.now5)) then s
  else if s.flag (LPE.CTX_STAT.QUEUED c) then (s.set (LPE.CTX_STAT.QUEUED c) 0).overrun c
  else if s.flag (LPE.CTX_STAT.RUNNING c) then
    match s.runOf (engineOf c) with
    | some r => ((s.addLoad (engineOf c) (s.sinceStart c - r.wait)).endRun (engineOf c) c).overrun c
    | none => s
  else s

/-- The commit cycle of engine `e`'s run falls into this cycle or has passed, and the deadline has not (R268, R269). -/
def State.commitDue (s : State) (e : Nat) : Bool :=
  match s.runOf e with
  | none => false
  | some r => s.runs bLPE && decide (r.wait + r.cycles ≤ s.sinceStart r.ctx + 2) &&
      decide (s.now5 ≤ (s.ctx r.ctx).startAt + 2 * s.get (LPE.CTX_TIME.DEADLINE r.ctx))

/-- The commit cycle of engine `e` (R268, R283): every destination written, state and slots stored, the run's flags shown. -/
def State.ctxCommit (s : State) (e : Nat) : State :=
  match s.runOf e with
  | none => s
  | some r =>
    if !s.commitDue e then
      (if (s.ctx r.ctx).startAt + 2 * s.get (LPE.CTX_TIME.DEADLINE r.ctx) < s.now5 then s.ctxDeadline r.ctx else s)
    else
      let c := r.ctx
      -- the words that the run changed are stored; a word whose read finds an uncorrectable error keeps what it holds (R430)
      let x := s.ctx c
      let descs := (x.prog.descs.map descOf).take (s.get (LPE.CTX_CFG.NBLK c))
      let p := s.enginePart e 2 (fun w => r.delay.any (fun p => delayWord p.1 == w) ||
        descs.any (fun d => slotWordOf c d.out == w || (List.range (stateCount d.ty)).any (fun k => stateWordOf c (d.st + k) == w)) ||
        x.prog.routes.any (fun q => slotWordOf c q.1 == w))
      let s := p.2
      let keep (old new : SMap Nat) (word : Nat → Nat) : SMap Nat :=
        p.1.foldl (fun m w => ((old.filter (fun q => word q.1 == w)).foldl (fun m q => SMap.set 0 m q.1 q.2) (m.filter (fun q => word q.1 != w)))) new
      let s := s.modCtx c (fun y => { y with stateW := keep x.stateW r.stateW (stateWordOf c), slots := keep x.slots r.slots (slotWordOf c), fresh := false })
      let mem := (r.delay.reverse.filter (fun q => !p.1.contains (delayWord q.1))).foldl (fun m p => SMap.set 0 m p.1 p.2) s.lpe.delay
      let s := { s with lpe := { s.lpe with delay := mem } }
      let value (d : LoopDest) := if d.slot = 0 then 0 else SMap.get 0 r.slots d.slot
      let dests := (s.ctx c).prog.dests
      let s := dests.foldl (fun s d => s.deliver (value d) d) s
      let s := { s with red := { s.red with commits := (dests.map value).reverse ++ s.red.commits } }
      let s := (s.wrap (LPE.CTX_RUNS.COUNT c)).set (LPE.CTX_STAT.SKIPPED c) 0
      let s := (s.set (LPE.CTX_LAST.CYCLES c) r.cycles).set (LPE.CTX_LAST.WAIT c) (if r.wait < 65536 then r.wait else 65535)
      let s := (s.setFlag (LPE.CTX_STAT.ANYSAT c) r.anySat).setFlag (LPE.CTX_STAT.RAMPING c) r.ramping
      let s := s.setFlag (LPE.CTX_STAT.PLAUSLIVE c) r.plausLive
      let s := match r.win with | some w => s.set (LPE.CTX_STAT.WIN c) w | none => s
      let s := (s.addLoad e r.cycles).endRun e c
      let s := ((s.unlive (srcLPE 0)).unlive (srcLPE 1)).unlive (srcLPE 4)
      let s := (s.runLive c 2 r.arith).runLive c 3 r.satswap
      let s := if r.plausSet then s.ctxFault c 5 else s
      let live := (List.range 128).any (fun c => s.flag (LPE.CTX_STAT.PLAUSLIVE c))
      s.set (srcLPE 5).live (bit live)

/-- A swap request for context `c` (R286). -/
def State.swapRequest (s : State) (c : Nat) : State :=
  if !s.runs bLPE then s
  else if s.flag (LPE.CTX_CFG.SWAPEN c) then
    (if s.flag (LPE.CTX_STAT.SWAPPEND c) then s
     else (s.set (LPE.CTX_STAT.SWAPPEND c) 1).modCtx c (fun x => { x with swapAsked := s.time.cycles }))
  else s.ctxFault c 4

/-- RESETST of context `c` (R289): at its next latch. -/
def State.resetst (s : State) (c : Nat) : State :=
  if s.runs bLPE then s.modCtx c (fun x => { x with resetPend := true }) else s

/-- A write of word `w` through the coefficient aperture (R285). -/
def State.coefWrite (s : State) (w v : Nat) : State :=
  if !s.runs bLPE then s
  else
    let c := s.get LPE.CBSEL.CTX
    if s.flag (LPE.CTX_STAT.SWAPPEND c) then s.ctxFault c 4
    else
      let b := 1 - s.get (LPE.CTX_STAT.ACTBANK c)
      (s.modCtx c (fun x => { x with coef := SMap.set 0 x.coef (256 * b + w) v })).engineStored (engineOf c)
        (fun i => i == coefWord c (256 * b + w))

/-- The word that an LPE aperture shows (R293): inactive bank, active bank, state, slots of context CBSEL. -/
def State.lpeAperture (s : State) (off : Nat) : Nat :=
  let c := s.get LPE.CBSEL.CTX
  let x := s.ctx c
  let b := s.get (LPE.CTX_STAT.ACTBANK c)
  if off < 0x8400 then SMap.get 0 x.coef (256 * (1 - b) + (off - 0x8000) / 4)
  else if off < 0x8800 then SMap.get 0 x.coef (256 * b + (off - 0x8400) / 4)
  else if off < 0x8C00 then SMap.get 0 x.stateW ((off - 0x8800) / 4)
  else if (off - 0x8C00) / 4 = 0 then 0 else SMap.get 0 x.slots ((off - 0x8C00) / 4)

/-- An access through an aperture reads the word of engine memory that it names, a write of a coefficient too, whose word is merged (R430,
R431). Answers UE. -/
def State.apertureCheck (s : State) (a : Nat) (write : Bool) : Bool × State :=
  let off := a - 0x400F0000
  let c := s.get LPE.CBSEL.CTX
  let b := s.get (LPE.CTX_STAT.ACTBANK c)
  if !(decide (0x400F8000 ≤ a) && decide (a < 0x400F8D00)) || !s.runs bLPE || (write && (decide (0x8400 ≤ off) || s.flag (LPE.CTX_STAT.SWAPPEND c)))
  then (false, s)
  else
    let w := if off < 0x8400 then coefWord c (256 * (1 - b) + (off - 0x8000) / 4)
      else if off < 0x8800 then coefWord c (256 * b + (off - 0x8400) / 4)
      else if off < 0x8C00 then stateWordOf c ((off - 0x8800) / 4)
      else slotWordOf c ((off - 0x8C00) / 4)
    s.checkWord (2 + engineOf c) w 0 false

/-- Entry to Idle discards queued runs without OVERRUN; state is kept (R291). A run in progress is discarded with them. -/
def State.dropRuns (s : State) : State :=
  let s := (List.range 4).foldl (fun s e => match s.runOf e with | some r => s.endRun e r.ctx | none => s) s
  (List.range 128).foldl (fun s c => if s.flag (LPE.CTX_STAT.QUEUED c) then s.set (LPE.CTX_STAT.QUEUED c) 0 else s) s

end Sys2Proof.Machine
end

