-- ==== Sys2Proof/Machine/Pwm.lean ====
section
/-!
DEFINITION. Machine/Pwm.lean: the cell's switching (R178 to R209): states and gate patterns, leg edges with dead time and interlock, the
apply instant, trim, local mode, force, adaptation; the bypass and the trip, which override it (R205, R238, R243), and the series
enables (R248). Instants are in 78.125 ps units of local time; gate g of the list G1 to G4 is bit g − 1.
-/

namespace Sys2Proof.Machine

/-! ## Bypass, enables, trip -/

/-- A supply's enables are to be closed (R248, R245): supply A always, supply B when used. After Run they open 1 µs later (R398). -/
def State.enablesClosed (s : State) : Bool :=
  (s.inRun || s.saf.openAt.isSome) && s.active && s.runs bSAF && !s.pwm.halted.testBit 4 && !s.pwm.halted.testBit 5 && !s.flag SAF.STAT.TRIP &&
    !s.flag SAF.STAT.DSATLATCH && !s.flag SAF.STAT.SAFESTATE && !s.saf.bypassed

/-- The discharge check ends because an enable is commanded closed (R255). -/
def State.endDischarge (s : State) : State := if s.get ENV.DISSTAT.STATE = 1 then s.set ENV.DISSTAT.STATE 0 else s

/-- SAF commands the series enables by R248: EHx now, ELx in the next cycle. Opening abandons a test pulse (R252); closing ends a discharge check (R255). -/
def State.enables (s : State) : State :=
  let cmd := if s.enablesClosed then (if s.flag SAF.CFG.SUPB then 3 else 1) else 0
  if cmd = s.get SAF.STAT.ENCMD then s
  else
    let sw := if cmd = 3 then 15 else if cmd = 1 then 3 else 0
    let s := (s.set SAF.STAT.ENCMD cmd).set SAF.STAT.TESTING 0
    let s := { s with saf := { s.saf with switches := sw &&& (s.saf.switches ||| 5), closeNext := sw &&& 10, tpPhase := 0 } }
    if cmd = 0 then s else s.endDischarge

/-- One cycle after EHx, ELx closes (R248). -/
def State.closeLow (s : State) : State :=
  { s with saf := { s.saf with switches := s.saf.switches ||| s.saf.closeNext, closeNext := 0 } }

/-- The analog path holds the gates at 0 through the trip latch, the DSAT latch or the safe state (R201 rank 1). -/
def State.clockless (s : State) : Bool := s.flag SAF.STAT.TRIP || s.flag SAF.STAT.DSATLATCH || s.flag SAF.STAT.SAFESTATE

/-- The gate outputs as the balls show them: 0 while the clockless path acts (R201 rank 1). -/
def State.gateBalls (s : State) : Nat := if s.clockless then 0 else s.pwm.gates

/-- The state unit's present state shown in STAT.STATE, and the full state (R164); entries into Blocked are counted. -/
def State.showState (s : State) (st : Nat) : State :=
  let s := if st = 0 ∧ s.get PWM.STAT.STATE ≠ 0 then s.inc PWM.BLOCKS.COUNT else s
  s.set PWM.STAT.STATE st

/-- The insertion factor of a state (R229); for Blocked it follows the sign of the arm current. -/
def State.sigmaOf (s : State) (st : Nat) : Int :=
  match st with
  | 1 => 1
  | 2 => -1
  | 0 =>
    if f32lt 0 s.pwm.iarm then 1
    else if f32lt s.pwm.iarm 0 && s.flag SCR.CFG.CELLTYPE then -1 else 0
  | _ => 0

/-- The charge integral carried to instant `t` with the state in force until then (R229). -/
def State.integrate (s : State) (t : Nat) : State :=
  let d : Int := (t : Int) - s.sense.sigmaAt
  if d ≤ 0 then s
  else { s with sense := { s.sense with
    sigmaSum := s.sense.sigmaSum + s.sigmaOf (s.get PWM.STAT.STATE) * d, sigmaAt := t } }

/-- The tick in progress is not usable for the estimator (R230). -/
def State.spoil (s : State) : State := { s with sense := { s.sense with spoiled := true } }

/-- Gates that turn off while their DSATn is high start an interval each (R245). -/
def State.dsatIdle (s : State) (offs : List Nat) : State :=
  s.add SAF.DSATIDLE.COUNT (offs.filter (fun g => s.saf.dsat.testBit g)).length

/-- DSATn is high while Gn is on from now (R245). -/
def State.dsatFrom (s : State) (g : Nat) : State :=
  { s with saf := { s.saf with dsatSince := SMap.set 0 s.saf.dsatSince g s.time.cycles } }

/-- Every gate off at instant `t`, nothing waiting (R201: a change to rank 1 to 3 needs no dead time). -/
def State.gatesOff (s : State) (t : Nat) : State :=
  let s := (s.dsatIdle ((List.range 4).filter (fun g => s.pwm.gates.testBit g))).set PWM.STAT.FORCED 0
  let off := (List.range 4).foldl (fun m g => if s.pwm.gates.testBit g then SMap.set 0 m g t else m) s.pwm.offAt
  { s with pwm := { s.pwm with gates := 0, pattern := 0, statePat := 0, offAt := off, due := [], edges := [], trimEnd := none,
                               localDuty := none, localEnd := none } }

/-- The state unit takes Blocked (0) or Bypassed (4) with every output at 0. -/
def State.takeOff (s : State) (st t : Nat) : State :=
  let s := (s.integrate t).gatesOff t
  let s := (s.showState st).set PWM.STAT.TRIM 0
  { s with pwm := { s.pwm with full := st } }

/-- The cell is Bypassed (R205): gates 0, enables open. -/
def State.enterBypassed (s : State) : State :=
  let s := { s with saf := { s.saf with bypassed := true } }
  ((s.takeOff 4 s.time64).spoil).enables

/-- The one-shot starts a pulse on BYP (R243). -/
def State.bypPulse (s : State) : State :=
  let s := s.set SAF.STAT.BYP 1
  { s with saf := { s.saf with bypHigh := true, bypPulses := s.saf.bypPulses + 1, bypAgain := false, bypStart := s.time.cycles,
                               wasClosed := s.saf.wasClosed || s.saf.bypRb } }

/-- BYP fires for a trip or a BYPASS command (R243), with the checks of a first pulse. -/
def State.fireBypass (s : State) : State :=
  (({ s with saf := { s.saf with bypPulses := 0 } } : State).bypPulse).enterBypassed

/-- The BYPASS command (R206); after a trip there is no second firing (R260). -/
def State.bypassCommand (s : State) : State := if s.flag SAF.STAT.TRIP then s.enterBypassed else s.fireBypass

/-- A trip (R238): trip latch, gates 0 through the clockless path, enables open, bypass fired, Bypassed. -/
def State.trip (s : State) : State :=
  if s.flag SAF.STAT.TRIP then s
  else (((s.set SAF.STAT.TRIP 1).spoil).fireBypass).enables

/-- The safe state is entered for a cause (R246): gates 0, enables open, no bypass; the state unit takes Blocked. -/
def State.enterSafe (s : State) (cause : Nat) : State :=
  let s := { s with saf := { s.saf with safe := s.saf.safe ||| 2 ^ cause } }
  let s := (s.set SAF.STAT.SAFESTATE 1).spoil
  let s := if s.saf.bypassed then s else s.takeOff 0 s.time64
  s.enables

/-! ## Patterns -/

def State.fullBridge (s : State) : Bool := s.flag SCR.CFG.CELLTYPE

/-- The gate pattern of Inserted (1) and Reversed (2) (R178). -/
def State.drivePattern (s : State) (st : Nat) : Nat :=
  if st = 1 then (if s.fullBridge then 0b1001 else 0b0001)
  else if st = 2 then (if s.fullBridge then 0b0110 else 0)
  else 0

/-- The pattern of Zeroed as the cell reaches it from its present one, and ZLEG after it (R178, R180). -/
def State.zeroPattern (s : State) : Nat × State :=
  let p := s.pwm.statePat
  if !s.fullBridge then (0b0010, s)
  else if p = 0b0101 ∨ p = 0b1010 then (p, s)
  else if p = 0b1001 ∨ p = 0b0110 then
    if s.flag PWM.CFG.ZALT then
      let leg := s.get PWM.STAT.ZLEG
      let s := s.set PWM.STAT.ZLEG (1 - leg)
      -- from Inserted, leg A gives the lower zero; from Reversed, leg A gives the upper zero
      (if (p = 0b1001) = (leg = 0) then 0b1010 else 0b0101, s)
    else (0b1010, s)
  else (0b1010, s)

/-- The pattern of a state and the state unit after choosing it. -/
def State.patternOf (s : State) (st : Nat) : Nat × State :=
  if st = 3 then s.zeroPattern else (s.drivePattern st, s)

/-- The partner of gate `g` in its leg. -/
def partnerGate (g : Nat) : Nat := if g % 2 = 0 then g + 1 else g - 1

/-! ## Dead times -/

/-- The sign of the arm current against IDB: 0 above, 1 below, none within the deadband or for a NaN (R185). -/
def State.currentSign (s : State) : Option Nat :=
  let db := s.get PWM.IDB.DB
  if f32lt db s.pwm.iarm then some 0 else if f32lt s.pwm.iarm (f32neg db) then some 1 else none

/-- The index of the dead time of a leg edge, up edge when the gate turned on is the upper one (R185). -/
def State.dtIndex (s : State) (g : Nat) : Option Nat :=
  s.currentSign.map (fun sign => 4 * (g / 2) + 2 * (if g % 2 = 0 then 1 else 0) + sign)

/-- The dead time of a leg edge that turns gate `g` on (R185; DTADAPT = 0: the ceiling). -/
def State.deadTime (s : State) (g : Nat) : Nat :=
  match s.dtIndex g with
  | none => s.get PWM.DTCEIL.CEIL
  | some i => if s.flag PWM.CFG.DTADAPT then s.get (PWM.DT.DT i) else s.get PWM.DTCEIL.CEIL

/-- The interlock: gate `g` turns on no earlier than `hold` after its partner's turn-off; a turn-on that has to wait sets INTERLOCK and
counts (R182). -/
def State.interlock (s : State) (g at64 hold : Nat) : Nat × State :=
  let p := partnerGate g
  let off := SMap.get 0 s.pwm.offAt p
  let earliest := if off = 0 then 0 else off + hold
  if at64 < earliest then (earliest, (s.inc PWM.INTERLOCK.COUNT).raise (srcPWM 1)) else (at64, s.unlive (srcPWM 1))

/-- One turn-on scheduled. -/
def State.schedule (s : State) (g at64 hold : Nat) : State :=
  let r := s.interlock g at64 hold
  let s := r.2
  { s with pwm := { s.pwm with due := s.pwm.due.filter (fun d => d.1 != g) ++ [(g, r.1, false)] } }

/-- The gates commanded `p` from instant `t` on (R181): turn-offs at `t`; the turn-on of a leg edge after its dead time, of a leg that was
off after DTCEIL. Forced turn-ons wait for DTCEIL under the interlock alone (R199). -/
def State.command (s : State) (p t : Nat) (forced : Bool) : State :=
  let old := s.pwm.pattern
  let offs := (List.range 4).filter (fun g => old.testBit g && !p.testBit g)
  let ons := (List.range 4).filter (fun g => !old.testBit g && p.testBit g)
  let s := s.dsatIdle (offs.filter (fun g => s.pwm.gates.testBit g))
  let s := offs.foldl (fun s g =>
    let wasOn := s.pwm.gates.testBit g
    { s with pwm := { s.pwm with
        gates := if wasOn then s.pwm.gates - 2 ^ g else s.pwm.gates
        offAt := if wasOn then SMap.set 0 s.pwm.offAt g t else s.pwm.offAt
        edges := s.pwm.edges.filter (fun e => !(e.gate == g && e.on.isNone))
        due := s.pwm.due.filter (fun d => d.1 != g) } }) s
  let s := { s with pwm := { s.pwm with pattern := p } }
  ons.foldl (fun s g =>
    if forced then s.schedule g t (s.get PWM.DTCEIL.CEIL)
    else
      let dt := if old.testBit (partnerGate g) then s.deadTime g else s.get PWM.DTCEIL.CEIL
      s.schedule g (t + dt) (s.get PWM.DTMIN.MIN)) s

/-- Force acts (R199). -/
def State.forceActs (s : State) : Bool := s.flag PWM.CFG.FORCEEN && s.pwm.latestBlockAll && s.get PWM.FORCE.EN != 0

/-- Force drives its gates: it acts, and no source of a higher rank does (R199, R201, R202). -/
def State.forceDrives (s : State) : Bool := s.forceActs && !s.saf.bypassed && !s.halted && !s.pwm.waitOrder && !s.clockless

/-- The pattern that the gates follow when the state unit gives `p` (R199, R201): forced gates by VAL, partners never both on. Answers
whether both partners were asked for. -/
def State.withForce (s : State) (p : Nat) : Nat × Bool :=
  if s.forceDrives then
    let en := s.get PWM.FORCE.EN
    let q := (List.range 4).foldl (fun m g =>
      if (if en.testBit g then (s.get PWM.FORCE.VAL).testBit g else p.testBit g) then m + 2 ^ g else m) 0
    let a := q % 4 == 3
    let b := q / 4 == 3
    ((if a then 0 else q % 4) + 4 * (if b then 0 else q / 4), a || b)
  else (p, false)

/-- The step that VSW is expected to make at an edge that turns gate `g` on, in VSW codes (R186, R217). -/
def State.expectedStep (s : State) (g : Nat) : Int :=
  let k := s.get ADC.VCAP.CODE * s.get ADC.VSWK.K / 65536
  let k : Int := (if k < 511 then k else 511 : Nat)
  if g = 0 ∨ g = 3 then k else -k

/-- Adapting edges of a transition that starts at `t`, noted for their swing checks (R187): one leg edge, not in a leg that force drives, a known
current sign, a valid VCAP code from SWVMIN on. With DTADAPT = 0 they are still checked (R188). -/
def State.noteEdges (s : State) (old p t : Nat) : State :=
  let driven (g : Nat) : Bool := s.forceDrives && s.getBit PWM.FORCE.EN g
  let edges := (List.range 4).filter (fun g => p.testBit g && !old.testBit g && old.testBit (partnerGate g) &&
    !driven g && !driven (partnerGate g))
  let code := s.get ADC.VCAP.CODE
  match edges with
  | [g] =>
    match s.dtIndex g with
    | some i =>
      if code ≠ 0xFFFF ∧ s.get PWM.SWVMIN.CODE ≤ code then
        { s with pwm := { s.pwm with edges := s.pwm.edges.filter (fun e => e.idx != i) ++
          [⟨i, s.deadTime g, g, s.expectedStep g, t, none⟩] } }
      else s
    | none => s
  | _ => s

/-- The state unit makes state `st` active from instant `t` (R181); `adapt`: the transition comes from the order pipeline or the local
generator. -/
def State.makeActive (s : State) (st t : Nat) (adapt : Bool) : State :=
  let s := s.integrate t
  let r := s.patternOf st
  let s := r.2
  let old := s.pwm.statePat
  let f := s.withForce r.1
  let s := if adapt then s.noteEdges old r.1 t else s
  let s := { s with pwm := { s.pwm with statePat := r.1 } }
  let s := s.command f.1 t false
  let s := if f.2 then s.raise (srcPWM 5) else if s.forceDrives then s.unlive (srcPWM 5) else s
  s.showState st

/-- FORCE written or its condition changed (R199, R200): the gates follow from the next 5 ns edge. -/
def State.forceApply (s : State) : State :=
  let f := s.withForce s.pwm.statePat
  let acts := s.forceDrives
  let s := if f.2 then s.raise (srcPWM 5) else if acts then s.unlive (srcPWM 5) else s
  let s := (s.setFlag PWM.STAT.FORCED acts).command f.1 (64 * (s.now5 + 1)) true
  if acts then s.spoil else s

/-- Force starts to drive gates, or stops, when a condition of R199 or R201 has changed. -/
def State.forceSync (s : State) : State := if s.forceDrives != s.flag PWM.STAT.FORCED then s.forceApply else s

/-! ## Turn-ons and the edges of test pulses (R252) -/

/-- The switches of the supply that feeds gate `g`: leg A by supply A, leg B by supply B where it is used (R248). -/
def State.supplyOf (s : State) (g : Nat) : Nat := if g < 2 ∨ !s.flag SAF.CFG.SUPB then 0 else 1

/-- A test pulse keeps the supply of gate `g` from a turn-on (R252). -/
def State.testHolds (s : State) (g : Nat) : Bool := (s.saf.tpPhase == 1 || s.saf.tpPhase == 2) && s.saf.tpSwitch / 2 == s.supplyOf g

/-- The read-back of the switch under test shows closed. -/
def State.testRb (s : State) : Bool := s.getBit SAF.STAT.RB s.saf.tpSwitch

/-- INCRUN of switch `n` set (R251, R253). -/
def incrunFld (n : Nat) : Fld := ⟨SAF.INCRUN.RUN.addr, 8 * n, 8⟩

/-- An aborted test (R252, R253): the switch is commanded closed, TPABORT and INCRUN count, TPINC at 8. -/
def State.abortTest (s : State) : State :=
  let n := s.saf.tpSwitch
  let s := (s.inc SAF.TPABORT.COUNT).inc (incrunFld n)
  let s := s.set SAF.STAT.TESTING 0
  let s := { s with saf := { s.saf with switches := s.saf.switches ||| 2 ^ n, tpPhase := 0,
                                        tpDue := s.tick + s.get SAF.TPCFG.EVERY } }
  if s.get (incrunFld n) ≥ 8 then s.raise (srcSAF 4) else s

/-- Gate `g` turns on at instant `t`; its counter advances (R207). -/
def State.turnOn (s : State) (g t : Nat) : State :=
  let s := { s with pwm := { s.pwm with
    gates := s.pwm.gates ||| 2 ^ g
    onAt := SMap.set 0 s.pwm.onAt g t
    edges := s.pwm.edges.map (fun (e : EdgeSt) => if e.gate = g ∧ e.on = none then { e with on := some t } else e)
    due := s.pwm.due.filter (fun d => d.1 != g) } }
  let s := if s.saf.dsat.testBit g then s.dsatFrom g else s
  s.setPair (PWM.ON_LO.COUNT g) (PWM.ON_HI.COUNT g) ((s.getPair (PWM.ON_LO.COUNT g) (PWM.ON_HI.COUNT g) + 1) % 2 ^ 48)

/-- A turn-on falls due: at once, or, held back by a test pulse, when the read-back shows closed or 40 ns have passed (R252). -/
def State.turnOnDue (s : State) (d : Nat × Nat × Bool) : State :=
  if d.2.2 then
    if s.testRb || decide (d.2.1 + 512 ≤ s.time64) then s.turnOn d.1 s.time64 else s
  else s.turnOn d.1 d.2.1

/-- The turn-ons that fall due now and meet a test pulse on their supply are held back and counted; they abort a test whose switch is commanded open
(R252). -/
def State.holdTurnOns (s : State) : State :=
  let meets (d : Nat × Nat × Bool) : Bool := decide (d.2.1 ≤ s.time64) && !d.2.2 && s.testHolds d.1
  if s.pwm.due.any meets then
    let n := (s.pwm.due.filter meets).length
    let t := { s with pwm := { s.pwm with due := s.pwm.due.map (fun d => if meets d then (d.1, d.2.1, true) else d) } }
    let t := t.add SAF.TPDELAY.COUNT n
    if t.saf.tpPhase = 1 then t.abortTest else t
  else s

/-! ## Refusals (R166, R240) -/

/-- The direction rule refuses state `st` now (R240). -/
def State.refuses (s : State) (st : Nat) : Bool :=
  let i := s.pwm.iarm
  let db := s.get ENV.SDFDB.DB
  s.sense.softActive && !s.basecamp && s.flag ENV.SSTAT.SDF &&
    (if st = 1 then !(f32finite i && f32lt i (f32neg db)) else if st = 2 then !(f32finite i && f32lt db i) else false)

/-- A target or a local state was received: BADSTATE where it is Reversed in a half-bridge cell or the invalid code (R179). -/
def State.judgeState (s : State) (bad : Bool) : State := if bad then s.raise (srcPWM 4) else s.unlive (srcPWM 4)

/-- The state that the cell takes for a wanted one: Reversed of a half-bridge becomes Zeroed (R179), a refused state Zeroed with REFUSED
(R166). Answers whether it was refused. -/
def State.permitState (s : State) (st : Nat) : Nat × Bool × State :=
  if st = 2 ∧ !s.fullBridge then (3, false, s)
  else if s.refuses st then (3, true, s.inc SCR.REFUSED.COUNT)
  else (st, false, s)

/-! ## Trim lengths (R183) -/

/-- What a length L gives against a period of `t64`: none Zeroed for the whole time, the period itself the state for the whole time. -/
inductive TrimOut where
  | zero (short : Bool)
  | part (len : Nat)
  | whole (long : Bool)
  deriving DecidableEq, Repr

/-- The length of R183 for a demand of `l` with the least length `m` in a tick of `t64`; M/2 is rounded down for an odd M (DESIGN CHOICE, log entry 165). -/
def trimLength (l m t64 : Nat) : TrimOut :=
  if 2 * m > t64 then (if 2 * l < t64 then .zero false else .whole false)
  else if l = 0 then .zero false
  else if l < m / 2 then .zero true
  else if l < m then .part m
  else if l ≤ t64 - m then .part l
  else if l < t64 - m / 2 then .part (t64 - m)
  else .whole true

/-- M of R183. -/
def State.trimM (s : State) : Nat :=
  let a := s.get PWM.TRIMMIN.MIN
  let b := s.get PWM.DTCEIL.CEIL + s.get PWM.DTMIN.MIN
  if a < b then b else a

/-- TRIMSHORT and TRIMLONG counted (R183). -/
def State.countTrim (s : State) : TrimOut → State
  | .zero true => s.inc PWM.TRIMSHORT.COUNT
  | .whole true => s.inc PWM.TRIMLONG.COUNT
  | _ => s

/-! ## The apply instant -/

/-- The pending values: PERIOD, DUTY, LSTATE (ON, OFF), DTFLOOR. -/
def State.pendingValues (s : State) : List Nat :=
  [s.get PWM.PERIOD.PERIOD, s.get PWM.DUTY.DUTY, s.get PWM.LSTATE.ON + 16 * s.get PWM.LSTATE.OFF, s.get PWM.DTFLOOR.FLOOR]

/-- The reload of pending values `v` with the corrections of R198. -/
def State.reload (s : State) (v : List Nat) : State :=
  let per := v.getD 0 0
  let per' := if per < 20 then 20 else if 4000 < per then 4000 else per
  let duty := v.getD 1 0
  let duty' := if 64 * per' < duty then 64 * per' else duty
  let flr := v.getD 3 0
  let flr1 := if flr < s.get PWM.DTMIN.MIN then s.get PWM.DTMIN.MIN else flr
  let flr' := if s.get PWM.DTCEIL.CEIL < flr1 then s.get PWM.DTCEIL.CEIL else flr1
  let s := (s.set PWM.ACTPERIOD.PERIOD per').set PWM.ACTDUTY.DUTY duty'
  let s := s.set PWM.ACTLSTATE.LSTATE (v.getD 2 0)
  let s := (s.set PWM.ACTFLOOR.FLOOR flr').set PWM.STAT.PENDING 0
  let s := s.stickIf (per' != per || duty' != duty) PWM.STAT.CLAMP
  let s := s.stickIf (flr' != flr) PWM.STAT.FLRCLAMP
  (List.range 8).foldl (fun s i => if s.get (PWM.DT.DT i) < flr' then s.set (PWM.DT.DT i) flr' else s) s

/-- The reload at the apply instant of tick `k` (R196); values written in its own cycle wait for the next one with PENDING kept (R197). -/
def State.reloadAt (s : State) (k : Nat) : State :=
  match s.pwm.before with
  | some (pend, v) =>
    let s := { s with pwm := { s.pwm with before := none, reloadTick := some (k, pend) } }
    if pend then (s.reload v).set PWM.STAT.PENDING 1 else s
  | none =>
    let pend := s.flag PWM.STAT.PENDING
    let s := { s with pwm := { s.pwm with reloadTick := some (k, pend) } }
    if pend then s.reload s.pendingValues else s

/-- All adapted dead times at the ceiling (R189). -/
def State.dtToCeil (s : State) : State :=
  (List.range 8).foldl (fun s i => s.set (PWM.DT.DT i) (s.get PWM.DTCEIL.CEIL)) s

/-- A local grant ends (R195). -/
def State.endGrant (s : State) : State :=
  let left := s.pwm.localLeft || s.flag PWM.STAT.LOCAL
  let s := (s.set PWM.LGRANT.TICKS 0).set PWM.STAT.LOCAL 0
  { s with pwm := { s.pwm with localDuty := none, localEnd := none, grantEnd := false, localLeft := left } }

/-- The grant at an apply instant: ended by command, started, or one tick older (R195, R206). -/
def State.grantTick (s : State) : State :=
  let s := if s.pwm.grantEnd then s.endGrant else s
  match s.pwm.grantNext with
  | some n => { s.set PWM.LGRANT.TICKS n with pwm := { s.pwm with grantNext := none } }
  | none =>
    let n := s.get PWM.LGRANT.TICKS
    if n = 0 ∨ n = 0xFFFF then s else if n = 1 then s.endGrant else s.set PWM.LGRANT.TICKS (n - 1)

/-- Local mode runs (R194). -/
def State.localMode (s : State) : Bool :=
  s.flag PWM.CFG.LOCALEN && s.get PWM.LGRANT.TICKS != 0 && s.pwm.latestBlockAll

/-- ACTLSTATE code as a state: 0 Zeroed, 1 Inserted, 2 Reversed; 3 sets BADSTATE and acts as Zeroed (R179). -/
def State.localState (s : State) (code : Nat) : Nat × State :=
  (if code = 1 then 1 else if code = 2 then 2 else 3, s.judgeState (code == 3 || code == 2 && !s.fullBridge))

/-- The local generator drives one of its states through the refusals (R194). -/
def State.localDrive (s : State) (code t : Nat) : State :=
  let c := s.localState code
  let a := c.2.permitState c.1
  let s := a.2.2.makeActive a.1 t true
  { s with pwm := { s.pwm with full := a.1 } }

/-- A period of the local generator starts at `t` (R194). -/
def State.localPeriod (s : State) (t : Nat) : State :=
  let len := 64 * s.get PWM.ACTPERIOD.PERIOD
  let on := s.get PWM.ACTLSTATE.LSTATE % 4
  let off := s.get PWM.ACTLSTATE.LSTATE / 16 % 4
  let out := trimLength (s.get PWM.ACTDUTY.DUTY) s.trimM len
  let s := (s.countTrim out).set PWM.STAT.LOCAL 1
  let s := { s with pwm := { s.pwm with localEnd := some (t + len), localDuty := none } }
  match out with
  | .zero _ => s.localDrive off t
  | .whole _ => s.localDrive on t
  | .part l =>
    let s := s.localDrive on t
    { s with pwm := { s.pwm with localDuty := some (t + l) } }

/-- The cell's full state set at the apply instant of tick `k`; a change starts a dwell period, entry into Blocked does not (R165). -/
def State.setFull (s : State) (st k : Nat) : State :=
  let changed := s.pwm.full != st
  let s := { s with pwm := { s.pwm with full := st } }
  if changed then
    { s with scr := { s.scr with changeTick := if st = 0 ∨ st = 4 then none else some k } }
  else s

/-- The whole tick in one state. -/
def State.wholeTick (s : State) (st k t : Nat) : State :=
  ((s.makeActive st t true).setFull st k).set PWM.STAT.TRIM 0

/-- Entry into Blocked at an apply instant (R23, R164); gates that force drives stay as it drives them (R201). -/
def State.block (s : State) (t : Nat) : State :=
  let s := (s.makeActive 0 t false).set PWM.STAT.TRIM 0
  { s with pwm := { s.pwm with full := 0, trimEnd := none, localDuty := none, localEnd := none }
           scr := { s.scr with changeTick := none } }

/-- MISSRUN has reached the missed-order count (R23): the cell enters Blocked and any grant ends (R195); MISSRUN is set in FLTSTAT (R173). -/
def State.missBlock (s : State) (t : Nat) : State :=
  let s := s.set SCR.CSTAT.INS 0
  let s := if s.pwm.full = 0 then s else (s.block t).raise (srcSCR 7)
  s.endGrant

/-- The Order of tick `k` treated as missed at its apply instant: full state held without trim, or Blocked when MISSRUN has reached the
missed-order count (R23, R167). -/
def State.applyMissed (s : State) (k t : Nat) : State :=
  let s := s.set SCR.CSTAT.TRIM 0
  if s.get SCR.CSTAT.MISSRUN ≥ s.cnv.missed then s.missBlock t
  else if s.pwm.full = 0 then s
  else
    let a := s.permitState s.pwm.full
    a.2.2.wholeTick a.1 k t

/-- The dwell period of R165 covers the apply instant of tick `k`. -/
def State.dwells (s : State) (k : Nat) : Bool :=
  match s.scr.changeTick with
  | some j => decide (j < k) && decide (k < j + s.get SCR.CFG.DWELL) && s.pwm.full != 0 && s.pwm.full != 4
  | none => false

/-- The state of a target that is in or trimming (R164). -/
def inState (neg : Bool) : Nat := if neg then 2 else 1

/-- The trim cell at its apply instant (R183, R184); TRIMLEN is the length of the target state in this tick, 0 where it is refused. -/
def State.applyTrim (s : State) (neg : Bool) (frac k t : Nat) : State :=
  let t64 := 64 * s.tu
  let out := trimLength ((frac * s.tu + 512) / 1024) s.trimM t64
  let s := s.countTrim out
  match out with
  | .zero _ => (s.set PWM.TRIMLEN.LEN 0).wholeTick 3 k t
  | .whole _ =>
    let a := s.permitState (inState neg)
    (a.2.2.set PWM.TRIMLEN.LEN (if a.1 = 3 then 0 else t64)).wholeTick a.1 k t
  | .part l =>
    let a := s.permitState (inState neg)
    let s := a.2.2.set PWM.TRIMLEN.LEN (if a.1 = 3 then 0 else l)
    if a.1 = 3 then s.wholeTick 3 k t
    else
      let s := ((s.makeActive a.1 t true).setFull 3 k).set PWM.STAT.TRIM 1
      { s with pwm := { s.pwm with trimEnd := some (t + l) } }

/-- A target of Reversed in a half-bridge cell is a target of Zeroed (R179). -/
def State.targetTaken (s : State) : Target → Target
  | .go true => if s.fullBridge then .go true else .out
  | .trim true frac => if s.fullBridge then .trim true frac else .out
  | tgt => tgt

/-- An obeyed NORMAL or BROKEN Order at its apply instant (R163 to R166, R179). A dwell hold keeps the full state for the whole tick, and TRIMLEN
shows how much of a trim target that is (R183). -/
def State.applyTarget (s : State) (tgt0 : Target) (k t : Nat) : State :=
  let trims := match tgt0 with | .trim _ _ => true | _ => false
  let s := s.setFlag SCR.CSTAT.TRIM trims
  let s := s.set SCR.CSTAT.INS (match tgt0 with | .go _ => 1 | _ => 0)
  let tgt := s.targetTaken tgt0
  let s := s.judgeState (tgt != tgt0)
  let want := match tgt with | .go neg => inState neg | .trim neg _ => inState neg | _ => 3
  let trimming := match tgt with | .trim _ _ => true | _ => false
  if s.dwells k then
    let differs := trimming || want != s.pwm.full
    let s := (s.setFlag SCR.CSTAT.DWELLHELD differs)
    let s := if differs then s.inc SCR.DWELLHOLD.COUNT else s
    let a := s.permitState s.pwm.full
    let s := if trims then a.2.2.set PWM.TRIMLEN.LEN (if trimming && a.1 == want then 64 * s.tu else 0) else a.2.2
    s.wholeTick a.1 k t
  else
    match tgt with
    | .trim neg frac => s.applyTrim neg frac k t
    | _ =>
      let a := s.permitState want
      let s := if trims then a.2.2.set PWM.TRIMLEN.LEN 0 else a.2.2
      s.wholeTick a.1 k t

/-- The order pipeline at the apply instant of tick `k` (rank 6). -/
def State.applyOrder (s : State) (k t : Nat) : State :=
  let s := s.set SCR.CSTAT.DWELLHELD 0
  match s.scr.orders.find? (fun o => o.tick == k) with
  | none => s.applyMissed k t
  | some o =>
    match o.target with
    | .missed => s.applyMissed k t
    | .blockAll =>
      let s := (s.set SCR.CSTAT.TRIM 0).set SCR.CSTAT.INS 0
      if s.pwm.full = 0 then s else s.block t
    | tgt => s.applyTarget tgt k t

/-- The tick has no Order that the cell obeys, or one that it treats as missed (R90, R167). -/
def State.missedAt (s : State) (k : Nat) : Bool :=
  match s.scr.orders.find? (fun o => o.tick == k) with
  | none => true
  | some o => o.target == .missed

/-- The apply instant of tick `k` (R181): outside Run and in Basecamp the cell stays Blocked (R65, R396), and under the clockless path (R201); else reload, dead-time reset, BYPASS, grant, then the highest-ranked source (R201). -/
def State.applyInstant (s : State) : State :=
  if !(s.runs bPWM && s.isCell && s.tickEvents && s.pwm.configured) then s
  else
    let k := s.tickAt s.offApply
    let t := (k * s.tu + s.offApply) * 64
    let s := { s with pwm := { s.pwm with trimEnd := none } }
    let s := s.reloadAt k
    let s := if s.pwm.dtReset then { s.dtToCeil with pwm := { s.dtToCeil.pwm with dtReset := false } } else s
    if s.pwm.bypassNext then ({ s with pwm := { s.pwm with bypassNext := false } } : State).bypassCommand
    else if s.saf.bypassed then s
    else
      let s := s.grantTick
      let release := match s.pwm.releaseTick with | some j => decide (j ≤ k) && s.pwm.halted == 0 | none => false
      let s := if release then ({ s with pwm := { s.pwm with waitOrder := false, releaseTick := none } } : State).forceSync else s
      if s.halted || s.pwm.waitOrder || s.clockless then s
      else if !s.inRun || s.basecamp then
        if s.pwm.full = 0 then s.set SCR.CSTAT.TRIM 0 else (s.set SCR.CSTAT.TRIM 0).block t
      else
      let s := if s.localMode && s.missedAt k && decide (s.cnv.missed ≤ s.get SCR.CSTAT.MISSRUN) then s.missBlock t else s
      if s.localMode then s.localPeriod t
      else
        let s := if s.flag PWM.STAT.LOCAL || s.pwm.localLeft then
            let s := { (s.set PWM.STAT.LOCAL 0) with pwm := { s.pwm with localDuty := none, localEnd := none, localLeft := false } }
            if s.pwm.latestBlockAll then s.block t else s
          else s
        s.applyOrder k t

/-! ## Within the tick -/

/-- The end of the trim interval (R184): the transition to Zeroed at its instant. -/
def State.trimEndNow (s : State) : State :=
  match s.pwm.trimEnd with
  | none => s
  | some e =>
    if e / 64 ≤ s.now5 && s.runs bPWM then
      let s := { s with pwm := { s.pwm with trimEnd := none } }
      (s.makeActive 3 e true).set PWM.STAT.TRIM 0
    else s

/-- The on-interval of the local generator ends (R194). -/
def State.localDutyEnd (s : State) : State :=
  match s.pwm.localDuty with
  | none => s
  | some e =>
    if e / 64 ≤ s.now5 && s.runs bPWM then
      let s := { s with pwm := { s.pwm with localDuty := none } }
      s.localDrive (s.get PWM.ACTLSTATE.LSTATE / 16 % 4) e
    else s

/-- A period of the local generator ends and a new one starts (R194). -/
def State.localPeriodEnd (s : State) : State :=
  match s.pwm.localEnd with
  | none => s
  | some e => if e / 64 ≤ s.now5 && s.runs bPWM && s.localMode then s.localPeriod e else s

/-- The tick count of a local grant runs out (R195). -/
def State.grantExpire (s : State) : State := if s.get PWM.LGRANT.TICKS = 1 then s.endGrant else s

/-- The present cycle is that of an apply instant. -/
def State.atApply (s : State) : Bool := s.tickEvents && (s.now5 - s.offApply) % s.tu == 0 && decide (s.offApply ≤ s.now5)

/-- VSW converts (R217). -/
def State.vswConverts (s : State) : Bool := s.inst bPWM && s.runs bADC && s.flag ADC.CTRL.VSWEN

/-- The code of a VSW sample of r / 2^20 codes, with the fused trims alone, saturated (R217). -/
def vswCode (r : Int) : Int :=
  clampI (-512) 511 (divRoundAway (r * (2 ^ 20 + Config.fusedVswGain) + Config.fusedVswOffset * 2 ^ 36) (2 ^ 40))

/-- When the samples that start with the turn-off, one each 2.5 ns, first show `th`/256 of the step `step` (R186), in 78.125 ps. The level before the
step is that of the first sample (DESIGN CHOICE, log entry 166). -/
def crossing (codes : List Int) (step : Int) (th : Nat) : Option Nat :=
  let base := codes.headD 0
  let moved (c : Int) : Int := if 0 ≤ step then c - base else base - c
  (codes.findIdx? (fun c => decide ((th * step.natAbs : Nat) ≤ 256 * moved c))).map (· * 32)

/-- The floor that an adaptation in this cycle is clamped to (R209): a reload at an apply instant of the same cycle acts first. -/
def State.floorNow (s : State) : Nat :=
  let k := s.tickAt s.offApply
  let waits := match s.pwm.reloadTick with | some r => r.1 != k | none => true
  if s.atApply && s.flag PWM.STAT.PENDING && waits && s.pwm.before.isNone then
    let f := s.get PWM.DTFLOOR.FLOOR
    let f := if f < s.get PWM.DTMIN.MIN then s.get PWM.DTMIN.MIN else f
    if s.get PWM.DTCEIL.CEIL < f then s.get PWM.DTCEIL.CEIL else f
  else s.get PWM.ACTFLOOR.FLOOR

/-- The swing window of an edge ends (R187, R188; with DTADAPT = 0 no value moves): `vsw` are the samples from its turn-off on, one each 2.5 ns, in
2⁻²⁰ codes. The turn-on is the one that took place (R252). -/
def State.swingCheck (s : State) (idx : Nat) (vsw : List Int) : State :=
  match s.pwm.edges.find? (fun e => e.idx == idx) with
  | none => s
  | some e =>
    match e.on with
    | none => s
    | some onAt =>
      let swing := s.get PWM.VSWTH.SWINGMAX
      if !s.runs bPWM || decide (s.time64 < onAt + swing) then s
      else
        let codes := if s.vswConverts then vsw.map vswCode else []
        let tStart := crossing codes e.step (s.get PWM.VSWTH.START)
        let tDone := crossing codes e.step (s.get PWM.VSWTH.DONE)
        let tOn := onAt - e.off
        let s := { s with pwm := { s.pwm with edges := s.pwm.edges.filter (fun x => x.idx != idx) } }
        let step : Int := s.get PWM.DTADJ.STEP
        let dt : Int := e.dt
        let doneIn := match tDone with | some d => decide (d < tOn) | none => false
        let startIn := match tStart with | some d => decide (d < tOn) | none => false
        let target : Int :=
          if doneIn then (tDone.getD 0 : Int) + s.get PWM.DTADJ.MARGIN else if startIn then dt + step else dt - step
        let part := !doneIn && startIn
        let next := clampI s.floorNow (s.get PWM.DTCEIL.CEIL) (dt + clampI (-step) step (target - dt))
        let s := s.set (PWM.DT.SWING idx) (if doneIn then tDone.getD 0 else 0xFFFF)
        let s := if !s.flag PWM.CFG.DTADAPT then s
          else
            let s := s.set (PWM.DT.DT idx) next.toNat
            if part && next == (s.get PWM.DTCEIL.CEIL : Int) then (s.inc PWM.DTCEILHIT.COUNT).raise (srcPWM 2) else s.unlive (srcPWM 2)
        let seen := match tDone with | some d => decide (d ≤ tOn + swing) | none => false
        if seen then s.unlive (srcPWM 3) else (s.inc PWM.NOSWING.COUNT).raise (srcPWM 3)

/-- A soft condition has become live while the cell holds a refused state (R241): Zeroed at the next 5 ns edge, a trim ends, and the event
is counted in REFUSED and SDFMID. -/
def State.refuseNow (s : State) : State :=
  if s.pwm.configured && s.refuses (s.get PWM.STAT.STATE) then
    let s := { s with pwm := { s.pwm with trimEnd := none, localDuty := none, localEnd := none } }
    let s := (s.makeActive 3 (64 * (s.now5 + 1)) false).set PWM.STAT.TRIM 0
    let s := { s with pwm := { s.pwm with full := 3 } }
    (s.inc SCR.REFUSED.COUNT).inc ENV.SDFMID.COUNT
  else s

/-! ## Commands and registers of the block -/

/-- What the reload of this cycle takes: PENDING and the pending values as they stood before the cycle's first write (R196). -/
def State.keepBefore (s : State) : State :=
  if s.pwm.before.isSome then s
  else { s with pwm := { s.pwm with before := some (s.flag PWM.STAT.PENDING, s.pendingValues) } }

/-- A pending register or COMMIT is about to be written: in the cycle of an apply instant the write takes no part in that reload, sets LATE,
counts, and keeps PENDING set (R197). -/
def State.lateWrite (s : State) : State :=
  if s.atApply then
    let s := (s.stick PWM.STAT.LATE).inc PWM.LATECNT.COUNT
    match s.pwm.reloadTick with
    | some (k, ran) =>
      if k = s.tickAt s.offApply then (if ran then s.set PWM.STAT.PENDING 1 else s)
      else s.keepBefore
    | none => s.keepBefore
  else s

/-- COMMIT written (R196). -/
def State.pwmCommit (s : State) : State := if s.runs bPWM then s.lateWrite.set PWM.STAT.PENDING 1 else s

/-- FORCE written: without effect and with FORCEERR while force cannot act (R200). -/
def State.forceWritten (s : State) : State :=
  if s.flag PWM.CFG.FORCEEN && s.pwm.latestBlockAll && !s.saf.bypassed && !s.halted && !s.pwm.waitOrder && !s.clockless then s.forceApply
  else s.raise (srcPWM 5)

/-- An obeyed Order's mode reaches the state unit (R194, R195, R200): NORMAL and BROKEN end a grant and clear FORCE.EN. -/
def State.orderMode (s : State) (rmode : Nat) : State :=
  let s := { s with pwm := { s.pwm with latestBlockAll := decide (rmode = 3) } }
  let s := if rmode ≤ 1 then
      let s := if s.get PWM.LGRANT.TICKS ≠ 0 then { s with pwm := { s.pwm with grantEnd := true } } else s
      s.set PWM.FORCE.EN 0
    else s
  s.forceSync

/-- A core is halted for debug (R202): a cell's outputs go to Blocked at the next cycle edge. -/
def State.haltPwm (s : State) : State :=
  if s.isCell && s.runs bPWM then
    let s := (s.stick PWM.STAT.HALTBLK).inc PWM.HALTS.COUNT
    let s := { s with pwm := { s.pwm with waitOrder := true, releaseTick := none } }
    let s := s.spoil
    if s.saf.bypassed then s else s.takeOff 0 (64 * (s.now5 + 1))
  else s

/-- The instants, in 78.125 ps, at which output `g` is scheduled to make an edge, or may make one (R192). -/
def State.edgesAhead (s : State) (g : Nat) : List Nat :=
  ((s.pwm.due.filter (fun d => d.1 == g)).map (fun d => d.2.1)) ++ [s.pwm.trimEnd, s.pwm.localDuty, s.pwm.localEnd].filterMap id ++
    (if s.tickEvents then [((s.tickAt s.offApply + 1) * s.tu + s.offApply) * 64] else [])

/-- The line of output `g` may be replaced in this cycle (R192): 20 ns after its previous edge, 20 ns before its next. -/
def State.swapFree (s : State) (g : Nat) : Bool :=
  let now := s.time64
  [SMap.get 0 s.pwm.offAt g, SMap.get 0 s.pwm.onAt g].all (fun e => e == 0 || decide (e + 256 ≤ now)) &&
    (s.edgesAhead g).all (fun e => decide (now + 256 ≤ e)) && !s.atApply

/-- The calibrated spare replaces the line of the next output, once it may; the released line becomes the spare (R191, R192). -/
def State.replaceLine (s : State) : State :=
  let g := s.pwm.calTurn
  if s.pwm.swapWait && s.swapFree g then
    let old := s.pwm.lines.getD g 0
    { s.set PWM.CAL.SPARE old with
      pwm := { s.pwm with lines := s.pwm.lines.set g (s.get PWM.CAL.SPARE), calTurn := (g + 1) % 4, swapWait := false } }
  else s

/-- CALNOW or a multiple of 256 ticks (R191 to R193): the spare line, calibrated, is to replace the line of the next output, or is retired when
its deviation fails; without a spare nothing moves until a reset of reach W. -/
def State.calibrate (s : State) (ok : Bool) (dev : Nat) : State :=
  let sp := s.get PWM.CAL.SPARE
  if !s.runs bPWM || sp = 7 then s
  else
    let s := s.set PWM.CALDEV.PS dev
    if ok then (({ s.unlive (srcPWM 0) with pwm := { s.pwm with swapWait := true } } : State).set PWM.CAL.CALOK 1).replaceLine
    else
      let s := (s.setBit PWM.CAL.FAILED sp true).raise (srcPWM 0)
      ({ s with pwm := { s.pwm with swapWait := false } }.set PWM.CAL.CALOK 0).set PWM.CAL.SPARE 7

/-- What the block does in every cycle: turn-ons whose instant has come (R181, R252), and a replacement that has waited (R192). -/
def State.gateTick (s : State) : State :=
  let s := s.holdTurnOns
  ((s.pwm.due.filter (fun d => decide (d.2.1 ≤ s.time64))).foldl State.turnOnDue s).replaceLine

/-- SNAPAT armed (R208). -/
def State.snapArm (s : State) : State :=
  let seq := s.get PWM.SNAPAT.SEQ
  if !s.runs bPWM then s
  else if farEnough s.tick seq then
    { s.set PWM.SNAPAT.ARMED 1 with pwm := { s.pwm with snapTick := namedTick s.tick seq } }
  else s.stick PWM.SNAPAT.LATE

/-- The named apply instant: the four counters are copied (R208). -/
def State.counterSnapshot (s : State) : State :=
  if s.runs bPWM && s.flag PWM.SNAPAT.ARMED && decide (s.pwm.snapTick * s.tu + s.offApply ≤ s.now5) then
    let s := s.set PWM.SNAPAT.ARMED 0
    (List.range 4).foldl (fun s g => s.setPair (PWM.SNAP_LO.COUNT g) (PWM.SNAP_HI.COUNT g)
      (s.getPair (PWM.ON_LO.COUNT g) (PWM.ON_HI.COUNT g))) s
  else s

end Sys2Proof.Machine
end

