-- ==== Sys2Proof/Machine/SafetyPath.lean ====
section
/-!
DEFINITION. Machine/SafetyPath.lean: the hard comparators, DSAT, the bypass and its read-back, the watchdog, the safety pair, the series
enables with their test pulses, the comparator self-test, the discharge check (R238 to R260).
-/

namespace Sys2Proof.Machine

/-! ## Trips -/

/-- A hard comparator sees the capacitor voltage above its threshold after its filter (R242): one trip, HARDTRIP. -/
def State.hardTrip (s : State) : State := if s.isCell then (s.raise (srcSAF 0)).trip else s

/-- ETRIPN conversions in a row with ENERGY at or above ETRIP (R238). -/
def State.sleTrip (s : State) : State :=
  if s.runs bENV && s.sense.softActive && decide (s.get ENV.ETRIPN.N ≤ s.sense.tripRun) && decide (0 < s.sense.tripRun) && !s.flag ENV.SSTAT.TRIP then
    ((s.set ENV.SSTAT.TRIP 1).raise (srcENVS 2)).trip
  else s

/-- An enabled DSATn has been high for FILT, in 5 ns cycles, while Gn is on (R245): a trip, or the DSAT latch, which blocks without bypass. `g` is
n − 1. -/
def State.dsatEvent (s : State) (g : Nat) : State :=
  if s.isCell && s.getBit SAF.DSATCFG.EN g && s.saf.dsat.testBit g && s.pwm.gates.testBit g &&
      decide (SMap.get 0 s.saf.dsatSince g + s.get SAF.DSATCFG.FILT ≤ s.time.cycles) then
    let s := s.raise (srcSAF 1)
    if s.flag SAF.CFG.DSATBYP then s.trip
    else
      let s := (s.set SAF.STAT.DSATLATCH 1).spoil
      (if s.saf.bypassed then s else s.takeOff 0 s.time64).enables
  else s

/-- DSATn takes a level (R245): rising while Gn is off it starts an interval counted in DSATIDLE. -/
def State.dsatLevel (s : State) (g : Nat) (high : Bool) : State :=
  let was := s.saf.dsat.testBit g
  let d := if high == was then s.saf.dsat else if high then s.saf.dsat + 2 ^ g else s.saf.dsat - 2 ^ g
  let s := { s with saf := { s.saf with dsat := d } }
  if !high || was then s
  else if s.pwm.gates.testBit g then s.dsatFrom g
  else if s.runs bSAF then s.dsatIdle [g] else s

/-! ## The bypass switch -/

/-- The filtered level of BYP_RB changes (R243). -/
def State.bypRbChange (s : State) (closed : Bool) : State :=
  let was := s.saf.wasClosed
  let closes := closed && !s.saf.bypRb
  let s := { s with saf := { s.saf with bypRb := closed, wasClosed := was || closed } }
  -- SAF checks while the clock runs
  if s.clk.stopped then s else
  let s := s.setFlag SAF.STAT.BYPCLOSED closed
  if closed then
    if closes && !s.flag SAF.STAT.BYP then (s.raise (srcSAF 6)).enterBypassed else s.unlive (srcSAF 5)
  else if s.saf.bypassed && was then s.raise (srcSAF 5)
  else s

/-- BYPTIME after the start of a BYP pulse with BYP_RB open (R243): one further pulse, then BYPFAIL. -/
def State.bypClosureCheck (s : State) : State :=
  let due := decide (s.saf.bypStart + s.get SAF.BYPCFG.BYPTIME * 200 ≤ s.time.cycles)
  if !(s.runs bSAF) || s.clk.stopped || !due || s.saf.bypRb || s.saf.bypPulses = 0 then s
  else if s.saf.bypPulses = 1 then
    if s.saf.bypHigh then { s with saf := { s.saf with bypAgain := true } } else s.bypPulse
  else s.raise (srcSAF 5)

/-- The one-shot ends its pulse, after BYPPULSE ±20 % as its analog timing has it, which no clock measures while the root stands; a further pulse that
the check has asked for follows without a break (R243). -/
def State.bypPulseEnd (s : State) : State :=
  if !s.saf.bypHigh || (!s.clk.stopped && decide (s.time.cycles < s.saf.bypStart + s.bypPulseMs * 160000)) then s
  else
    let s := { s with saf := { s.saf with bypHigh := false } }
    if s.saf.bypAgain then s.bypPulse else s

/-! ## Watchdog and safety pair -/

/-- A write to SAF.WDOG (R247): from the safety pair, a key that alternates serves the watchdog. -/
def State.watchdogWrite (s : State) (o : Origin) (key : Nat) : State :=
  if o.agent = 5 ∧ s.runs bSAF = true ∧ (key = 0xA5A5 ∨ key = 0x5A5A) ∧ s.saf.wdKey ≠ some key then
    { s with saf := { s.saf with wdKey := some key, wdCycle := s.time.cycles } }
  else s

/-- The watchdog has not been served in time, 5 µs at the least (R246). -/
def State.watchdogExpire (s : State) : State :=
  if s.runs bSAF && decide (s.saf.wdCycle + 1000 ≤ s.time.cycles) then (s.raise (srcSAF 10)).enterSafe 2 else s

/-- The cores of the safety pair differ (R246, R254): safe state, and the PAIRMIS reset of reach W (R403). -/
def State.pairMismatch (s : State) : State :=
  if s.runs bSAF then ((((s.raise (srcSAF 7)).enterSafe 1).inc RST.PAIRCNT.COUNT).assertReset 4 2 0) else s

/-! ## Series enables -/

/-- The switches of the used supplies (R248). -/
def State.usedSwitches (s : State) : List Nat := if s.flag SAF.CFG.SUPB then [0, 1, 2, 3] else [0, 1]

/-- Switch `n` is found welded (R249, R259): ENWELD; both switches of one supply trip the cell. -/
def State.weld (s : State) (n : Nat) : State :=
  let s := { s with saf := { s.saf with welded := s.saf.welded ||| 2 ^ n } }
  let both := s.saf.welded.testBit (2 * (n / 2)) && s.saf.welded.testBit (2 * (n / 2) + 1)
  if both then ((s.mark (srcSAF 2)).trip) else s.raise (srcSAF 2)

/-- Switch `n` has followed a command to open: it is not welded, and ENWELD is live only while some switch is (R262). -/
def State.notWelded (s : State) (n : Nat) : State :=
  let w := if s.saf.welded.testBit n then s.saf.welded - 2 ^ n else s.saf.welded
  let s := { s with saf := { s.saf with welded := w } }
  if w = 0 then s.unlive (srcSAF 2) else s

/-- TPINC is live while a byte of INCRUN stands at 8 or more, or a used switch lacks a complete test (R253, R262). -/
def State.showTpinc (s : State) : State :=
  if (List.range 4).any (fun n => decide (8 ≤ s.get (incrunFld n))) || s.saf.tpLate != 0 then s else s.unlive (srcSAF 4)

/-- A switch does not follow a command to close (R249, R251): ENOPEN trips the cell. -/
def State.enOpen (s : State) : State := (s.raise (srcSAF 3)).trip

/-- The read-backs through the TPDET filter (R249), bit per switch, 1 closed: a used one that disagrees with its command outside tests raises
ENOPEN or ENWELD. -/
def State.readbacks (s : State) (rb : Nat) : State :=
  if !s.runs bSAF then s
  else
    let s := s.set SAF.STAT.RB rb
    let used := s.usedSwitches.filter (fun n => !(s.saf.tpPhase != 0 && s.saf.tpPhase != 3 && n == s.saf.tpSwitch))
    let welds := used.filter (fun n => rb.testBit n && !s.saf.switches.testBit n)
    let opens := used.filter (fun n => !rb.testBit n && s.saf.switches.testBit n)
    let ok := (List.range 4).foldl (fun m n => if s.saf.welded.testBit n && rb.testBit n then m + 2 ^ n else m) 0
    let s := { s with saf := { s.saf with welded := ok } }
    let s := if !welds.isEmpty then welds.foldl State.weld s else if ok = 0 then s.unlive (srcSAF 2) else s
    if opens.isEmpty then s.unlive (srcSAF 3) else s.enOpen

/-! ## Test pulses -/

/-- The edges of a transition to state `st` at `t` (R181): its turn-offs, and its turn-ons after their dead times; and the state unit after it. -/
def State.plannedEdges (s : State) (st t : Nat) : List Nat × State :=
  let r := s.patternOf st
  let old := s.pwm.statePat
  let ons := (List.range 4).filter (fun g => r.1.testBit g && !old.testBit g)
  let at_ := ons.map (fun g => t + (if old.testBit (partnerGate g) then s.deadTime g else s.get PWM.DTCEIL.CEIL))
  (if r.1 = old then [] else t :: at_, { r.2 with pwm := { r.2.pwm with statePat := r.1 } })

/-- The edges of the local generator from a state change at `t` to `st` on. -/
def State.plannedLocal (p : List Nat × State) (code t : Nat) : List Nat × State :=
  let want := if code = 1 then 1 else if code = 2 && p.2.fullBridge then 2 else 3
  let e := p.2.plannedEdges (if p.2.refuses want then 3 else want) t
  (p.1 ++ e.1, e.2)

/-- The edges that the local generator makes before instant `stop` (R194). -/
def State.localEdges (s : State) (stop : Nat) : List Nat :=
  let len := 64 * s.get PWM.ACTPERIOD.PERIOD
  let on := s.get PWM.ACTLSTATE.LSTATE % 4
  let off := s.get PWM.ACTLSTATE.LSTATE / 16 % 4
  let first := match s.pwm.localDuty with | some e => State.plannedLocal ([], s) off e | none => ([], s)
  match s.pwm.localEnd with
  | none => first.1
  | some e0 =>
    ((List.range (if len = 0 then 0 else (stop - e0) / len + 1)).foldl (fun p j =>
      let t := e0 + j * len
      if stop ≤ t then p
      else
        match trimLength (s.get PWM.ACTDUTY.DUTY) s.trimM len with
        | .zero _ => State.plannedLocal p off t
        | .whole _ => State.plannedLocal p on t
        | .part l => State.plannedLocal (State.plannedLocal p on t) off (t + l)) first).1

/-- Instants at which the cell has made or scheduled an edge in the tick that ends at instant `stop` (R250), in 5 ns counts. -/
def State.edgeInstants (s : State) (stop : Nat) : List Nat :=
  let trim := match s.pwm.trimEnd with | some e => (s.plannedEdges 3 e).1 | none => []
  ((s.pwm.due.map (fun d => d.2.1)) ++ (s.pwm.offAt.map (fun e => e.2)) ++ (s.pwm.onAt.map (fun e => e.2)) ++ trim ++ s.localEdges stop).map (· / 64)

/-- The window at offset `off` (10 ns units) after apply instant `a` is free of edges and ends before the next apply instant (R250). -/
def State.windowFree (s : State) (a off : Nat) : Bool :=
  let w := a + 2 * off
  let g := 2 * s.get SAF.TPCFG.GUARD
  let lo := w - g
  let hi := w + s.get SAF.TPCFG.TPLEN + s.get SAF.TPCFG.TPDET + g
  (s.edgeInstants (64 * (a + s.tu))).all (fun e => decide (e < lo) || decide (hi < e)) && decide (hi < a + s.tu)

/-- The switch of the next test: the present one, or the first used one (R251). -/
def State.testSwitch (s : State) : Nat := if s.usedSwitches.contains s.saf.tpSwitch then s.saf.tpSwitch else 0

/-- At W the switch under test is commanded open (R251). -/
def State.testOpen (s : State) : State :=
  let n := s.testSwitch
  let sw := if s.saf.switches.testBit n then s.saf.switches - 2 ^ n else s.saf.switches
  { s.set SAF.STAT.TESTING 1 with saf := { s.saf with tpSwitch := n, tpPhase := 1, switches := sw } }

/-- A test falls due and its window is placed, or TWSKIP counts; at W the switch opens (R250). The event comes at the placing and at W. -/
def State.testStart (s : State) : State :=
  if !(s.runs bSAF && s.flag SAF.CFG.TPEN && s.get SAF.STAT.ENCMD != 0 && !s.flag SAF.STAT.TRIP && !s.flag SAF.STAT.SAFESTATE) then s
  else if s.saf.tpPhase = 3 then (if s.saf.tpW ≤ s.now5 then s.testOpen else s)
  else if s.saf.tpPhase = 0 && decide (s.saf.tpDue ≤ s.tick) then
    let a := s.tickAt s.offApply * s.tu + s.offApply
    let place (off : Nat) : State :=
      let s := { s with saf := { s.saf with tpPhase := 3, tpW := a + 2 * off } }
      if s.saf.tpW ≤ s.now5 then s.testOpen else s
    if s.windowFree a (s.get SAF.TWOFF.OFF1) then place (s.get SAF.TWOFF.OFF1)
    else if s.windowFree a (s.get SAF.TWOFF.OFF2) then place (s.get SAF.TWOFF.OFF2)
    else { s.inc SAF.TWSKIP.COUNT with saf := { s.saf with tpDue := s.tick + 1 } }
  else s

/-- The test ends: the switch is commanded closed, the next test falls due EVERY ticks later. -/
def State.testEnd (s : State) : State :=
  let s := s.set SAF.STAT.TESTING 0
  { s with saf := { s.saf with tpPhase := 0, switches := s.saf.switches ||| 2 ^ s.saf.tpSwitch,
                               tpDue := s.tick + s.get SAF.TPCFG.EVERY } }

/-- The read-back of the switch under test arrives. -/
def State.testReadback (s : State) (closed : Bool) : State := s.setBit SAF.STAT.RB s.saf.tpSwitch closed

/-- TPDET after opening: the read-back must show open (R251). -/
def State.testOpenCheck (s : State) (isOpen : Bool) : State :=
  if s.runs bSAF && s.saf.tpPhase = 1 then
    let s := s.testReadback (!isOpen)
    if isOpen then s.notWelded s.saf.tpSwitch else s.testEnd.weld s.saf.tpSwitch
  else s

/-- TPLEN after W: the switch is commanded closed (R251). -/
def State.testClose (s : State) : State :=
  if s.runs bSAF && s.saf.tpPhase = 1 then
    { s with saf := { s.saf with tpPhase := 2, switches := s.saf.switches ||| 2 ^ s.saf.tpSwitch } }
  else s

/-- TPDET after closing: the read-back must show closed; the test is complete, or ENOPEN (R251). -/
def State.testCloseCheck (s : State) (closed : Bool) : State :=
  if s.runs bSAF && s.saf.tpPhase = 2 then
    let n := s.saf.tpSwitch
    let s := (s.testReadback closed).testEnd
    if closed then
      let s := (s.inc SAF.TPDONE.COUNT).set (incrunFld n) 0
      let late := if s.saf.tpLate.testBit n then s.saf.tpLate - 2 ^ n else s.saf.tpLate
      let s := { s with saf := { s.saf with tpTicks := s.saf.tpTicks.set n 0, tpLate := late, tpSwitch := (n + 1) % s.usedSwitches.length } }
      (s.unlive (srcSAF 3)).showTpinc
    else s.enOpen
  else s

/-- A tick passes in which tests are enabled and the enables closed (R253). -/
def State.testTick (s : State) : State :=
  if s.runs bSAF && s.flag SAF.CFG.TPEN && s.get SAF.STAT.ENCMD != 0 then
    { s with saf := { s.saf with tpTicks := (List.range 4).map (fun n => s.saf.tpTicks.getD n 0 + (if s.usedSwitches.contains n then 1 else 0)) } }
  else s

/-- Switch `n` has had no complete test in 65 536 ticks while tests were enabled and the enables closed (R253). -/
def State.testTimeout (s : State) (n : Nat) : State :=
  if s.runs bSAF && s.usedSwitches.contains n && decide (65536 ≤ s.saf.tpTicks.getD n 0) then
    { s with saf := { s.saf with tpLate := s.saf.tpLate ||| 2 ^ n } }.raise (srcSAF 4)
  else s

/-- One hard comparator is tested (R244): `above` and `below` are the two checks. -/
def State.comparatorTest (s : State) (above below : Bool) : State :=
  let due := decide (s.saf.cmpTick + 256 * s.get SAF.CMPTEST.INTERVAL ≤ s.tick)
  let code := s.get ADC.VCAP.CODE
  if s.runs bSAF && s.flag SAF.CFG.CMPTEN && s.inRun && decide (0x1000 ≤ code) && code != 0xFFFF && due then
    let s := { s with saf := { s.saf with cmpTurn := 1 - s.saf.cmpTurn, cmpTick := s.tick } }
    if above && below then (s.inc SAF.CMPTDONE.COUNT).unlive (srcSAF 8) else s.raise (srcSAF 8)
  else s

/-! ## Discharge check (R255) -/

def State.dischargeStart (s : State) : State :=
  if !s.runs bENV then s
  else if s.saf.switches = 0 ∧ s.get SAF.STAT.ENCMD = 0 then
    let s := ((s.set ENV.DISSTAT.STATE 1).set ENV.DISSTAT.VFAIL 0).set ENV.DISELAPSED.MS 0
    { s with sense := { s.sense with disRun := 0, disFailMs := none } }
  else s.set ENV.DISSTAT.STATE 0

def State.dischargeStop (s : State) : State := if s.runs bENV then s.set ENV.DISSTAT.STATE 0 else s

/-- Once each millisecond: ENERGY against ERESID; 16 in a row below it give MET with the time of the first of them. -/
def State.dischargeCompare (s : State) : State :=
  if s.runs bENV && s.get ENV.DISSTAT.STATE == 1 then
    let s := s.inc ENV.DISELAPSED.MS
    let run := if f32lt (s.get ENV.ENERGY.E) (s.get ENV.ERESID.E) then s.sense.disRun + 1 else 0
    let s := { s with sense := { s.sense with disRun := run } }
    if run ≥ 16 then ((s.set ENV.DISSTAT.STATE 2).set ENV.DISELAPSED.MS (s.get ENV.DISELAPSED.MS - 15)).unlive (srcENVS 3)
    else s
  else s

/-- DISTIME has elapsed before MET. -/
def State.dischargeTimeout (s : State) : State :=
  if s.runs bENV && s.get ENV.DISSTAT.STATE == 1 && decide (s.get ENV.DISTIME.MS ≤ s.get ENV.DISELAPSED.MS) then
    let bad := match s.sense.disFailMs with
      | some m => decide (s.get ENV.DISELAPSED.MS ≤ m + 16)
      | none => false
    ((s.set ENV.DISSTAT.STATE 3).setIf bad ENV.DISSTAT.VFAIL 1).raise (srcENVS 3)
  else s

end Sys2Proof.Machine
end

