-- ==== Sys2Proof/Machine/Sensing.lean ====
section
/-!
DEFINITION. Machine/Sensing.lean: the converters, the energy ledger, the soft safety tier, the capacitance estimator, the sigma-delta
channels (R142, R149 to R151, R211 to R241), and the block of an arm that hardware or the trap handler sets (R174, R307, R309).
-/

namespace Sys2Proof.Machine

/-! ## VCAP and the ledger -/

/-- The code of a conversion whose ideal result is r / 2^20 (R213): r × (1 + G) + O, rounded, before the clamp. -/
def State.vcapRound (s : State) (r : Int) : Int :=
  let g : Int := Config.fusedGain + toSigned 16 (s.get ADC.VCAPTRIM.GAIN) + toSigned 16 (s.get ADC.CALCORR.GAIN)
  let o : Int := Config.fusedOffset + toSigned 16 (s.get ADC.VCAPTRIM.OFFSET) + toSigned 16 (s.get ADC.CALCORR.OFFSET)
  divRoundAway (r * (2 ^ 20 + g) + o * 2 ^ 36) (2 ^ 40)

/-- The ledger capacitance C_L (R227), binary32. -/
def State.ledgerC (s : State) : Nat :=
  let nom := s.get ENV.CNOM.C
  if s.flag ENV.LCFG.USEEST && s.sense.published then
    let up := f32add (s.get ENV.CEST.C) (f32mul 0x40000000 (s.get ENV.CSIGMA.C))
    if f32lt nom up then up else nom
  else nom

/-- E of R228: ((0.5 × C) × V) × V in binary32. -/
def energyOf (c v : Nat) : Nat := f32mul (f32mul (f32mul 0x3F000000 c) v) v

/-- The ledger takes a code (R228); 0xFFFF keeps V and E. -/
def State.ledger (s : State) (code : Nat) (sample : Bool) : State :=
  let s := s.set ENV.CLEDGER.C s.ledgerC
  let s :=
    if code = 0xFFFF then s
    else
      let v := f32mul (f32ofInt code) (s.get ADC.VCAPSCALE.SCALE)
      let e := energyOf (s.get ENV.CLEDGER.C) v
      let s := (s.set ENV.VOLTS.V v).set ENV.ENERGY.E e
      if f32lt (s.get ENV.EPEAK.E) e then s.set ENV.EPEAK.E e else s
  if sample then s.set ENV.ENERGYSI.E (s.get ENV.ENERGY.E) else s

/-- The safety pair recomputes the energy of the sample instant (R254); a difference raises LEDGERR and holds SLE live. -/
def State.recompute (s : State) : State :=
  let bad := energyOf (s.get ENV.CLEDGER.C) (s.get ENV.VOLTS.V) != s.get ENV.ENERGYSI.E
  s.level (srcENVS 4) bad id

/-- The soft tier after a conversion (R238, R239, R241): `code` is the conversion's, `counts` whether it enters the run of the SLE trip. -/
def State.softTier (s : State) (code : Nat) : State :=
  if !(s.sense.softActive && s.isCell) then s
  else
    let wasSoft := s.flag ENV.SSTAT.SOFT
    let wasSle := s.flag ENV.SSTAT.SLE
    let thr := s.get ENV.VSOFT.CODE
    let soft := if code = 0xFFFF then wasSoft else if code = 0xFFFE then true else if wasSoft then decide (thr ≤ code + s.get ENV.VSOFT.HYS) else decide (thr ≤ code)
    let e := s.get ENV.ENERGY.E
    let leave := f32sub (s.get ENV.EMAX.E) (s.get ENV.EHYS.E)
    let held := s.sense.sleHeld
    let above := if code = 0xFFFF then held else if held then !f32lt e leave else f32le (s.get ENV.EMAX.E) e
    let s := { s with sense := { s.sense with sleHeld := above } }
    -- LEDGERR keeps SLE live beside it (R254)
    let sle := above || s.flag (srcENVS 4).live
    let s := s.setFlag ENV.SSTAT.SOFT soft
    let s := s.setFlag ENV.SSTAT.SLE sle
    let s := s.setFlag ENV.SSTAT.SDF (soft || sle)
    let s := s.level (srcENVS 0) soft (fun s => s.inc ENV.SOFTCNT.COUNT)
    let s := s.level (srcENVS 1) sle (fun s => s.inc ENV.SLECNT.COUNT)
    let run := if code = 0xFFFF then s.sense.tripRun else if f32le (s.get ENV.ETRIP.E) e then s.sense.tripRun + 1 else 0
    let s := { s with sense := { s.sense with tripRun := run } }
    if (soft && !wasSoft) || (sle && !wasSle) then s.refuseNow else s

/-- The bin of a code (R149): the edges E1 to E63 at or below it. -/
def State.binOf (s : State) (code : Nat) : Nat :=
  countBelow (fun i => decide ((if (i + 1) % 2 = 0 then s.get (SCR.BINEDGE.EDGE_LO ((i + 1) / 2))
    else s.get (SCR.BINEDGE.EDGE_HI ((i + 1) / 2))) ≤ code)) 63

/-- The conversion of the latest sample instant: VCAPSI, bin, the estimator's sample (R149, R226, R230). -/
def State.sampleResult (s : State) (code : Nat) : State :=
  let s := s.set ADC.VCAPSI.CODE code
  let b := s.binOf code
  let s := { s with scr := { s.scr with bin := b } }
  let s := s.set SCR.CSTAT.BIN b
  let volts := s.get ENV.VOLTS.V
  let fill := match s.sense.samples with
    | x :: r => { x with code := code, volts := volts } :: r
    | [] => []
  { s with sense := { s.sense with sampleDone := true, samples := fill } }

/-- The self-calibration corrections stand at a limit (R215): ±64 codes of offset, ±1 % of gain. -/
def State.calLimit (s : State) : Bool :=
  decide (1024 ≤ (toSigned 16 (s.get ADC.CALCORR.OFFSET)).natAbs) || decide (10486 ≤ (toSigned 16 (s.get ADC.CALCORR.GAIN)).natAbs)

/-- A conversion of kind `kind` can end now (R212, R215): the one of the sample instant once in its tick, from VCAPDLY after it; the others of the tick at its
multiples of 200 ns; self-calibration in place of the first of these in ticks k with k mod 256 = 64 and 192; with no tick events, in place of every
6400th conversion, by turns. -/
def State.convDue (s : State) (kind : ConvKind) : Bool :=
  let cal := s.flag ADC.CTRL.CALEN
  if s.tickEvents then
    let k := s.tick
    let since := s.time64 - 64 * (k * s.tu)
    let slot := decide (2560 ≤ since) && decide (since < 5120)
    match kind with
    | .sample => s.sense.sampleTick == some k && !s.sense.sampleDone && decide (s.get ADC.VCAPDLY.DLY ≤ since)
    | .calZero => cal && k % 256 == 64 && slot
    | .calRef => cal && k % 256 == 192 && slot
    | .other => decide (2560 ≤ since) && !(cal && (k % 256 == 64 || k % 256 == 192) && slot)
  else
    let n := s.sense.convs + 1
    match kind with
    | .sample => false
    | .calZero => cal && n % 12800 == 6400
    | .calRef => cal && n % 12800 == 0
    | .other => !(cal && n % 6400 == 0)

/-- The conversion counted while no tick events fire (R215). -/
def State.countConv (s : State) : State := if s.tickEvents then s else { s with sense := { s.sense with convs := s.sense.convs + 1 } }

/-- The conversion of the sample instant ends later than 100 ns after it (R214). -/
def State.convLate (s : State) (kind : ConvKind) : Bool := kind == .sample && decide (64 * (s.tick * s.tu) + 1280 < s.time64)

/-- A conversion fails (R214): code 0xFFFF, VCAPFAIL. The ledger and the soft conditions keep what they hold (R228, R238). -/
def State.vcapFail (s : State) (kind : ConvKind) : State :=
  if !(s.runs bADC && s.flag ADC.CTRL.VCAPEN) then s
  else
    let sample := decide (kind = .sample)
    let s := ((s.set ADC.VCAP.CODE 0xFFFF).set ADC.STAT.VCAPVALID 0).inc ADC.VCAPFAIL.COUNT
    let s := s.raise (srcADC 0)
    let s := { s with sense := { s.sense with disFailMs := some (s.get ENV.DISELAPSED.MS) } }
    let s := if s.runs bENV then s.ledger 0xFFFF sample else s
    if sample then
      let s := s.sampleResult 0xFFFF
      let s : State := { s with scr := { s.scr with excluded := true } }
      if s.runs bENV then s.recompute.softTier 0xFFFF else s
    else s

/-- A conversion that does not complete, or fails its checks (R214). -/
def State.convFails (s : State) (kind : ConvKind) : State := if s.convDue kind then s.countConv.vcapFail kind else s

/-- A VCAP conversion completes (R213, R228): its ideal result is r / 2^20 codes. A self-calibration slot corrects offset or gain by at most
one unit, against the sign of what the correction leaves of the error (DESIGN CHOICE, log entry 167), stops for good at its limit, and leaves the ledger as it was
(R215). With REFOK = 0, or late, the conversion fails (R214). -/
def State.vcapConversion (s : State) (kind : ConvKind) (r : Int) : State :=
  if !(s.runs bADC && s.flag ADC.CTRL.VCAPEN && s.convDue kind) then s
  else if !s.flag ADC.STAT.REFOK || s.convLate kind then s.countConv.vcapFail kind
  else
    let s := s.countConv
    let raw := s.vcapRound r
    match kind with
    | .calZero =>
      let s := s.inc ADC.CALCNT.COUNT
      let o := toSigned 16 (s.get ADC.CALCORR.OFFSET)
      let o' := if o.natAbs ≥ 1024 then o else (if 0 < raw then o - 1 else if raw < 0 then o + 1 else o)
      let s := s.set ADC.CALCORR.OFFSET (ofSigned 16 o')
      s.level (srcADC 6) s.calLimit id
    | .calRef =>
      let s := s.inc ADC.CALCNT.COUNT
      let g := toSigned 16 (s.get ADC.CALCORR.GAIN)
      let g' := if g.natAbs ≥ 10486 then g else (if 49152 < raw then g - 1 else if raw < 49152 then g + 1 else g)
      let s := s.set ADC.CALCORR.GAIN (ofSigned 16 g')
      s.level (srcADC 6) s.calLimit id
    | _ =>
      let sample := decide (kind = .sample)
      let above := decide (65534 < raw)
      let code := (clampI 0 65534 raw).toNat
      let s := if above then s.inc ADC.OVERCNT.COUNT else s
      let s := s.level (srcADC 2) above id
      let s := s.level (srcADC 3) (decide (100 * r < -65536 * 2 ^ 20)) id
      let s := ((s.set ADC.VCAP.CODE code).set ADC.STAT.VCAPVALID 1).unlive (srcADC 0)
      if !s.runs bENV then (if sample then s.sampleResult code else s)
      else
        let s := s.ledger code sample
        let s := if sample then (s.sampleResult code).recompute else s
        s.softTier code

/-- REFOK shows the level of the monitor while the ADC runs (R216); before its first report since power-on it keeps its reset value. -/
def State.showRef (s : State) : State :=
  match s.pin.vref with
  | some ok => if s.runs bADC then (s.setFlag ADC.STAT.REFOK ok).level (srcADC 1) (!ok) id else s
  | none => s

/-- VREFADC leaves or re-enters its band (R216). -/
def State.vrefBand (s : State) (ok : Bool) : State := ({ s with pin := { s.pin with vref := some ok } } : State).showRef

/-! ## AUX and temperature -/

/-- Linear interpolation in the table of channel `n` (R219), evaluated as v_j + (v_{j+1} − v_j) × f with f the exact fraction in binary32. -/
def State.auxTable (s : State) (n raw : Nat) : Nat :=
  let j := raw / 256
  let a := s.get (ADC.AUXTAB.VALUE n j)
  let b := s.get (ADC.AUXTAB.VALUE n (j + 1))
  let f := fpOfRat fmt32 (raw % 256 : Nat) (if j = 15 then 255 else 256)
  f32add a (f32mul (f32sub b a) f)

/-- The result of channel `n` (R219): AUXRAW, its value, and at either end of the range VALID 0 with AUXRANGE, which stays live while any channel stands
there. -/
def State.auxResult (s : State) (n raw : Nat) : State :=
  let v := if s.getBit ADC.AUXCTL.LIN n then s.auxTable n raw
    else f32add (f32mul (s.get (ADC.AUXGAIN.GAIN n)) (f32ofInt raw)) (s.get (ADC.AUXOFF.OFFSET n))
  let s := (s.set (ADC.AUXRAW.RAW n) raw).set (ADC.AUXVAL.VALUE n) v
  let bad := maskOf (fun m => if m = n then raw == 0 || raw == 0xFFF else s.sense.auxBad.testBit m && s.getBit ADC.AUXCTL.EN m) 4
  let s := { s.setFlag (ADC.AUXRAW.VALID n) (!bad.testBit n) with sense := { s.sense with auxBad := bad } }
  if bad.testBit n then s.raise (srcADC 5) else if bad = 0 then s.unlive (srcADC 5) else s

/-- A conversion of AUX channel `n` completes (R218): free-running, or one of those that a compare unit started; the mean of 2^AVG of them, rounded down
(DESIGN CHOICE, log entry 168), is the result. -/
def State.auxConversion (s : State) (n raw : Nat) : State :=
  if !(s.runs bADC && s.getBit ADC.AUXCTL.EN n && decide (n < 4) && (!s.flag ADC.AUXCTL.MODE || s.sense.auxLeft.testBit n)) then s
  else
    let p := SMap.get (0, 0) s.sense.auxSum n
    let sum := p.1 + raw % 4096
    let cnt := p.2 + 1
    if cnt < 2 ^ s.get ADC.AUXCTL.AVG then { s with sense := { s.sense with auxSum := SMap.set (0, 0) s.sense.auxSum n (sum, cnt) } }
    else
      let left := if s.sense.auxLeft.testBit n then s.sense.auxLeft - 2 ^ n else s.sense.auxLeft
      ({ s with sense := { s.sense with auxSum := SMap.set (0, 0) s.sense.auxSum n (0, 0), auxLeft := left } } : State).auxResult n (sum / cnt)

/-- A compare unit with DEST 0x2 fires (R218): in compare-started mode the conversions of every enabled channel start, or, while earlier ones run, the fire is
ignored and counted. -/
def State.auxFire (s : State) : State :=
  if !(s.runs bADC && s.flag ADC.AUXCTL.MODE) then s
  else if s.sense.auxLeft != 0 then (s.inc ADC.AUXOVR.COUNT).raise (srcADC 4)
  else { s.unlive (srcADC 4) with sense := { s.sense with auxLeft := s.get ADC.AUXCTL.EN, auxSum := [] } }

def State.dieTemp (s : State) (t : Nat) : State := if s.runs bADC then s.set ADC.DIETEMP.TEMP t else s

/-- The Tally TEMP code of the latest value (R220). Ties round away from zero, a NaN gives 0xFF, an infinity the nearer end (DESIGN CHOICE, log entry 169). -/
def State.tempCode (s : State) : Nat :=
  let src := s.get ADC.AUXCTL.TEMPSRC
  let code (t : Int) : Nat := (clampI 0 254 (t + 64)).toNat
  if src < 4 then
    if s.flag (ADC.AUXRAW.VALID src) then
      match f32 (s.get (ADC.AUXVAL.VALUE src)) with
      | .nan => 0xFF
      | .inf neg => if neg then 0 else 254
      | x => match fpToIntAway x with
        | some t => code t
        | none => 0xFF
    else 0xFF
  else if src = 4 then code (divRoundAway (toSigned 16 (s.get ADC.DIETEMP.TEMP)) 16)
  else 0xFF

/-! ## Capacitance estimator -/

/-- σ sums and samples at a sample instant `k` (R229, R230): the tick that ends is closed with its sum and its spoil mark; CPROG counts on (R237). -/
def State.estimatorSample (s : State) (k : Nat) : State :=
  let t := k * s.tu * 64
  let s := s.integrate t
  let x : SampleSt := ⟨k, 0xFFFF, 0, s.sense.spoiled, s.sense.sigmaSum⟩
  let s := { s with sense := { s.sense with
      samples := (x :: s.sense.samples).take 4, sigmaSum := 0, sigmaAt := t
      spoiled := s.saf.bypassed || s.halted || s.forceDrives } }
  match s.sense.windowTick with
  | some w => s.set ENV.CPROG.TICKS (k - w)
  | none => s

/-- The code is usable (R230). -/
def codeUsable (c : Nat) : Bool := c != 0xFFFF && c != 0 && c != 0xFFFE

/-- |x| in binary32 is at least `m`, and x is finite. -/
def State.currentUsable (s : State) (i : Nat) : Bool := f32finite i && f32le (s.get ENV.CIMIN.I) (f32abs i)

/-- HEALTH after a valid window (R232). -/
def State.health (s : State) (c sg : Nat) : State :=
  let up := f64add c (f64mul (f64ofInt 2) sg)
  let nom := f32to64 (s.get ENV.CNOM.C)
  if f64lt up (f64mul (f32to64 (s.get ENV.CFAIL.RATIO)) nom) then
    ((s.set ENV.CSTAT.HEALTH 3).unlive (srcENV 0)).raise (srcENV 1)
  else if f64lt up (f64mul (f32to64 (s.get ENV.CWARN.RATIO)) nom) then
    ((s.set ENV.CSTAT.HEALTH 2).unlive (srcENV 1)).raise (srcENV 0)
  else ((s.set ENV.CSTAT.HEALTH 1).unlive (srcENV 0)).unlive (srcENV 1)

/-- The registers that the close of a window writes. -/
def windowRegs : List Nat :=
  [ENV.CEST.C.addr, ENV.CSIGMA.C.addr, ENV.CLEAK.I.addr, ENV.CNUSED.N.addr, ENV.CSTAT.HEALTH.addr, ENV.CWINCNT.COUNT.addr, ENV.CLEDGER.C.addr,
    ENV.FLTSTAT.STAT.addr, ENV.FLTLIVE.LIVE.addr]

/-- The tick of the latest Order that the cell has accepted (R230). -/
def State.latestIarm (s : State) : Nat := match s.sense.iarms.head? with | some p => p.1 | none => 0

/-- The open window closes once the Order of a tick 2^WLOG after its first has been accepted (R231, R232). -/
def State.windowClose (s : State) : State :=
  match s.sense.windowTick with
  | none => s
  | some w =>
    if !(s.runs bENV && decide (w + 2 ^ s.get ENV.LCFG.WLOG ≤ s.latestIarm)) then s
    else
      let was := (windowRegs.map (fun a => (a, s.reg a)), s.sense.published)
      let u := s.sense.sums
      let n := f64ofInt u.n
      let sxx := f64sub u.sqq (f64div (f64mul u.sq u.sq) n)
      let sxy := f64sub u.sqv (f64div (f64mul u.sq u.sv) n)
      let syy := f64sub u.svv (f64div (f64mul u.sv u.sv) n)
      let a := f64div sxy sxx
      let b := f64div (f64sub u.sv (f64mul a u.sq)) n
      let s2 := f64div (f64sub syy (f64mul a sxy)) (f64ofInt ((u.n : Int) - 2))
      let c := f64div (f64ofInt 1) a
      let sg := f64mul (f64mul c c) (f64sqrt (f64div s2 sxx))
      let tt := fpOfRat fmt64 s.tu (200 * 10 ^ 6)
      let leak := f64div (f64mul (f64mul b (f64ofInt (-1))) c) tt
      let lim := f64mul (f32to64 (s.get ENV.SIGREL.RATIO)) c
      let valid := decide (s.get ENV.NMIN.N ≤ u.n) && f64lt 0 sxx && f64lt 0 a && (f64lt sg lim || decide (sg = lim))
      let s := s.inc ENV.CWINCNT.COUNT
      let s :=
        if valid then
          let s := (s.set ENV.CEST.C (f64to32 c)).set ENV.CSIGMA.C (f64to32 sg)
          let s := ((s.set ENV.CLEAK.I (f64to32 leak)).set ENV.CNUSED.N u.n).set ENV.CSTAT.VALID 1
          let s := { s with sense := { s.sense with published := true } }
          (((s.set ENV.CLEDGER.C s.ledgerC).unlive (srcENV 2)).health c sg)
        else s.raise (srcENV 2)
      let s := s.set ENV.CPROG.TICKS 0
      { s with sense := { s.sense with sums := {}, windowTick := some s.latestIarm, closed := some (s.time.cycles, was.1, was.2) } }

/-- On accepting the Order of tick `k1` with current `i1`, its first copy, tick k1 − 1 enters the open window if usable (R230, R231); a window whose close is
due closes before. -/
def State.estimate (s : State) (k1 i1 : Nat) : State :=
  if s.sense.iarms.any (fun p => p.1 == k1) then s else
  let s := s.windowClose
  let s := { s with sense := { s.sense with iarms := ((k1, i1) :: s.sense.iarms).take 4 } }
  if !(s.runs bENV && s.flag ENV.LCFG.ESTEN && decide (0 < k1)) then s
  else
    match s.sense.samples.find? (fun x => x.tick == k1 - 1), s.sense.samples.find? (fun x => x.tick == k1),
        s.sense.iarms.find? (fun p => p.1 == k1 - 1) with
    | some a, some b, some i0 =>
      let ok := codeUsable a.code && codeUsable b.code && !b.spoiled && s.currentUsable i0.2 && s.currentUsable i1 &&
        decide (i0.2 / 2 ^ 31 = i1 / 2 ^ 31)
      if ok then
          let w := match s.sense.windowTick with | some w => w | none => k1 - 1
          let dv := f64sub (f32to64 b.volts) (f32to64 a.volts)
          let tt := fpOfRat fmt64 s.tu (200 * 10 ^ 6)
          let sk := fpOfRat fmt64 b.sigma (64 * s.tu)
          let q := f64div (f64mul (f64mul tt sk) (f64add (f32to64 i0.2) (f32to64 i1))) (f64ofInt 2)
          let u := s.sense.sums
          let u := { u with n := u.n + 1, sq := f64add u.sq q, sqq := f64add u.sqq (f64mul q q), sv := f64add u.sv dv,
                            svv := f64add u.svv (f64mul dv dv), sqv := f64add u.sqv (f64mul q dv) }
          { s.set ENV.CSTAT.RUNNING 1 with sense := { s.sense with sums := u, windowTick := some w } }
      else s
    | _, _, _ => s

/-- A window that closed in the present cycle is discarded without publishing it (R233). -/
def State.unclose (s : State) : State :=
  match s.sense.closed with
  | some (c, words, pub) =>
    if c = s.time.cycles then
      { words.foldl (fun s x => s.setReg x.1 x.2) s with sense := { s.sense with published := pub, closed := none } }
    else s
  | none => s

/-- RESTART (R233): the sums are cleared, and a new window opens from the next usable tick; a window that closes in this cycle is discarded. -/
def State.capRestart (s : State) : State :=
  if s.runs bENV then
    let s := s.unclose
    { (s.set ENV.CSTAT.RUNNING 0).set ENV.CPROG.TICKS 0 with sense := { s.sense with sums := {}, windowTick := none } }
  else s

/-- PKCLR (R228): EPEAK restarts, as after a reset. -/
def State.peakClear (s : State) : State := if s.runs bENV then s.set ENV.EPEAK.E 0 else s

/-! ## Sigma-delta channels -/

/-- x = 2d − 1 with d = acc / OSR³, and GAIN × x + OFFSET in binary32 (R222). -/
def State.sdmScale (s : State) (n acc osr : Nat) : Nat :=
  let x := fpOfRat fmt32 (2 * (acc : Int) - (osr ^ 3 : Nat)) (osr ^ 3)
  f32add (f32mul (s.get (SDM.CH_GAIN.GAIN n)) x) (s.get (SDM.CH_OFFSET.OFFSET n))

/-- The clock period of channel `n` in 5 ns counts; 0 while its clock is off (R221). -/
def State.sdmPeriod (s : State) (n : Nat) : Nat :=
  let c := if s.flag (SDM.CH_CFG.CKSEL n) then s.get SDM.CLKCFG.CK1 else s.get SDM.CLKCFG.CK0
  if c = 1 then 20 else if c = 2 then 10 else if c = 3 then 8 else 0

/-- SCR.ARMCTL.BLOCK written by `o`, with its Cairn entry (R174, R5). -/
def State.armBlock (s : State) (o : Origin) (v : Nat) : State :=
  let old := s.reg SCR.ARMCTL.BLOCK.addr
  let s := s.set SCR.ARMCTL.BLOCK v
  s.cairn 0x01 o SCR.ARMCTL.BLOCK.addr old.toNat (s.reg SCR.ARMCTL.BLOCK.addr).toNat

/-- The weight of bit `i` of the window in a sinc3 filter of ratio `r`: the number of ways to write i as a sum of three numbers below r. -/
def sinc3Weight (r i : Nat) : Nat :=
  let tri (x : Nat) : Nat := x * (x + 1) / 2
  tri (i + 1) + 3 * tri (i + 1 - 2 * r) - 3 * tri (i + 1 - r)

/-- The sinc3 sum over the window of 3·r − 2 bits (R222), newest first. -/
def sinc3Sum (r : Nat) (bits : List Bool) : Nat :=
  ((bits.take (3 * r - 2)).zipIdx.map (fun p => if p.1 then sinc3Weight r p.2 else 0)).sum

/-- The channel samples bits: it is enabled and its clock runs (R221). -/
def State.sdmRuns (s : State) (n : Nat) : Bool := s.runs bSDM && s.flag (SDM.CH_CFG.EN n) && decide (n < 8) && s.sdmPeriod n != 0

/-- Bits that one filter window of any ratio spans. -/
def sdmDepth : Nat := 768

/-- One value for 64 consecutive clocks (R223). -/
def sdmFlat (bits : List Bool) : Bool :=
  let l := bits.take 64
  l.length == 64 && (l.all id || l.all (fun b => !b))

/-- Bits of channel `n`, oldest first, join its stream (R221), and STUCK follows it (R223). On the arm current of a hub whose nibble selects a trap, the trap
handler blocks the arm (R309). -/
def State.sdmBits (s : State) (n : Nat) (bits : List Bool) : State :=
  if !s.sdmRuns n then s
  else
    let l := (bits.reverse ++ SMap.get [] s.sense.sdm n).take sdmDepth
    let s : State := { s with sense := { s.sense with sdm := SMap.set [] s.sense.sdm n l } }
    if !sdmFlat l then s.unlive (srcSDM n)
    else if s.flag (srcSDM n).live then s
    else
      let s := s.raise (srcSDM n)
      if s.isHub && n == 0 && s.action (srcSDM 0) == 1 && s.runs bSCR then s.armBlock ⟨1, 0, 0xFF, 0xFF⟩ 1 else s

/-- A main decimator output of channel `n` completes with the bits since the channel's previous command (R222). -/
def State.sdmOutput (s : State) (n : Nat) (bits : List Bool) : State :=
  if !s.sdmRuns n then s
  else
    let s := s.sdmBits n bits
    let osr := s.get (SDM.CH_CFG.OSR n)
    let s := s.set (SDM.CH_LIVE.VALUE n) (s.sdmScale n (sinc3Sum osr (SMap.get [] s.sense.sdm n)) osr)
    let off := decide (s.tu % (s.sdmPeriod n * osr) ≠ 0)
    (s.setBit SDM.STAT.ALIGNERR n off).level (srcSDM (16 + n)) off id

/-- An output of the fast filter of channel `n` (R224). -/
def State.sdmFast (s : State) (n : Nat) (bits : List Bool) : State :=
  if !(s.sdmRuns n && s.flag (SDM.CH_CFG.FASTEN n)) then s
  else
    let s := s.sdmBits n bits
    let r := s.get (SDM.CH_CFG.FOSR n)
    let v := s.sdmScale n (sinc3Sum r (SMap.get [] s.sense.sdm n)) r
    if f32lt (s.get (SDM.CH_FASTHI.HI n)) v || f32lt v (s.get (SDM.CH_FASTLO.LO n)) then
      (s.inc (SDM.CH_LIMCNT.COUNT n)).raise (srcSDM (8 + n))
    else s.unlive (srcSDM (8 + n))

/-- Every enabled channel's latest output latched at the sample instant (R222). -/
def State.sdmLatch (s : State) : State :=
  if !s.runs bSDM then s
  else (List.range 8).foldl (fun s n =>
    if s.flag (SDM.CH_CFG.EN n) then
      s.set (SDM.CH_VALUE.VALUE n) (s.get (SDM.CH_LIVE.VALUE n))
    else s) s

end Sys2Proof.Machine
end

