-- ==== Sys2Proof/Machine/Scree.lean ====
section
/-!
DEFINITION. Machine/Scree.lean: Scree (R85 to R96, R109 to R113, R149 to R176): a cell's classification, its passage of Tallies, its choice
and use of Orders; a hub's Tallies, views, decision, Orders and shares; the trunk frames of hubs and centrals.
-/

namespace Sys2Proof.Machine

/-! ## The cell: class, exclusion, STATUS -/

/-- STATUS at the sample instant without EXCL (R86). -/
def State.statusByte (s : State) : Nat :=
  1 + 2 * bit (s.pwm.full == 1 || s.pwm.full == 2) + 16 * bit s.halted +
    32 * bit (s.sense.softActive && !s.basecamp && (s.flag ENV.SSTAT.SOFT || s.flag ENV.SSTAT.SLE)) +
    64 * bit s.saf.bypassed + 128 * bit s.basecamp

/-- A cell at the sample instant of tick `k` (R149 to R151, R175): class, STATUS, exclusion. -/
def State.sampleCell (s : State) (k : Nat) : State :=
  let s := match s.scr.exclNext with
    | some b => { s.setFlag SCR.CSTAT.CMDEXCL b with scr := { s.scr with exclNext := none } }
    | none => s
  let st := s.statusByte
  let cls := s.pwm.full == 1 || s.pwm.full == 2
  let mask := s.get SCR.EXCLMASK.MASK ||| 0x40
  let ex := decide (st &&& mask ≠ 0) || s.flag SCR.CSTAT.CMDEXCL
  let s := { s with scr := { s.scr with sampleTick := k, clsI := cls, status := st, excluded := ex } }
  s.setFlag SCR.CSTAT.CLS cls

/-! ## The cell: Tallies -/

/-- The cell turns Tallies of direction `dir` received on lane `n` back (R109): the lane beyond is DOWN, or it wraps since a break. -/
def State.wrapsAt (s : State) (n dir : Nat) : Bool :=
  if s.isCell then
    (n == 0 && dir == 0 && (!s.laneUp 1 || s.flag (LNK.STAT.WRAP 0))) ||
      (n == 1 && dir == 1 && (!s.laneUp 0 || s.flag (LNK.STAT.WRAP 1)))
  else if s.isHub then
    (n == 12 && dir == 0 && (!s.laneUp 13 || s.flag (LNK.STAT.WRAP 12))) ||
      (n == 13 && dir == 1 && (!s.laneUp 12 || s.flag (LNK.STAT.WRAP 13)))
  else false

/-- A frame byte increased by 1, held at 255. -/
def bumpByte (body : List Byte) (i : Nat) : List Byte :=
  let c := byteAt body i
  putLE body i 1 (if c < 255 then c + 1 else 255)

/-- The cell excludes itself from the Tally that passes: by R151, or because only its forwarder works (R117), Scree does not run or it has not
joined its ring (R21, R22). -/
def State.tallyExcluded (s : State) : Bool :=
  s.forwarderOnly || s.unjoined || !s.runs bSCR || s.scr.excluded || !s.sense.sampleDone

/-- The slot word of the cell for this Tally (R117, R151, R226). -/
def State.slotWord (s : State) : Nat :=
  if s.forwarderOnly then 0xFFFF + 2 ^ 16 * (1 + 4 + 8 * bit s.inReset + 16 * bit s.halted) + 2 ^ 24 * 0xFF
  else
    let vcap := if s.sense.sampleDone && s.runs bADC then s.get ADC.VCAPSI.CODE else 0xFFFF
    -- where Scree's clock is off no sample instant has latched STATUS: it is that of the present
    let status := if s.runs bSCR then s.scr.status else s.statusByte
    vcap + 2 ^ 16 * (status + 4 * bit s.tallyExcluded) + 2 ^ 24 * s.get ADC.TEMP.CODE

/-- What the cell writes into a passing Tally (R85, R87). -/
def State.markTally (s : State) (f : Frame) : Frame :=
  let ex := s.tallyExcluded
  let w := s.slotWord
  let h := (if s.scr.clsI then 8 else 72) + s.scr.bin
  let body := if ex then bumpByte f.body 201 else bumpByte (bumpByte f.body h) 200
  let j : Int := (s.position : Int) - 16 * (f.field 1 1 1 % 4)
  let body := if 0 ≤ j ∧ j < 16 then bumpByte (putLE body (136 + 4 * j.toNat) 4 w) 202 else body
  { f with body := putLE body 203 1 (byteAt body 203 ||| (w / 2 ^ 16 % 256)) }

/-- The record of the passing Tally (R87, R152): the 3 most recent ticks of each direction. -/
def State.record (s : State) (n : Nat) (f : Frame) (good : Bool) : State :=
  match s.expectedTick f.seq with
  | none => if good then s.seqError n else s
  | some k =>
    let rest := s.scr.records.filter (fun r => !(r.dir == f.dir && r.tick == k))
    if !good || s.forwarderOnly || !s.runs bSCR then { s with scr := { s.scr with records := rest } }
    else
      let ex := s.tallyExcluded
      let c := byteAt f.body ((if s.scr.clsI then 8 else 72) + s.scr.bin)
      let r : RecordSt := ⟨f.dir, k, ex, s.scr.bin, s.scr.clsI, c⟩
      let mine := (r :: rest.filter (fun r => r.dir == f.dir)).take 3
      { s with scr := { s.scr with records := mine ++ rest.filter (fun r => r.dir != f.dir) } }

/-- A frame of type `ft` that lane `n` receives and whose EOF stands in its place; its CRC may be bad. -/
def State.wholeFrame (s : State) (n : Nat) (f : Frame) (ft : Nat) : Bool :=
  s.hears n f && decide (f.ending = .eof) && decide (f.ftype = ft) && lenFinding (s.laneKind n) f == .good

/-- A ring Tally passes a cell (R87, R109, R117). -/
def State.tallyPass (s : State) (n : Nat) (f : Frame) : State :=
  let r := s.rxFrame n f
  let s := r.2
  if !s.isCell || !s.wholeFrame n f ftTally || f.wrap then s.forward n f (!r.1)
  else
    let g := s.markTally f
    let s := if s.tallyExcluded then s.set SCR.CSTAT.EXCL 1 else s.set SCR.CSTAT.EXCL 0
    let s := s.record n f r.1
    if s.wrapsAt n f.dir then
      let s := (s.set (LNK.STAT.WRAP n) 1).event 4 5 n
      s.sendForward n n (passOn { g with wrap := true, body := putLE g.body 2 1 s.position } (!r.1))
    else s.forward n g (!r.1)

/-! ## The cell: Orders -/

/-- The record of a direction and tick. -/
def State.recordOf (s : State) (dir k : Nat) : Option RecordSt := s.scr.records.find? (fun r => r.dir == dir && r.tick == k)

/-- The effective bin (R157). -/
def effBin (chg : Bool) (h bin : Nat) (cls : Bool) : Int :=
  if cls then (if chg then (bin : Int) - h else (bin : Int) + h) else bin

/-- Rank and record of R153 for RMODE 0 (NORMAL) or 1 (BROKEN): none when the tick counts as missed; a mark wins (R152). -/
inductive Ranked where
  | missed
  | mark
  | rank (bin : Nat) (cls : Bool) (rank : Nat) (sideB : Bool)
  deriving DecidableEq, Repr

def State.ranked (s : State) (mode seed k : Nat) : Ranked :=
  let r0 := s.recordOf 0 k
  let r1 := s.recordOf 1 k
  let isMark (r : Option RecordSt) : Bool := match r with | some x => x.mark | none => false
  if mode = 0 then
    if s.flag SCR.CFG.ROTATE then
      if isMark r0 || isMark r1 then .mark
      else match r0, r1 with
        | some a, some b =>
          if a.bin = b.bin ∧ a.cls = b.cls then .rank a.bin a.cls ((a.count + seed) % (a.count + b.count + 1)) false else .missed
        | _, _ => .missed
    else match r0, r1 with
      | some a, none => if a.mark then .mark else .rank a.bin a.cls a.count false
      | some a, some b =>
        if a.mark then .mark
        else if b.mark || (a.bin == b.bin && a.cls == b.cls) then .rank a.bin a.cls a.count false else .missed
      | none, _ => .missed
  else if isMark r0 || isMark r1 then .mark
  else match r0, r1 with
    | some a, none => .rank a.bin a.cls a.count false
    | none, some b => .rank b.bin b.cls b.count true
    | _, _ => .missed

/-- The cell rule (R163) on an Order of tick `k`. -/
def State.cellRule (s : State) (f : Frame) (k : Nat) : Target :=
  let rmode := f.field 1 6 1
  let mode := rmode % 4
  if mode = 2 then .missed
  else if mode = 3 then .blockAll
  else
    match s.ranked mode (f.field 2 1 1) (k - rmode / 4 % 2) with
    | .missed => .missed
    | .mark => .out
    | .rank bin cls rank sideB =>
      let ring := f.field 1 5 1 % 16
      let thresh := f.field 2 0 1
      let chg := thresh / 64 % 2 == 1
      let neg := thresh / 128 % 2 == 1
      let quota := if sideB then f.field 2 2 1 else f.field 5 (2 * ring) 1
      let trim := if sideB then f.field 2 3 1 else f.field 5 (2 * ring + 1) 1
      let q := quota / 128 % 2 == 1
      let h := s.get SCR.CFG.HOLD
      let e := effBin chg h bin cls
      let t := effBin chg h (thresh % 64) q
      let better := if chg then decide (e < t) else decide (t < e)
      if better || (decide (e = t) && cls && !q) then .go neg
      else if decide (e = t) && cls == q then
        if rank < quota % 128 then .go neg
        else if rank = trim then .trim neg (f.field 2 4 2) else .out
      else .out

/-- What the cell used for the Order, for SNAPREC (R175): counts and rank that it held. -/
def State.usedFor (s : State) (f : Frame) (k : Nat) : UsedSt :=
  let rmode := f.field 1 6 1
  let j := k - rmode / 4 % 2
  let count (d : Nat) : Option Nat := match s.recordOf d j with | some r => if r.mark then none else some r.count | none => none
  let real (d : Nat) : Option (Nat × Bool) := match s.recordOf d j with | some r => if r.mark then none else some (r.bin, r.cls) | none => none
  let rank := if rmode % 4 ≤ 1 then
      (match s.ranked (rmode % 4) (f.field 2 1 1) j with | .rank _ _ r _ => some r | _ => none)
    else none
  ⟨k, (real 0).or (real 1), count 0, count 1, rank, rmode⟩

/-- The apply instant of tick `k`, in 5 ns counts. -/
def State.applyAt (s : State) (k : Nat) : Nat := k * s.tu + s.offApply

/-- The present cycle lies at or before the limit of R35: 0.20 µs before the apply instant. -/
def State.onTime (s : State) (k : Nat) : Bool := decide (s.now5 + 40 ≤ s.applyAt k)

/-- A copy is to be obeyed rather than the present choice (R363): higher epoch; on equal epochs the senior member's, else the DIR 0 copy. -/
def outranks (senior e1 src1 dir1 e0 src0 dir0 : Nat) : Bool :=
  decide (e0 < e1) ||
    (e1 == e0 && ((src1 == senior && src0 != senior) || (src1 != senior && src0 != senior && dir1 == 0 && dir0 == 1)))

/-- A copy of the Order of tick `k` accepted by the cell (R90, R163, R363). -/
def State.takeOrder (s : State) (f : Frame) (k : Nat) : State :=
  let i := f.field 3 0 4
  let s := { s with pwm := { s.pwm with iarm := i,
                                        releaseTick := if s.pwm.waitOrder && s.pwm.halted == 0 && s.pwm.releaseTick.isNone
                                          then some k else s.pwm.releaseTick } }
  let s := s.estimate k i
  let epoch := f.field 1 2 2
  let src := f.field 1 0 2
  let old := s.scr.orders.find? (fun o => o.tick == k)
  let take := match old with
    | none => true
    | some o => outranks (s.get SYS.SENIOR.ADDR) epoch src f.dir o.epoch o.src o.dir
  if !take then s
  else
    let tgt := s.cellRule f k
    let before := match old with | some o => o.runBefore | none => s.get SCR.CSTAT.MISSRUN
    let o : OrderSt := ⟨k, epoch, src, f.dir, tgt, before⟩
    let keep := s.scr.orders.filter (fun x => x.tick != k && decide (k < x.tick + 8))
    let used := (s.usedFor f k :: s.scr.used.filter (fun x => x.tick != k)).take 64
    let s := { s with scr := { s.scr with orders := o :: keep, used := used } }
    let s := s.set SCR.CSTAT.MISSRUN (if tgt = .missed then before else 0)
    let s := if tgt = .missed then s else s.unlive (srcSCR 7)
    let s := if f.field 1 6 1 % 4 = 3 then s.event 4 7 0 else s
    s.orderMode (f.field 1 6 1 % 4)

/-- A ring Order reaches a cell (R90): forwarded, and accepted when good, of its ring and of a tick whose Order it awaits, and on time; never by a
cell that has not joined (R21). -/
def State.orderReceive (s : State) (n : Nat) (f : Frame) : State :=
  let r := s.arrive n f
  let s := r.2
  if !(r.1 && s.isCell && decide (f.ftype = ftOrder) && s.runs bSCR && s.tickEvents && !s.halted && !s.unjoined &&
      decide (f.field 1 5 1 % 16 = s.myRing)) then s
  else
    match s.awaitedTick f.seq with
    | none => s.seqError n
    | some k => if s.onTime k then s.takeOrder f k else s

/-- The limit of R35 has passed for a tick whose Order the cell lacks or cannot use (R167): MISSED and MISSRUN count once. -/
def State.orderMissed (s : State) : State :=
  if !(s.runs bSCR && s.isCell && s.tickEvents && !s.unjoined) then s
  else
    let k := s.tickAt (s.offApply - 40)
    let got := match s.scr.orders.find? (fun o => o.tick == k) with
      | some o => decide (o.target ≠ .missed)
      | none => false
    if got || s.scr.missTick = k + 1 then s
    else
      let s := { s with scr := { s.scr with missTick := k + 1 } }
      ((s.inc SCR.MISSED.COUNT).inc SCR.CSTAT.MISSRUN).event 4 6 0

/-- MISSRUN has reached the missed-order count at an apply instant (R23). -/
def State.missedOrderBlock (s : State) : State :=
  if s.runs bSCR && s.runs bPWM && s.isCell && s.tickEvents && !s.saf.bypassed &&
      decide (s.cnv.missed ≤ s.get SCR.CSTAT.MISSRUN) then s.missBlock ((s.tickAt s.offApply * s.tu + s.offApply) * 64)
  else s

/-- The cell obeys this Order copy and its command addresses the cell with code `code` (R88, R90, R168, R175). -/
def State.commanded (s : State) (f : Frame) (code : Nat) : Bool :=
  let k := (seqTick s.tick f.seq).getD 0
  s.isCell && s.runs bSCR && !s.unjoined && decide (f.ftype = ftOrder) && crcGood f && !f.stomp &&
    decide (f.field 1 5 1 % 16 = s.myRing) && decide (f.field 4 0 1 = s.position) && decide (f.field 4 1 1 = code) &&
    s.scr.orders.any (fun o => o.tick == k && o.epoch == f.field 1 2 2 && o.src == f.field 1 0 2)

/-- CMDARG of an Order. -/
def cmdArg (f : Frame) : Nat := f.field 4 2 2

def State.exclude (s : State) (f : Frame) (on : Bool) : State :=
  if s.commanded f (if on then 0x10 else 0x11) then { s with scr := { s.scr with exclNext := some on } } else s

/-- SNAPREC (R175). -/
def State.snaprec (s : State) (f : Frame) : State :=
  if !s.commanded f 0x12 then s
  else
    let v (o : Option Nat) : Nat := o.getD 0xFF
    let u := (s.scr.used.find? (fun u => u.tick % 65536 == cmdArg f)).getD ⟨0, none, none, none, none, 0⟩
    -- without a record: bin and class of the latest sample instant
    let own := u.own.getD (s.scr.bin, s.scr.clsI)
    let s := (s.set SCR.CSNAP.C0 (v u.c0)).set SCR.CSNAP.C1 (v u.c1)
    ((s.set SCR.CSNAP.BIN own.1).setFlag SCR.CSNAP.CLS own.2).set SCR.CSNAP.RANK (v u.rank)

/-- The counters 0x280 to 0x2A4 of SCR cleared (R175, R177). -/
def State.clearScr (s : State) : State :=
  [SCR.MISSED.COUNT, SCR.DWELLHOLD.COUNT, SCR.REFUSED.COUNT, SCR.XLATE.COUNT, SCR.SAT.COUNT, SCR.SHORT.COUNT, SCR.COUNTERR.COUNT,
    SCR.MARGIN.COUNT, SCR.SHARELATE.COUNT, SCR.NEGCLAMP.COUNT].foldl (fun s f => s.set f 0) s

def State.clrcnt (s : State) (f : Frame) : State := if s.commanded f 0x13 then s.clearScr else s

/-- LOCALGRANT (R206). -/
def State.localGrant (s : State) (f : Frame) : State :=
  if !(s.commanded f 0x20 && s.runs bPWM) then s
  else if !s.flag PWM.CFG.LOCALEN then (s.inc PWM.BADCMD.COUNT).raise (srcPWM 6)
  else if cmdArg f = 0 then s.unlive (srcPWM 6)
  else { s.unlive (srcPWM 6) with pwm := { s.pwm with grantNext := some (cmdArg f), grantEnd := false } }

def State.localEnd (s : State) (f : Frame) : State :=
  if s.commanded f 0x21 && s.runs bPWM then { s with pwm := { s.pwm with grantEnd := true, grantNext := none } } else s

/-- DTRESET, by command or by CTRL.DTRESET (R189). -/
def State.dtReset (s : State) : State := if s.runs bPWM then { s with pwm := { s.pwm with dtReset := true } } else s

/-- BYPASS (R206): only with the cell's own address. -/
def State.bypassCmd (s : State) (f : Frame) : State :=
  if !(s.commanded f 0x23 && s.runs bPWM) then s
  else if cmdArg f = s.address then { s.unlive (srcPWM 6) with pwm := { s.pwm with bypassNext := true } }
  else (s.inc PWM.BADCMD.COUNT).raise (srcPWM 6)

/-! ## The hub: Tallies -/


/-- The length of ring `r` at the last discovery (R171). -/
def ringLenFld (r : Nat) : Fld := ⟨(SCR.RINGLEN.LEN (r / 4)).addr, 8 * (r % 4), 8⟩

/-- Histograms of a Tally frame: 64 counts from body index `i`. -/
def histOf (body : List Byte) (i : Nat) : List Nat := (List.range 64).map (fun b => byteAt body (i + b))

/-- A ring Tally as a hub member stores it. -/
def tallyOf (f : Frame) (k : Nat) : TallySt :=
  ⟨k, histOf f.body 8, histOf f.body 72, byteAt f.body 200, byteAt f.body 201, byteAt f.body 2, byteAt f.body 203⟩

/-- Empty Tallies launched at t_T (R85): a hub member into each enabled ring, a central into each trunk ring from its own end (R91). -/
def State.tallyLaunch (s : State) : State :=
  if !s.tickEvents || s.forwarderOnly then s
  else
    let k := s.tick
    let m := s.member
    if s.isHub && s.runs bSCR then
      s.rings.foldl (fun s r =>
        let body := toLE 1 r ++ toLE 1 (k % 4) ++ [0xFF, 0] ++ toLE 2 s.address ++ zeroB 202
        s.launch (ringLane r) (s.newFrame ftTally m addrAll body)) s
    else if s.isCentral then
      (List.range 6).foldl (fun s i =>
        let body := toLE 1 i ++ [0, 0xFF, 0] ++ toLE 2 s.address ++ zeroB 130
        s.launch (i + 2) (s.newFrame ftTally m addrAll body)) s
    else s

/-- The slot entries of a Tally stored by ring and position (R66, R85). -/
def State.storeSlots (s : State) (r : Nat) (f : Frame) : State :=
  let g := f.field 1 1 1 % 4
  (List.range 16).foldl (fun s j =>
    let w := f.field 18 (4 * j) 4
    if w / 2 ^ 16 % 2 = 1 then
      { s with scr := { s.scr with cells := SMap.set 0 s.scr.cells (64 * r + 16 * g + j) w } }
    else s) s

/-- The devices that a ring Tally counts enter SEEN (R365). -/
def State.countRing (s : State) (r n : Nat) : State :=
  if SMap.get 0 s.red.ringSeen r < n then { s with red := { s.red with ringSeen := SMap.set 0 s.red.ringSeen r n } } else s

/-- The cross-link Tally for a wrapped ring Tally (R96). -/
def State.crossTally (s : State) (r : Nat) (f : Frame) : Frame :=
  let body := toLE 2 s.address ++ toLE 1 r ++ toLE 1 s.member ++ toLE 1 (byteAt f.body 200) ++ toLE 1 (byteAt f.body 201) ++
    toLE 1 (byteAt f.body 2) ++ [0] ++ sliceB f.body 8 128
  { s.newFrame ftTally s.member s.partner body with seq := f.seq }

/-- A ring Tally reaches a hub member (R96, R110, R118). -/
def State.ringTallyArrive (s : State) (n : Nat) (f : Frame) : State :=
  let r := s.rxFrame n f
  let s := r.2
  let ring := f.field 1 0 1 % 16
  if s.isHub && s.forwarderOnly then
    if s.wholeFrame n f ftTally then s.sendForward n n (passOn { f with wrap := true, body := putLE f.body 2 1 0xFE } (!r.1)) else s
  else if !(r.1 && s.isHub && s.runs bSCR && s.isRingLane n && decide (f.ftype = ftTally) && decide (ring = n)) then s
  else
    match s.expectedTick f.seq with
    | none => s.seqError n
    | some k =>
      let t := tallyOf f k
      let s := s.set (LNK.ARRIVE.NS n) (let d := (s.now5 - k * s.tu) * 5; if d < 0xFFFF then d else 0xFFFE)
      let s := if f.wrap then (s.set (LNK.STAT.WRAPPOS n) t.wrappos).event 4 5 n else s
      let s := s.countRing ring (t.ncell + t.nexcl)
      let s := s.storeSlots ring f
      if f.wrap then
        let s := { s with scr := { s.scr with wrapped := SMap.set none s.scr.wrapped (2 * ring + k % 2) (some t) } }
        s.launch s.crossLane (sealFrame (s.crossTally ring f))
      else { s with scr := { s.scr with tallies := SMap.set none s.scr.tallies ring (some t) } }

/-- The schedule-margin fault evaluated (R34, R111, R172). -/
def State.margin (s : State) (bad : Bool) : State :=
  if bad then (s.inc SCR.MARGIN.COUNT).raise (srcSCR 0) else s.unlive (srcSCR 0)

/-- The partner's cross-link Tally (R96, R110, R111): for a ring in BROKEN it is late beyond T + t_D after its sample instant. -/
def State.crossTallyReceive (s : State) (f : Frame) : State :=
  let r := s.rxFrame s.crossLane f
  let s := r.2
  if !(r.1 && s.isHub && s.runs bSCR && !s.forwarderOnly && decide (f.ftype = ftTally) && decide (f.field 1 0 2 = s.partner)) then s
  else
    match s.expectedTick f.seq with
    | none => s.seqError s.crossLane
    | some k =>
      let ring := f.field 1 2 1
      let t : TallySt := ⟨k, histOf f.body 8, histOf f.body 72, f.field 1 4 1, f.field 1 5 1, f.field 1 6 1, 0⟩
      let s := { s with scr := { s.scr with crossed := SMap.set none s.scr.crossed (2 * ring + k % 2) (some t) } }
      if s.scr.tableBroken.testBit ring then s.margin (decide (k * s.tu + s.tu + s.offD < s.now5)) else s

/-! ## The hub: views and modes (R110, R367) -/

/-- A Tally held for tick `k`. -/
def heldAt (m : SMap (Option TallySt)) (r k : Nat) : Option TallySt :=
  match SMap.get none m r with
  | some t => if t.tick = k then some t else none
  | none => none

/-- The wrapped Tallies of ring `r` held for tick `k`: own and partner's. -/
def State.ownWrapped (s : State) (r k : Nat) : Option TallySt := heldAt s.scr.wrapped (2 * r + k % 2) k
def State.partWrapped (s : State) (r k : Nat) : Option TallySt := heldAt s.scr.crossed (2 * r + k % 2) k

/-- The member's view of ring `r` for tick `k` (R110), at t_O: 0 by what it held at t_D. -/
def State.viewOf (s : State) (r k : Nat) : Nat :=
  if !s.cnv.ringEn.testBit r then 3
  else if s.scr.goodAtD.1 == k && s.scr.goodAtD.2.testBit r then 0
  else if (s.ownWrapped r k).isSome || (s.partWrapped r k).isSome ||
      (decide (0 < k) && ((s.ownWrapped r (k - 1)).isSome || (s.partWrapped r (k - 1)).isSome)) then 1
  else 2

/-- The views of all rings, packed as VIEWS (R95). -/
def State.viewsAt (s : State) (k : Nat) : Nat := (List.range 12).foldl (fun m r => m + s.viewOf r k * 2 ^ (2 * r)) 0

/-- The partner's view of ring `r` for tick `k`: 2 while it is declared failed or its cross-link Order of that tick is missing (R367). -/
def State.partnerView (s : State) (r k : Nat) : Nat :=
  if s.red.partFailed || s.scr.partnerViews.1 ≠ k then 2 else s.scr.partnerViews.2 / 2 ^ (2 * r) % 4

def State.ownView (s : State) (r k : Nat) : Nat :=
  if s.scr.ownViews.1 ≠ k then 2 else s.scr.ownViews.2 / 2 ^ (2 * r) % 4

/-- The mode of ring `r` in the decision of tick `k` before its data are checked (R110): RMODE[1:0]. -/
def State.modeOf (s : State) (r k : Nat) : Nat :=
  if k != 0 && (s.lane (ringLane r)).unwrapTick == k then 0
  else
    let a := s.ownView r (k - 1)
    let b := s.partnerView r (k - 1)
    if a = 0 ∧ b = 0 then 0 else if a = 1 ∨ b = 1 then 1 else 2

/-! ## The hub: the decision -/

/-- A rank space (R158). -/
structure UnitSt where
  ring : Nat
  sideB : Bool
  tally : TallySt
  deriving DecidableEq, Repr

/-- Sum of a list. -/
def sumL (l : List Nat) : Nat := l.foldl (· + ·) 0

/-- The check of R171 on a unit's data: `side` 0 for a NORMAL ring, 1 the A side, 2 the B side. -/
def State.unitGood (s : State) (r side : Nat) (t : TallySt) : Bool :=
  let len := s.get (ringLenFld r)
  let want := if side = 0 ∨ t.wrappos = 0xFE then len else if side = 1 then t.wrappos + 1 else len - t.wrappos
  t.ncell == sumL t.histI + sumL t.histO && t.ncell + t.nexcl == want

/-- The Tallies of the two sides of a BROKEN ring from tick `k` (R96, R110): (A side, B side). -/
def State.sides (s : State) (r k : Nat) : Option TallySt × Option TallySt :=
  let own := s.ownWrapped r k
  let other := s.partWrapped r k
  if s.member = 0 then (own, other) else (other, own)

/-- The units of ring `r` in mode `m` for tick `k`: the mode taken, the units, whether a check failed (R110, R158, R171, R367). -/
def State.unitsOf (s : State) (r m k : Nat) : Nat × List UnitSt × Bool :=
  if m = 0 then
    match heldAt s.scr.tallies r k with
    | some t => if s.unitGood r 0 t then (0, [⟨r, false, t⟩], false) else (2, [], true)
    | none => (2, [], false)
  else if m = 1 then
    let ab := s.sides r (k - 1)
    let len := s.get (ringLenFld r)
    let covers (t : Option TallySt) : Bool := match t with | some t => t.ncell + t.nexcl == len | none => false
    let alone := s.red.partFailed || s.scr.partnerViews.1 != k - 1
    let pick (a b : Option TallySt) : Nat × List UnitSt × Bool :=
      let ua := match a with | some t => [(⟨r, false, t⟩ : UnitSt)] | none => []
      let ub := match b with | some t => [(⟨r, true, t⟩ : UnitSt)] | none => []
      let us := ua ++ ub
      if us.isEmpty then (2, [], false)
      else if us.all (fun u => s.unitGood r (if u.sideB then 2 else 1) u.tally) then (1, us, false) else (2, [], true)
    if covers ab.1 then pick ab.1 none
    else if covers ab.2 then pick none ab.2
    else if alone then (if s.member = 0 then pick ab.1 none else pick none ab.2)
    else if ab.1.isSome && ab.2.isSome then pick ab.1 ab.2
    else (2, [], false)
  else (m, [], false)

/-- A slot: class I or O, and bin (R157). -/
abbrev Slot := Bool × Nat

/-- The slots, most favourable first (R157). -/
def slotOrder (chg : Bool) (h : Nat) : List Slot :=
  (List.range (64 + h)).flatMap (fun (i : Nat) =>
    let e : Int := if chg then (i : Int) - h else 63 + (h : Int) - i
    let pi : Int := if chg then e + h else e - h
    (if 0 ≤ pi ∧ pi ≤ 63 then [(true, pi.toNat)] else []) ++ (if 0 ≤ e ∧ e ≤ 63 then [(false, e.toNat)] else []))

/-- The count of a slot in a unit. -/
def slotCount (u : UnitSt) (x : Slot) : Nat := (if x.1 then u.tally.histI else u.tally.histO).getD x.2 0

/-- The count of a slot over all units. -/
def slotTotal (us : List UnitSt) (x : Slot) : Nat := sumL (us.map (fun u => slotCount u x))

/-- The first slot at which the running total reaches `need`, with the total before it (R160). -/
def findSlot (us : List UnitSt) (need : Nat) : List Slot → Nat → Option (Slot × Nat)
  | [], _ => none
  | x :: xs, before =>
    let g := slotTotal us x
    if need ≤ before + g then some (x, before) else findSlot us need xs (before + g)

/-- The quotas of the units in order (R160). -/
def splitQuota (t : Slot) : List UnitSt → Nat → List Nat
  | [], _ => []
  | u :: us, rem =>
    let q := if slotCount u t ≤ rem then slotCount u t else rem
    q :: splitQuota t us (rem - q)

/-- The result of the search and split of R160. -/
structure SplitSt where
  slot : Slot
  quotas : List Nat
  /-- index of the unit with the trim cell, and its rank -/
  trim : Option (Nat × Nat)
  sat : Bool
  short : Bool
  /-- slots before the threshold -/
  before : List Slot
  deriving DecidableEq, Repr

/-- Threshold, quotas and trim cell for `nfull` full insertions and a fraction (R160). -/
def splitCells (us : List UnitSt) (order : List Slot) (nfull frac : Nat) : SplitSt :=
  let total := sumL (order.map (slotTotal us))
  let need := nfull + (if 0 < frac then 1 else 0)
  let last := order.getLastD (false, 0)
  if total < need then
    ⟨last, us.map (fun u => slotCount u last), none, true, decide (total < nfull), order.dropLast⟩
  else
    match findSlot us need order 0 with
    | none => ⟨last, us.map (fun u => slotCount u last), none, true, decide (total < nfull), order.dropLast⟩
    | some (t, before) =>
      let qs := splitQuota t us (nfull - before)
      let trim :=
        if frac = 0 then none
        else
          match (List.range us.length).find? (fun i => match us[i]? with
              | some u => decide (qs.getD i 0 < slotCount u t)
              | none => false) with
          | some i => some (i, qs.getD i 0)
          | none => none
      ⟨t, qs, trim, false, false, order.takeWhile (fun x => x != t)⟩

/-- The current sign of the tick (R156). -/
def State.currentPositive (s : State) : Bool :=
  let db := s.get SCR.ISIGNDB.DB
  if f32lt db s.scr.iarm then true else if f32lt s.scr.iarm (f32neg db) then false else s.scr.signPos

/-- The share that takes effect at the decision of tick `k` (R38, R170). -/
def State.takeShare (s : State) (k : Nat) : State :=
  if k % 8 ≠ 0 then s
  else
    match s.scr.shareNext with
    | some (d, j) =>
      if j = k then { (s.set SCR.XSHARE.DELTA d).unlive (srcSCR 5) with scr := { s.scr with shareNext := none } }
      else (s.inc SCR.SHARELATE.COUNT).raise (srcSCR 5)
    | none => (s.inc SCR.SHARELATE.COUNT).raise (srcSCR 5)

/-- X of R154 and whether it was clamped to 0. -/
def State.formX (s : State) : Int × Bool :=
  let x := clampI (-(2 ^ 31)) (2 ^ 31 - 1) (toSigned 32 (s.get SCR.XIN.X) + toSigned 32 (s.get SCR.XSHARE.DELTA))
  if x < 0 ∧ !s.flag SCR.CFG.CELLTYPE then (0, true) else (x, false)

/-- The reference of the tick (R37, R307, R377): a missed one counts. -/
def State.countReference (s : State) : State :=
  if s.cnv.noCentral then s
  else
    let s :=
      if s.scr.vrefFresh then (s.set RED.REFSTAT.RUN 0).unlive (srcRED 9)
      else (s.inc RED.REFMISS.COUNT).inc RED.REFSTAT.RUN
    { s with scr := { s.scr with vrefFresh := false } }

/-- The shares of the arm (R169): deltas in 2⁻¹⁶ of a cell, in the order of the arm's segments, 0 for an inactive one. -/
def State.armShares (s : State) (u : Nat → Nat) (arm : Nat) : List (Nat × Int) :=
  let segs := s.armSegments arm
  let act := segs.filter s.segActive
  let sum := act.foldl (fun a j => f32add a (u j)) 0
  let mean := f32div sum (f32ofInt act.length)
  let d (j : Nat) := f32sub (u j) mean
  let peak := act.foldl (fun p j => if f32lt p (f32abs (d j)) then f32abs (d j) else p) 0
  let cap := fpOfRat fmt32 (toSigned 32 (s.get SCR.SHAREMAX.MAX)) 65536
  let d' (j : Nat) := if f32lt cap peak then f32mul (d j) (f32div cap peak) else d j
  let fix (v : Nat) : Int := (fpToIntAway (fpMul (f32 v) (.fin false 65536 0))).getD 0
  let total := act.foldl (fun a j => a + fix (d' j)) 0
  segs.map (fun j => (j, if !s.segActive j then 0 else if act.head? = some j then fix (d' j) - total else fix (d' j)))

/-- The arm leader computes its shares at the decision of a tick with k mod 8 = 0 (R38, R169). -/
def State.computeShares (s : State) (k : Nat) : State :=
  if k % 8 = 0 && s.leads && s.serves then
    let u (j : Nat) := if j = s.segment then s.lpe.val0 else SMap.get 0 s.scr.segVals (2 * j)
    let sh := s.armShares u (s.armOf s.segment)
    let mine := ((sh.find? (fun p => p.1 == s.segment)).map (fun p => ofSigned 32 p.2)).getD 0
    { s with scr := { s.scr with shares := (k, sh.map (fun p => ofSigned 32 p.2)), shareNext := some (mine, k + 8) } }
  else s

/-- held[r] before a decision (R159): 0 for a ring in BLOCKALL, or in HOLD for the missed-order count in a row. -/
def State.heldCells (s : State) (r mode : Nat) : Nat :=
  if mode = 2 then (if SMap.get 0 s.scr.holdRun r + 1 ≥ s.cnv.missed then 0 else SMap.get 0 s.scr.held r) else 0

/-- The modes and units of the decision of tick `k`, and whether a check of R171 failed. -/
def State.decideUnits (s : State) (k : Nat) (blocked hold : Bool) : List (Nat × Nat) × List UnitSt × Bool :=
  let per := (List.range 12).map (fun r =>
    if !s.cnv.ringEn.testBit r then (r, 3, ([] : List UnitSt), false)
    else if blocked then (r, 3, [], false)
    else if hold then (r, 2, [], false)
    else let u := s.unitsOf r (s.modeOf r k) k; (r, u.1, u.2.1, u.2.2))
  let start := k % 12
  let turned := per.drop start ++ per.take start
  (per.map (fun p => (p.1, p.2.1)), turned.flatMap (fun p => p.2.2.1), per.any (fun p => p.2.2.2))

/-- A count and source of the decision raised, or found absent (R160, R173). -/
def State.decFlag (s : State) (bad : Bool) (i : Nat) (c : Fld) : State :=
  if bad then (s.inc c).raise (srcSCR i) else s.unlive (srcSCR i)

/-- The decision of tick `k` at t_D (R154 to R162, R167 to R174). COUNTERR counts once for a decision, however many units fail their check
(DESIGN CHOICE, log entry 154). -/
def State.screeDecide (s : State) (k : Nat) : State :=
  let blocked := s.flag SCR.ARMCTL.BLOCK || !s.inRun || s.redState == rsForming
  let hold := s.redState == rsJoining && !s.flag RED.JOINSTAT.SCRDONE || s.redState == rsIsolated || s.redState == rsTagmis
  let good := maskOf (fun r => s.cnv.ringEn.testBit r && (heldAt s.scr.tallies r k).isSome) 12
  let broken := maskOf (fun r => !blocked && !hold && s.cnv.ringEn.testBit r && s.modeOf r k == 1) 12
  let s := { s with scr := { s.scr with goodAtD := (k, good), tableBroken := broken } }.countReference
  let s := s.takeShare k
  let s := s.decFlag (!s.scr.xinFresh) 1 SCR.XLATE.COUNT
  let s := { s with scr := { s.scr with xinFresh := false } }
  let xc := s.formX
  let s := s.decFlag xc.2 6 SCR.NEGCLAMP.COUNT
  let x : Int := xc.1
  let neg := decide (x < 0)
  let n := x.natAbs / 65536
  let frac := x.natAbs % 65536
  let pos := s.currentPositive
  let chg := pos != neg
  let du := s.decideUnits k blocked hold
  let modes := du.1
  let units := du.2.1
  let s := s.decFlag du.2.2 4 SCR.COUNTERR.COUNT
  let held := sumL (modes.map (fun p => if s.cnv.ringEn.testBit p.1 then s.heldCells p.1 p.2 else 0))
  let nfull := n - held
  let order := slotOrder chg (s.get SCR.CFG.HOLD)
  let sp := splitCells units order nfull frac
  let s := s.decFlag sp.sat 2 SCR.SAT.COUNT
  let s := s.decFlag sp.short 3 SCR.SHORT.COUNT
  let seed := k * s.get SCR.CFG.SEEDMUL % 256
  let q (r : Nat) (b : Bool) : Option (Nat × Nat) :=
    match (List.range units.length).find? (fun i => match units[i]? with
        | some u => u.ring == r && u.sideB == b
        | none => false) with
    | some i =>
      let t := match sp.trim with | some (j, rank) => if j = i then rank else 0xFF | none => 0xFF
      some (sp.quotas.getD i 0 + 128 * bit sp.slot.1, t)
    | none => none
  let rs := List.range 12
  let qa := rs.map (fun r => ((q r false).map (fun p => p.1)).getD 0)
  let ta := rs.map (fun r => ((q r false).map (fun p => p.2)).getD 0xFF)
  let qb := rs.map (fun r => ((q r true).map (fun p => p.1)).getD 0)
  let tb := rs.map (fun r => ((q r true).map (fun p => p.2)).getD 0xFF)
  let thresh := sp.slot.2 + 64 * bit chg + 128 * bit neg
  let fr := if sp.sat then 0 else frac
  let d : DecisionSt := ⟨k, thresh, seed, fr, qa, ta, qb, tb, modes.map (fun p => p.2), blocked⟩
  -- held[r] after the decision
  let full (r : Nat) : Nat := sumL ((List.range units.length).map (fun i => match units[i]? with
    | some u => if u.ring = r then sumL (sp.before.map (slotCount u)) + sp.quotas.getD i 0 else 0
    | none => 0))
  let held' := modes.foldl (fun m p =>
    SMap.set 0 m p.1 (if p.2 ≤ 1 then full p.1 else if s.cnv.ringEn.testBit p.1 then s.heldCells p.1 p.2 else 0)) s.scr.held
  let run' := modes.foldl (fun m p => SMap.set 0 m p.1 (if p.2 = 2 then SMap.get 0 m p.1 + 1 else 0)) s.scr.holdRun
  let norm' := modes.foldl (fun m p => SMap.set 0 m p.1 (if p.2 = 0 then SMap.get 0 m p.1 + 1 else 0)) s.scr.normalRun
  let s := { s with scr := { s.scr with decision := d, held := held', holdRun := run', normalRun := norm', signPos := pos } }
  let s := s.set SCR.XUSED.X (ofSigned 32 x)
  let s := (s.set SCR.DEC.THRESH sp.slot.2).setFlag SCR.DEC.CHG chg
  let s := (s.setFlag SCR.DEC.NEG neg).setFlag SCR.DEC.QCLASS sp.slot.1
  let s := (s.setFlag SCR.DEC.TRIMSET sp.trim.isSome).set SCR.DEC.START (k % 12)
  let s := (s.set SCR.DEC.SEED seed).set SCR.DECN.FRAC fr
  let s := (s.set SCR.DECN.NFULL nfull).set SCR.AVAIL.TOTAL (sumL (order.map (slotTotal units)))
  let s := (s.set SCR.AVAIL.HELD held).set SCR.MODES.MODE (modes.foldl (fun m p => m + p.2 * 2 ^ (2 * p.1)) 0)
  let s := s.set SCR.INSNOW.COUNT (sumL (units.map (fun u => sumL u.tally.histI)))
  s.computeShares k

/-- The decision at t_D (R160): of a hub that runs Scree with tick events; Basecamp makes none (R171). -/
def State.screeDecision (s : State) : State :=
  if s.isHub && s.runs bSCR && s.tickEvents && !s.basecamp && !s.forwarderOnly then s.screeDecide (s.tickAt s.offD) else s

/-- REFBLOCK references in a row have been missed (R307, R377): BLOCK is set with a Cairn entry, RED raises REFLOSS. -/
def State.referenceBlock (s : State) : State :=
  if s.isHub && s.runs bSCR && !s.cnv.noCentral && decide (s.get RED.REFCFG.REFBLOCK ≤ s.get RED.REFSTAT.RUN) then
    let s := if s.flag SCR.ARMCTL.BLOCK then s else s.armBlock hwOrigin 1
    s.raise (srcRED 9)
  else s

/-! ## Orders launched at t_O -/

/-- The heartbeat byte (R94). -/
def State.heartbeat (s : State) : Nat := 1 + 2 * bit s.serves + 4 * s.get RED.STAT.XHB + 8 * s.get RED.STAT.PHB

/-- The epoch that this member launches (R353). -/
def State.launchEpoch (s : State) : Nat :=
  if s.serves || s.redState == rsIsolated then s.get RED.EPOCH.OWN else 0

/-- RMODE of ring `r` in the Order of tick `k` (R89, R174, R353): BLOCKALL first, then the member state, then the decision; without a
decision of the tick HOLD. -/
def State.launchMode (s : State) (r k : Nat) : Nat :=
  let d := s.scr.decision
  if s.basecamp || s.redState == rsForming || (if d.tick == k then d.blocked else s.flag SCR.ARMCTL.BLOCK || !s.inRun) then 3
  else if !s.serves || d.tick != k then 2
  else
    let m := d.modes.getD r 2
    m + (if m = 1 then 4 else 0)

/-- The ring Order of ring `r` and tick `k` (R88, R162); `cmd` is the service firmware's command for the ring: position, code, argument. -/
def State.ringOrder (s : State) (r k : Nat) (cmd : Option (Nat × Nat × Nat)) : Frame :=
  let d := if s.scr.decision.tick = k then s.scr.decision else {}
  let c := cmd.getD (0xFF, 0, 0)
  let body := toLE 2 s.address ++ toLE 2 s.launchEpoch ++ toLE 1 s.heartbeat ++ toLE 1 r ++ toLE 1 (s.launchMode r k) ++ [0] ++
    toLE 1 d.thresh ++ toLE 1 d.seed ++ toLE 1 (d.quotaB.getD r 0) ++ toLE 1 (d.trimB.getD r 0xFF) ++ toLE 2 d.frac ++ [0, 0] ++
    toLE 4 s.scr.iarm ++ zeroB 4 ++ toLE 1 c.1 ++ toLE 1 c.2.1 ++ toLE 2 c.2.2 ++ zeroB 4 ++
    (List.range 12).flatMap (fun q => toLE 1 (d.quota.getD q 0) ++ toLE 1 (d.trim.getD q 0xFF)) ++ zeroB 8
  { s.newFrame ftOrder s.member addrAll body with seq := k % 65536 }

/-- The cross-link Order of tick `k` (R95). -/
def State.crossOrder (s : State) (k digest : Nat) : Frame :=
  let body := toLE 2 s.address ++ toLE 2 s.launchEpoch ++ toLE 1 s.heartbeat ++ [0] ++ toLE 2 (s.get RED.SEEN.OWN) ++
    toLE 3 (if s.isCentral then 0xFFFFFF else s.scr.ownViews.2) ++ zeroB 5 ++ toLE 8 digest
  { s.newFrame ftOrder s.member s.partner body with seq := k % 65536 }

/-- The arms of trunk ring `i` (R29): one in a pole, two in a bipole. That ring i carries arm i, or arms 2i and 2i + 1, is the model's choice
(DESIGN CHOICE, log entry 155). -/
def State.trunkArms (s : State) (i : Nat) : List Nat := if s.cnv.bipole then [2 * i, 2 * i + 1] else [i, 0xFF]

/-- The trunk Order of trunk ring `i` and tick `k` (R92, R311). -/
def State.trunkOrder (s : State) (i k : Nat) : Frame :=
  let slot (a : Nat) : List Byte :=
    let used := decide (a < 12) && !(s.armSegments a).isEmpty
    if used then
      let fresh := s.lpe.outFresh.contains a && s.serves && !s.red.withheld
      toLE 1 a ++ toLE 1 (bit fresh) ++ [0, 0] ++ toLE 4 (s.get (LPE.OUT.VALUE a))
    else toLE 1 0xFF ++ zeroB 7
  let body := toLE 2 s.address ++ toLE 2 s.launchEpoch ++ toLE 1 s.heartbeat ++ toLE 1 i ++ zeroB 2 ++
    (s.trunkArms i).flatMap slot ++ zeroB 32
  { s.newFrame ftOrder s.member addrAll body with seq := k % 65536 }

/-- The output digest of tick `k` (R358): over the Orders launched, and over the values committed since the previous t_O with the share
entries written. -/
def State.digestOf (s : State) (orders : List Frame) (hub : Bool) (k : Nat) : Nat :=
  let low := orders.flatMap (fun f =>
    if hub then sliceB f.body 5 2 ++ sliceB f.body 8 16 ++ sliceB f.body 32 24 else sliceB f.body 8 48)
  let shares := if hub && s.scr.shares.1 == k && k % 8 == 0 then s.scr.shares.2 else []
  let high := (s.red.commits.reverse ++ shares).flatMap (toLE 4)
  (crc32 low).toNat + 2 ^ 32 * (crc32 high).toNat

/-- A state entered; NOPRIMARY is live while ISOLATED (R366). -/
def State.enterState (s : State) (st : Nat) : State :=
  let s := s.set RED.STAT.STATE st
  if st = rsIsolated then s.raise (srcRED 7) else s.unlive (srcRED 7)

/-- A transfer starts again from item 1 (R375). -/
def State.transferRestart (s : State) : State :=
  let s := ((s.set RED.JOINSTAT.CTX 0).set RED.JOINSTAT.SCRDONE 0).set RED.JOINSTAT.COMPARE 0
  { s.set RED.JOINSTAT.MATCH 0 with red := { s.red with admitted := [], tries := [], items := [], itemTick := none } }

/-- JOINING entered (R374): a transfer is requested at once with AUTOJOIN. -/
def State.enterJoining (s : State) : State :=
  let s := (s.enterState rsJoining).transferRestart
  { s.set RED.JOINSTAT.TRIES 0 with red := { s.red with joinAsked := s.flag RED.CFG.AUTOJOIN } }

/-- Own and partner's digest of one tick compared while both serve (R359). -/
def State.compareDigests (s : State) : State :=
  match s.red.ownDigest, s.red.partDigest with
  | some (k, a), some (j, b) =>
    if k ≠ j then s
    else
      let s := { s with red := { s.red with partDigest := none } }
      let s := s.setPair RED.DIGPART_LO.DIGEST RED.DIGPART_HI.DIGEST b
      if s.redState = rsJoining then
        -- admission: 16 matches in a row (R376)
        if !s.flag RED.JOINSTAT.COMPARE then s
        else if a = b then
          let s := s.inc RED.JOINSTAT.MATCH
          if s.get RED.JOINSTAT.MATCH ≥ 16 then
            let s := (s.set RED.STAT.STATE rsStandby).set RED.EPOCH.OWN (s.get RED.EPOCH.PARTNER - 1)
            let s := (s.inc RED.JOINS.COUNT).set RED.JOINSTAT.COMPARE 0
            { (s.unlive (srcRED 4)) with red := { s.red with joinAsked := false } }
          else s
        else
          let s := (s.inc RED.JOINSTAT.TRIES).transferRestart
          let stop := decide (s.get RED.JOINSTAT.TRIES ≥ 4)
          let s := { s with red := { s.red with joinAsked := !stop } }
          if stop then s.raise (srcRED 4) else s
      else if s.serves && s.flag RED.STAT.PSERVE then
        if a = b then (s.set RED.STAT.DIGCNT 0).unlive (srcRED 3)
        else
          let s := ((s.inc RED.STAT.DIGCNT).inc RED.DIGMISCNT.COUNT).raise (srcRED 3)
          if s.redState = rsStandby ∧ s.get RED.CFG.DIGRUN ≤ s.get RED.STAT.DIGCNT then
            s.enterJoining.raise (srcRED 4)
          else s
      else s
  | _, _ => s

/-- Orders launched at t_O of tick `k` (R88, R95, R162, R311): a hub member into every enabled ring and its partner, a central into every
trunk ring and its partner. `cmds`: the service firmware's cell commands, as (ring, position, code, argument). -/
def State.orderLaunch (s : State) (cmds : List (Nat × Nat × Nat × Nat)) : State :=
  if !s.tickEvents || s.forwarderOnly then s
  else
    let k := s.tickAt s.offO
    if s.isHub && s.runs bSCR then
      let s := { s with scr := { s.scr with ownViews := (k, s.viewsAt k) } }
      let orders := s.rings.map (fun r => (r, s.ringOrder r k ((cmds.find? (fun c => c.1 == r)).map (fun c => c.2))))
      let s := orders.foldl (fun s p => s.launch (ringLane p.1) p.2) { s with scr := { s.scr with iarmSent := s.scr.iarm } }
      let mode (m : Nat) := orders.any (fun p => p.2.field 1 6 1 % 4 == m)
      let s := if mode 2 then s.event 4 6 0 else s
      let s := if mode 3 then s.event 4 7 0 else s
      let dg := s.digestOf (orders.map (fun p => p.2)) true k
      let s := s.setPair RED.DIGOWN_LO.DIGEST RED.DIGOWN_HI.DIGEST dg
      let s := s.launch s.crossLane (s.crossOrder k dg)
      { s with red := { s.red with ownDigest := some (k, dg), commits := [] } }.compareDigests
    else if s.isCentral then
      let orders := (List.range 6).map (fun i => (i + 2, s.trunkOrder i k))
      let s := orders.foldl (fun s p => s.launch p.1 p.2) s
      let dg := s.digestOf (orders.map (fun p => p.2)) false k
      let s := s.setPair RED.DIGOWN_LO.DIGEST RED.DIGOWN_HI.DIGEST dg
      let s := s.launch s.crossLane (s.crossOrder k dg)
      { s with red := { s.red with ownDigest := some (k, dg), commits := [] }, lpe := { s.lpe with outFresh := [] } }.compareDigests
    else s

/-! ## Trunk frames -/

/-- This hub's trunk position; none when it holds none or one of 8 or above (R91). -/
def State.trunkPos (s : State) : Option Nat := if s.position < 8 then some s.position else none

/-- This hub's trunk Tally entry (R91, R301). -/
def State.trunkEntry (s : State) : List Byte :=
  let d := s.scr.decision
  let any (m : Nat) := s.rings.any (fun r => d.modes.getD r 3 == m)
  -- the Tallies, whole or wrapped, of the present tick and the two before
  let shows (m : SMap (Option TallySt)) (i : Nat) : Bool := match SMap.get none m i with
    | some t => t.stator / 32 % 2 == 1 && decide (s.tick ≤ t.tick + 2)
    | none => false
  let safe := s.rings.any (fun r => shows s.scr.tallies r || shows s.scr.wrapped (2 * r) || shows s.scr.wrapped (2 * r + 1))
  let flags := bit s.leads + 2 * bit (any 1) + 4 * bit (any 2) + 8 * bit safe
  let normal := maskOf (fun r => s.cnv.ringEn.testBit r && d.modes.getD r 3 == 0) 12
  toLE 2 s.address ++ toLE 2 s.launchEpoch ++ toLE 1 s.heartbeat ++ toLE 1 flags ++ toLE 2 normal ++
    toLE 4 s.lpe.val0 ++ toLE 4 s.lpe.val1

/-- The entries that a trunk Tally carries, taken by a hub or central (R300, R360, R365). -/
def State.readEntries (s : State) (f : Frame) (k : Nat) : State :=
  (List.range 8).foldl (fun s i =>
    let addr := f.field (2 + 2 * i) 0 2
    if !isHubAddr addr || addr == s.address then s
    else
      let hb := f.field (2 + 2 * i) 4 1
      let seg := (addr - 0x7C00) / 2
      let s := { s with scr := { s.scr with hubs := SMap.set {} s.scr.hubs (addr - 0x7C00) ⟨k, hb, f.field (2 + 2 * i) 2 2⟩ } }
      let s := if addr = s.partner ∧ s.isHub = true then
          { s with red := { s.red with pTicks := (k :: s.red.pTicks.filter (· != k)).take 8 } } else s
      let s := if (addr = s.partner ∧ s.isHub = true) ∨ s.red.addrs.contains addr = true then s
        else { s with red := { s.red with addrs := addr :: s.red.addrs } }
      if hb.testBit 1 && decide (SMap.get 0 s.scr.segTick seg < k + 1) then
        let m := SMap.set 0 s.scr.segVals (2 * seg) (f.field (2 + 2 * i) 8 4)
        let m := SMap.set 0 m (2 * seg + 1) (f.field (2 + 2 * i) 12 4)
        { s with scr := { s.scr with segVals := m, segTick := SMap.set 0 s.scr.segTick seg (k + 1) } }
      else s) s

/-- A trunk Tally passes a hub (R91, R113): its entry is written, the others read, the frame forwarded or turned back. -/
def State.trunkTallyPass (s : State) (n : Nat) (f : Frame) : State :=
  let r := s.rxFrame n f
  let s := r.2
  if !s.isHub || !s.wholeFrame n f ftTally then s.forward n f (!r.1)
  else
    let s := if r.1 && !s.forwarderOnly then
        (match s.expectedTick f.seq with | some k => s.readEntries f k | none => s.seqError n) else s
    if f.wrap then s.forward n f (!r.1)
    else
      let g := if s.forwarderOnly || !s.runs bSCR then f else match s.trunkPos with
        | some p => { f with body := bumpByte (putBytes f.body (8 + 16 * p) s.trunkEntry) 1 }
        | none => f
      if s.wrapsAt n f.dir then
        let s := s.set (LNK.STAT.WRAP n) 1
        s.sendForward n n (passOn { g with wrap := true, body := putLE g.body 2 1 s.position } (!r.1))
      else s.forward n g (!r.1)

/-- A trunk Tally reaches a central (R118, R176): its entries are read, and stored where SCR is instantiated, the DIR 0 copy kept when
both copies of a tick are good. -/
def State.trunkTallyArrive (s : State) (n : Nat) (f : Frame) : State :=
  let r := s.rxFrame n f
  let s := r.2
  if s.isCentral && s.forwarderOnly then
    if s.wholeFrame n f ftTally then s.sendForward n n (passOn { f with wrap := true, body := putLE f.body 2 1 0xFE } (!r.1)) else s
  else if !(r.1 && s.isCentral && decide (f.ftype = ftTally) && s.isTrunkLane n) then s
  else
    match s.expectedTick f.seq with
    | none => s.seqError n
    | some k =>
      let s := s.readEntries f k
      let s := if f.wrap then { s with scr := { s.scr with trunkWrap := SMap.set 0 s.scr.trunkWrap n (k + 1) } } else s
      let i := f.field 1 0 1
      let held := SMap.get (0, 0) s.scr.trunkHeld i
      if !s.runs bSCR || (held.1 == k + 1 && held.2 == 0 && f.dir == 1) || decide (6 ≤ i) then s
      else
        let s := { s with scr := { s.scr with trunkHeld := SMap.set (0, 0) s.scr.trunkHeld i (k + 1, f.dir) } }
        (List.range 32).foldl (fun s w =>
          s.set (SCR.TENTRY.DATA i (w / 4) (w % 4)) (f.field 2 (4 * w) 4)) s

/-- The arm slot of a trunk Order that carries arm `a` (R92). -/
def armSlot (f : Frame) (a : Nat) : Option Nat :=
  if f.field 2 0 1 = a then some 0 else if f.field 3 0 1 = a then some 1 else none

/-- Shares written by a serving member of the arm leader into a trunk Order that passes (R93). -/
def State.writeShares (s : State) (f : Frame) (k : Nat) : Frame :=
  match armSlot f (s.armOf s.segment) with
  | none => f
  | some b =>
    if k % 8 = 0 && s.leads && s.serves && s.scr.shares.1 == k then
      let f := f.put (2 + b) 1 1 (f.field (2 + b) 1 1 ||| 2)
      let sh := s.scr.shares.2
      let word (j : Nat) : List Byte := let v := sh.getD j 0; toLE 2 (v / 65536) ++ toLE 2 (v % 65536)
      { f with body := putBytes f.body (24 + 16 * b) ((List.range 4).flatMap word) }
    else f

/-- VREF and shares taken from a trunk Order copy of tick `k` (R93, R300, R364). -/
def State.takeTrunkOrder (s : State) (f : Frame) (k : Nat) : State :=
  let epoch := f.field 1 2 2
  let src := f.field 1 0 2
  let take := match s.scr.trunkObeyed with
    | some (j, e, sr, d) =>
      if j = k then (if s.cnv.noCentral then f.dir == 0 && d == 1 else outranks (s.get SYS.SENIOR.ADDR) epoch src f.dir e sr d)
      else decide (j < k)
    | none => true
  match armSlot f (s.armOf s.segment) with
  | none => s
  | some b =>
    let flags := f.field (2 + b) 1 1
    let s :=
      if take then
        let s := { s with scr := { s.scr with trunkObeyed := some (k, epoch, src, f.dir) } }
        if flags % 2 = 1 then { s with scr := { s.scr with vref := f.field (2 + b) 4 4, vrefFresh := true } } else s
      else s
    let have_ := match s.scr.shareNext with | some (_, j) => j == k + 8 | none => false
    if flags / 2 % 2 = 1 ∧ k % 8 = 0 ∧ !have_ then
      let j := ((s.armSegments (s.armOf s.segment)).findIdx? (· == s.segment)).getD 0
      let at_ := f.field (4 + 2 * b) (4 * j) 2
      let fr := f.field (4 + 2 * b) (4 * j + 2) 2
      { s with scr := { s.scr with shareNext := some (at_ * 65536 + fr, k + 8) } }
    else s

/-- A trunk Order reaches a hub (R92, R93, R364): forwarded, with shares written by the arm leader, and used. -/
def State.trunkOrderReceive (s : State) (n : Nat) (f : Frame) : State :=
  let r := s.rxFrame n f
  let s := r.2
  if !s.isHub || !s.wholeFrame n f ftOrder || s.forwarderOnly || !s.runs bSCR then s.forward n f (!r.1)
  else
    match s.expectedTick f.seq with
    | none => let s := s.forward n f (!r.1); if r.1 then s.seqError n else s
    | some k =>
      let s := s.forward n (s.writeShares f k) (!r.1)
      if r.1 then s.takeTrunkOrder f k else s

/-! ## Segment sums (R298) -/

/-- The contribution of ring `r` from the slots of its last four groups. -/
def State.ringSum (s : State) (r : Nat) : SumSt :=
  (List.range 64).foldl (fun (a : SumSt) p =>
    let w := SMap.get 0 s.scr.cells (64 * r + p)
    let code := w % 65536
    if w / 2 ^ 16 % 2 = 1 ∧ w / 2 ^ 18 % 2 = 0 ∧ code ≠ 0xFFFF then ⟨a.codes + code, a.squares + code * code, a.slots + 1⟩ else a) {}

/-- The sums of the segment with each ring's contribution, kept from the previous sweep for a ring that was not NORMAL in all four ticks. -/
def State.sweep (s : State) : SumSt × State :=
  let sums := s.rings.foldl (fun m r =>
    if SMap.get 0 s.scr.normalRun r ≥ 4 then SMap.set {} m r (s.ringSum r) else m) s.scr.sums
  let tot := s.rings.foldl (fun (a : SumSt) r =>
    let x := SMap.get ({} : SumSt) sums r
    ⟨a.codes + x.codes, a.squares + x.squares, a.slots + x.slots⟩) {}
  (tot, { s with scr := { s.scr with sums := sums } })

/-! ## The sample instant -/

/-- The arm current of a hub at the sample instant (R88, R296). -/
def State.sampleHub (s : State) : State := { s with scr := { s.scr with iarm := s.sdmValue 0 } }

end Sys2Proof.Machine
end

