-- ==== Sys2Proof/Machine/Mgmt.lean ====
section
/-!
DEFINITION. Machine/Mgmt.lean: transactions (R470 to R477, R481): the header, arrival and routing of Mgmt frames (R106, R107), session and
group tags (R454, R458), permissions (R456, R457, R68), contexts, the journal, replies.
-/

namespace Sys2Proof.Machine

/-! ## Headers -/

/-- A transaction as it stands in the payload of a Mgmt frame (R101, R470). -/
structure Txn where
  lane : Nat
  src : Nat
  dst : Nat
  mflags : Nat
  pay : List Byte
  body : List Byte
  deriving DecidableEq, Repr

def txnOf (lane : Nat) (f : Frame) : Txn :=
  let pay := sliceB f.body 8 (plen f)
  ⟨lane, f.field 1 0 2, f.dst, f.field 1 5 1, pay, pay.drop 32⟩

def Txn.op (t : Txn) : Nat := byteAt t.pay 0
def Txn.flags (t : Txn) : Nat := byteAt t.pay 1
def Txn.reply (t : Txn) : Bool := t.flags.testBit 0
def Txn.inSession (t : Txn) : Bool := t.flags.testBit 1
def Txn.inGroup (t : Txn) : Bool := t.flags.testBit 2
def Txn.more (t : Txn) : Bool := t.flags.testBit 3
def Txn.sess (t : Txn) : Nat := byteAt t.pay 2
def Txn.status (t : Txn) : Nat := byteAt t.pay 3
def Txn.ctr (t : Txn) : Nat := leAt t.pay 4 4
def Txn.blen (t : Txn) : Nat := leAt t.pay 8 2
def Txn.tag (t : Txn) : List Byte := sliceB t.pay 12 16
def Txn.broadcast (t : Txn) : Bool := t.dst == addrAll

/-- The bytes that a tag authenticates: the payload without the tag (R470). -/
def authBytes (pay : List Byte) : List Byte := pay.take 12 ++ pay.drop 28

/-- Little-endian field of the body. -/
def Txn.at (t : Txn) (i n : Nat) : Nat := leAt t.body i n

/-! ## Operations (R471) -/

def opDiscover : Nat := 0x01
def opRead : Nat := 0x02
def opWrite : Nat := 0x03
def opTwrite : Nat := 0x04
def opCpush : Nat := 0x08
def opCact : Nat := 0x09
def opFwpush : Nat := 0x0A
def opKeypres : Nat := 0x0B
def opFlashwr : Nat := 0x0C
def opAttest : Nat := 0x0D
def opLogdrain : Nat := 0x10
def opLogack : Nat := 0x11
def opCapup : Nat := 0x12
def opCapasm : Nat := 0x13
def opSopen : Nat := 0x18
def opSconf : Nat := 0x19
def opSclose : Nat := 0x1A
def opKeyinst : Nat := 0x1B
def opJquery : Nat := 0x20
def opHello : Nat := 0x30
def opEchorep : Nat := 0x31
def opXfer : Nat := 0x32

def listedOps : List Nat := [0x01, 0x02, 0x03, 0x04, 0x08, 0x09, 0x0A, 0x0B, 0x0C, 0x0D, 0x10, 0x11, 0x12, 0x13, 0x18, 0x19, 0x1A, 0x1B,
  0x20, 0x30, 0x31, 0x32]

/-- Reply STATUS (R472). -/
def stOk : Nat := 0
def stBusy : Nat := 1
def stLenerr : Nat := 2
def stDenied : Nat := 3
def stBuserr : Nat := 4
def stBadop : Nat := 5
def stNotfound : Nat := 6

/-! ## Arrival and routing -/

/-- The lane on which a central reaches segment `seg`: the trunk ring of its arm (R29, R106). -/
def State.segmentLane (s : State) (seg : Nat) : Option Nat :=
  (List.range 6).find? (fun i => (s.trunkArms i).any (fun a => decide (a < 12) && a == s.armOf seg)) |>.map (· + 2)

/-- The write that the ring clock service sends, which no device relays (R387). -/
def serviceWrite (t : Txn) : Bool := t.op == opWrite && t.at 0 4 == CLK.SRCSEL.LANE.addr

/-- A broadcast Mgmt frame relayed (R107): a hub from its trunk into each ring, a central from the host onto every trunk ring. -/
def State.relayBroadcast (s : State) (n : Nat) (f : Frame) : State :=
  if serviceWrite (txnOf n f) then s
  else
    let out := if s.isHub && s.isTrunkLane n then s.rings else if s.isCentral && (n == 0 || n == 8) then [2, 3, 4, 5, 6, 7] else []
    out.foldl (fun s l => s.originate l { passOn f false with dir := s.launchDir l }) s

/-- A Mgmt frame arrives on lane `n`: counted and checked, forwarded, relayed when it is a broadcast (R106, R107). Answers whether it is a good
frame for this device. -/
def State.mgmtTake (s : State) (n : Nat) (f : Frame) : Bool × State :=
  let r := s.rxFrame n f
  let s := r.2
  let good := r.1 && decide (f.ftype = ftMgmt)
  let src := f.field 1 0 2
  if f.dst = addrAll then
    let s := s.forward n f (!r.1)
    if !good then (false, s)
    else
      let c := s.takeCopy n 0 src (f.field 1 2 2) 1024
      if c.1 then (true, ((if s.forwarderOnly then c.2 else c.2.relayBroadcast n f)).noteRoute n src) else c
  else if f.dst = addrUnjoined then
    if s.isCell && s.unjoined && f.hop == f.field 1 4 1 then (good, if good then s.noteRoute n src else s)
    else (false, (if good then s.noteRoute n src else s).forward n f (!r.1))
  else if f.dst = s.address then
    if !good then (false, s)
    else if s.isCentral && (n == 0 || n == 8) then
      -- the copy on the other host lane is discarded (R19)
      let c := s.takeCopy n 0 src (f.field 1 2 2) 1024
      (c.1, if c.1 then c.2.noteRoute n src else c.2)
    else (true, s.noteRoute n src)
  else (false, (if good then s.noteRoute n src else s).forward n f (!r.1))

/-- The same, for the cores that serve transactions: they work outside reset and debug halt (R117, R118). -/
def State.mgmtArrive (s : State) (n : Nat) (f : Frame) : Bool × State :=
  let r := s.mgmtTake n f
  (r.1 && !r.2.forwarderOnly, r.2)

/-- A hub's own broadcast or a central's leaves every lane that reaches other devices (R341 for Marks, taken for Mgmt alike). -/
def State.broadcastLanes (s : State) : List Nat :=
  if s.isHub then s.rings ++ [12, 13] else if s.isCentral then [2, 3, 4, 5, 6, 7] else [0, 1]

/-! ## Tags -/

/-- PERM, state and key of session `n`. -/
def State.sessOpen (s : State) (n : Nat) : Bool := decide (n < 8) && s.flag (SEC.SESS_STAT.OPEN n)
def State.sessKey (s : State) (n : Nat) : List Byte := ((SMap.get none s.sec.sess n).map (fun x => x.key)).getD []

/-- The session tag (R454). -/
def sessTag (key : List Byte) (sess dir ctr dst src : Nat) (bytes : List Byte) : List Byte :=
  (hmac256 key (toLE 1 sess ++ toLE 1 dir ++ toLE 4 ctr ++ toLE 2 dst ++ toLE 2 src ++ bytes)).take 16

/-- The group tag (R458). -/
def groupTag (key : List Byte) (gctr dst src : Nat) (bytes : List Byte) : List Byte :=
  (hmac256 key ([0xFF] ++ toLE 4 gctr ++ toLE 2 dst ++ toLE 2 src ++ bytes)).take 16

/-- GRPKEYHASH and RSTKEYHASH of the applied canvas (R452). -/
def State.grpHash (s : State) : List Byte := if s.active then sliceB s.cnv.security 32 32 else zeroB 32
def State.rstHash (s : State) : List Byte := if s.active then sliceB s.cnv.security 0 32 else zeroB 32

def State.hmacFail (s : State) : State := (s.inc SEC.HMACFAILS.COUNT).raise (srcSEC 3)

/-- The tag of a transaction is good; one without tag passes here (R454, R458). -/
def State.tagGood (s : State) (t : Txn) : Bool :=
  if t.inSession then
    s.sessOpen t.sess && t.tag == sessTag (s.sessKey t.sess) t.sess 0 t.ctr t.dst t.src (authBytes t.pay)
  else if t.inGroup then
    match s.sec.grpKey with
    | some k => t.tag == groupTag k t.ctr t.dst t.src (authBytes t.pay)
    | none => s.grpHash == zeroB 32 || s.grpHash == []
  else true

/-- The last GCTR accepted from an originator. -/
def State.lastGctr (s : State) (src : Nat) : Nat := ((s.sec.gctr.find? (fun p => p.1 == src)).map (fun p => p.2)).getD 0

/-- The counter of a transaction with a tag is above the last accepted one (R454, R458). -/
def State.ctrFresh (s : State) (t : Txn) : Bool :=
  if t.inSession then decide (s.get (SEC.SESS_CTRIN.CTR t.sess) < t.ctr)
  else if t.inGroup && s.sec.grpKey.isSome then decide (s.lastGctr t.src < t.ctr)
  else true

/-- The counter is taken (R454, R455, R458). -/
def State.takeCtr (s : State) (t : Txn) : State :=
  if t.inSession then
    let s := s.set (SEC.SESS_CTRIN.CTR t.sess) t.ctr
    let x := (SMap.get none s.sec.sess t.sess).map (fun x => { x with last := s.tick })
    { s with sec := { s.sec with sess := SMap.set none s.sec.sess t.sess x } }
  else if t.inGroup && s.sec.grpKey.isSome then
    { s with sec := { s.sec with gctr := ((t.src, t.ctr) :: s.sec.gctr.filter (fun p => p.1 != t.src)).take 64 } }
  else s

/-! ## Permissions -/

/-- What a transaction needs (R471): nothing, the PERM bits of a mask, or a group tag. -/
inductive Need where
  | free
  | perm (mask : Nat)
  | group
  deriving DecidableEq, Repr

/-- The transactions that need no session while no canvas is applied (R68). -/
def basecampOps : List Nat := [opDiscover, opRead, opKeypres, opCpush, opCact, opFwpush, opAttest, opLogdrain, opCapup]

/-- The device executes the transaction (R456 to R458, R68). -/
def State.permitted (s : State) (t : Txn) (need : Need) : Bool :=
  if !s.active && listedOps.contains t.op then basecampOps.contains t.op
  else match need with
  | .free => true
  | .group => t.inGroup || s.sec.grpKey.isNone
  | .perm mask =>
    if !s.active then false
    else if t.inSession then (s.get (SEC.SESS_STAT.PERM t.sess)) &&& mask == mask
    else t.broadcast && ((t.inGroup && s.sec.grpKey.isSome) || s.grpHash == zeroB 32)

/-- The origin of what a remote transaction does (R459). -/
def State.remoteOrigin (s : State) (t : Txn) : Origin :=
  if t.inSession then ⟨7, t.lane, t.sess, s.get (SEC.SESS_STAT.OPIDX t.sess)⟩ else ⟨7, t.lane, 0xFF, 0xFF⟩

/-! ## The journal (R481) -/

def jAddr (i : Nat) : Nat := journalBase + 1024 * i
def State.jGet (s : State) (i off n : Nat) : Nat := leAt (s.sramGet (jAddr i + off) n) 0 n
def State.jState (s : State) (i : Nat) : Nat := s.jGet i 0 1
def State.jUsable (s : State) (i : Nat) : Bool := s.jState i == 0 || s.jState i == 3
def State.jTxn (s : State) (i : Nat) : List Byte := s.sramGet (jAddr i + 32) (s.jGet i 24 2)
def State.jReply (s : State) (i : Nat) : List Byte := s.sramGet (jAddr i + 520) (s.jGet i 26 2)
def State.jSetState (s : State) (i v : Nat) : State := s.sramPut (jAddr i) (toLE 1 v)

/-- The 256 entries, from JNEXT upwards. -/
def State.jOrder (s : State) : List Nat :=
  let n := s.get MGT.JNEXT.INDEX
  (List.range 256).map (fun i => (n + i) % 256)

/-- JFREE counts free and acknowledged entries. -/
def State.jCount (s : State) : State := s.set MGT.STAT.JFREE (countBelow s.jUsable 256)

/-- The entry of a transaction already journalled (R476): same SRC, SESSID, CTR and transaction bytes, in `role`. -/
def State.jFind (s : State) (t : Txn) (role : Nat) : Option Nat :=
  (List.range 256).find? (fun i => decide (s.jState i ≠ 0) && s.jGet i 1 1 == role && s.jGet i 2 2 == t.src && s.jGet i 8 1 == t.sess &&
    s.jGet i 4 4 == t.ctr && authBytes (s.jTxn i) == authBytes t.pay)

/-- Replied entries of the same originator and session with a lower CTR become acknowledged (R481). -/
def State.jAck (s : State) (t : Txn) : State :=
  (List.range 256).foldl (fun s i =>
    if s.jState i = 2 ∧ s.jGet i 2 2 = t.src ∧ s.jGet i 8 1 = t.sess ∧ s.jGet i 4 4 < t.ctr then s.jSetState i 3 else s) s

/-- A new entry (R481); none when no entry is free or acknowledged. -/
def State.jNew (s : State) (t : Txn) (role : Nat) : Option (Nat × State) :=
  match s.jOrder.find? s.jUsable with
  | none => none
  | some i =>
    let head := toLE 1 1 ++ toLE 1 role ++ toLE 2 t.src ++ toLE 4 t.ctr ++ toLE 1 t.sess ++ toLE 1 t.op ++ toLE 2 t.dst ++
      toLE 4 s.short ++ toLE 8 s.tick ++ toLE 2 t.pay.length ++ toLE 2 0 ++ zeroB 4
    let s := s.sramPut (jAddr i) (head ++ t.pay)
    some (i, (s.set MGT.JNEXT.INDEX ((i + 1) % 256)).jCount)

/-- The reply of entry `i` recorded: replied, or acknowledged at once for a broadcast (R481). -/
def State.jDone (s : State) (i : Nat) (pay : List Byte) : State :=
  let s := s.sramPut (jAddr i + 26) (toLE 2 pay.length)
  let s := s.sramPut (jAddr i + 520) pay
  let s : State := { s with mgt := { s.mgt with replied := SMap.set 0 s.mgt.replied i (s.tick + 1) } }
  (s.jSetState i (if pay.isEmpty || s.jGet i 10 2 == addrAll then 3 else 2)).jCount

/-! ## Replies -/

/-- A refused request raises its condition, and its reply counts in REFUSED (R475, R489, R490). -/
def State.countRefusal (s : State) (t : Txn) (st : Nat) : State :=
  let s := if !t.broadcast && (st == stBusy || st == stLenerr || st == stDenied) then s.inc MGT.REFUSED.COUNT else s
  if st = stBusy then s.raise (srcMGT 0) else if st = stLenerr then s.raise (srcMGT 1) else s

/-- The payload of one reply (R454, R470), and the state with the session counter moved on. -/
def State.replyPay (s : State) (t : Txn) (st : Nat) (more : Bool) (body : List Byte) : List Byte × State :=
  let inS := t.inSession && s.sessOpen t.sess
  let s := if inS then s.wrap (SEC.SESS_CTROUT.CTR t.sess) else s
  let ctr := if inS then s.get (SEC.SESS_CTROUT.CTR t.sess) else t.ctr
  let head := toLE 1 t.op ++ toLE 1 (1 + 2 * bit inS + 8 * bit more) ++ toLE 1 t.sess ++ toLE 1 st ++ toLE 4 ctr ++
    toLE 2 body.length ++ zeroB 2
  let bytes := head ++ zeroB 4 ++ body
  let tag := if inS then sessTag (s.sessKey t.sess) t.sess 1 ctr t.src s.address bytes else zeroB 16
  (head ++ tag ++ zeroB 4 ++ body, s)

/-- The lane of a reply: that of the request where it leads back there, else as routed (R106). -/
def State.replyLane (s : State) (t : Txn) : Nat := if s.isCell && s.laneUp t.lane && !(isHubAddr t.src) then t.lane else s.routeOwn t.src

def State.sendReply (s : State) (t : Txn) (pay : List Byte) : State :=
  let m := s.nextMseq
  let s := m.2
  let n := s.replyLane t
  let hop := if s.isCell && s.unjoined then s.get (LNK.STAT.HOPIN t.lane) else 0xFF
  s.originate n (s.mgmtFrame n t.src m.1 hop 0 pay)

/-- One reply made and sent, not journalled. -/
def State.answer (s : State) (t : Txn) (st : Nat) (body : List Byte) : State :=
  let r := s.replyPay t st false body
  if t.broadcast then s else r.2.sendReply t r.1

/-- A request refused before it took a context: counted, and answered unless it was a broadcast (R474, R475). -/
def State.refuse (s : State) (t : Txn) (st : Nat) : State := (s.countRefusal t st).answer t st []

/-- Several replies to one request, each but the last with MORE; the first is journalled (R470, R481). -/
def State.answerAll (s : State) (t : Txn) (entry : Nat) (st : Nat) : List (List Byte) → Bool → State
  | [], _ => s
  | b :: bs, first =>
    let r := s.replyPay t st (!bs.isEmpty) b
    let s := if first then r.2.jDone entry r.1 else r.2
    (s.sendReply t r.1).answerAll t entry st bs false

/-- What an operation answers: STATUS and bodies of its replies; `later`: the reply comes with a later command. -/
inductive Answer where
  | now (status : Nat) (bodies : List (List Byte))
  | later

/-- STATUS alone. -/
def Answer.status (st : Nat) : Answer := .now st [[]]

/-! ## Serving a request -/

/-- The requests that a device in Bivouac still decodes: power commands, activation, attestation (R59, R396, R451). -/
def bivouacServes (t : Txn) : Bool :=
  t.op == opAttest || t.op == opCact || (t.op == opWrite && t.at 0 4 == PWR.CMD.SEQ.addr && t.at 4 2 == 1)

/-- The cores that serve transactions run. -/
def State.servesMgmt (s : State) (t : Txn) : Bool := decide (s.power ≤ 1) || (s.power == 2 && bivouacServes t)

/-- A good request of operation `op` reaches its execution (R454, R456, R474 to R476): `need` its permission, `lenOk` its length rule,
`run` its effect with the number of its journal entry. -/
def State.serveTxn (s : State) (t : Txn) (need : Txn → Need) (lenOk : Txn → Bool) (run : Txn → Nat → State → Answer × State) : State :=
  let exempt := need t == .free
  if !s.tagGood t then s.hmacFail
  else if t.broadcast && !t.inGroup && !exempt && s.grpHash != zeroB 32 && s.active then s.raise (srcMGT 2)
  else
    match s.jFind t 0 with
    | some i =>
      if s.jState i = 1 then s
      else if t.broadcast then s
      else if t.op = opCapup then
        -- a repeat of a CAPUP is served again from the device's own data (R481)
        let a := run t i s
        match a.1 with
        | .now st bodies => (a.2.inc MGT.DUPANS.COUNT).answerAll t i st bodies true
        | .later => a.2
      else if (s.jReply i).isEmpty then s
      else (s.inc MGT.DUPANS.COUNT).sendReply t (s.jReply i)
    | none =>
      if !s.ctrFresh t then s.hmacFail
      else
        let s := (s.takeCtr t).jAck t
        if decide (32 + t.blen ≠ t.pay.length) || !lenOk t then s.refuse t stLenerr
        else if !s.permitted t (need t) then (s.refuse t stDenied).raise (srcMGT 2)
        else if !s.ctxFree then s.refuse t stBusy
        else
          match s.jNew t 0 with
          | none => (s.refuse t stBusy).raise (srcMGT 3)
          | some (i, s) =>
            let s := ((((s.unlive (srcMGT 0)).unlive (srcMGT 1)).unlive (srcMGT 2)).unlive (srcMGT 3)).inc MGT.RXREQ.COUNT
            let a := run t i s
            match a.1 with
            | .later => a.2.showContexts
            | .now st bodies =>
              let s := a.2.countRefusal t st
              if t.broadcast && t.op != opDiscover then s.jDone i []
              else s.answerAll t i st bodies true

/-- A request frame of operation `op` on lane `n`, from its arrival to its reply. -/
def State.serve (s : State) (n : Nat) (f : Frame) (op : Nat) (need : Txn → Need) (lenOk : Txn → Bool)
    (run : Txn → Nat → State → Answer × State) : State :=
  let a := s.mgmtArrive n f
  let t := txnOf n f
  if a.1 && t.op == op && !t.reply && a.2.servesMgmt t then a.2.serveTxn t need lenOk run else a.2

/-- A notice of operation `op` arrives (R470): no context, no reply, no journal. `need` as for a request. -/
def State.notice (s : State) (n : Nat) (f : Frame) (op : Nat) (need : Need) (run : Txn → State → State) : State :=
  let a := s.mgmtArrive n f
  let t := txnOf n f
  let s := a.2
  if !(a.1 && t.op == op && !t.reply && decide (s.power ≤ 1)) then s
  else if !s.tagGood t || !s.ctrFresh t then s.hmacFail
  else if !s.permitted t need then s.raise (srcMGT 2)
  else run t (s.takeCtr t)

/-! ## Sending -/

/-- The header and body of a request of this device: with a group tag when `group` and a group key is held (R458, R470, R471). -/
def State.request (s : State) (op dst : Nat) (body : List Byte) (group : Bool) : List Byte × Nat × State :=
  match group, s.sec.grpKey with
  | true, some k =>
    let g := s.sec.gctrOut
    let head := toLE 1 op ++ toLE 1 4 ++ [0xFF, 0] ++ toLE 4 g ++ toLE 2 body.length ++ zeroB 2
    let tag := groupTag k g dst s.address (head ++ zeroB 4 ++ body)
    (head ++ tag ++ zeroB 4 ++ body, g, { s with sec := { s.sec with gctrOut := g + 1 } })
  | _, _ =>
    let c := s.mgt.ctr
    let head := toLE 1 op ++ toLE 1 0 ++ [0xFF, 0] ++ toLE 4 c ++ toLE 2 body.length ++ zeroB 2
    (head ++ zeroB 16 ++ zeroB 4 ++ body, c, { s with mgt := { s.mgt with ctr := (c + 1) % 2 ^ 32 } })

/-- A notice sent to one device. -/
def State.sendNotice (s : State) (op dst : Nat) (body : List Byte) (group : Bool) : State :=
  let r := s.request op dst body group
  r.2.2.sendMgmt dst r.1

/-- A payload sent out of one lane. -/
def State.sendOn (s : State) (lane dst : Nat) (pay : List Byte) : State :=
  let m := s.nextMseq
  m.2.originate lane (m.2.mgmtFrame lane dst m.1 0xFF (m.2.ownFlags lane dst) pay)

/-- A broadcast payload sent out of several lanes: copies of one frame, with one MSEQ (R101, R107). -/
def State.sendOnAll (s : State) (lanes : List Nat) (pay : List Byte) : State :=
  let m := s.nextMseq
  lanes.foldl (fun s l => s.originate l (s.mgmtFrame l addrAll m.1 0xFF 0 pay)) m.2

/-- A WRITE of one word to every cell of ring `r`, as a broadcast into it (R471). -/
def State.ringWrite (s : State) (r a v : Nat) : State :=
  let q := s.request opWrite addrAll (toLE 4 a ++ toLE 2 1 ++ [0, 0] ++ toLE 4 v) true
  q.2.2.sendOn (ringLane r) addrAll q.1

/-- The lowest context number that no send uses, from 1. -/
def State.freeCtx (s : State) : Nat :=
  ((List.range 128).map (· + 1)).find? (fun c => !(s.mgt.sends.any (fun x => x.ctx == c && x.ended.isNone))) |>.getD 128

/-- A request sent and its reply awaited (R474, R477); a broadcast is not answered and waits for nothing. Answers its context. -/
def State.sendRequest (s : State) (dst : Nat) (pay : List Byte) (replay : Option Nat) : Nat × State :=
  let c := s.freeCtx
  if dst = addrAll then (c, s.sendOnAll s.broadcastLanes pay)
  else
    let s := s.sendMgmt dst pay
    let x : SendSt := { ctx := c, dst := dst, payload := pay, since := s.tick, launches := 1, replay := replay }
    (c, { s with mgt := { s.mgt with sends := s.mgt.sends.filter (fun (y : SendSt) => y.ctx != c) ++ [x] } }.showContexts)

/-- The journal replay of a member that enters PRIMARY by the count rule (R372): each relayed transaction that is neither complete nor older
than 65 536 ticks is looked up at its target. -/
def State.replayJournal (s : State) : State :=
  (List.range 256).foldl (fun s i =>
    if s.jState i = 1 ∧ s.jGet i 1 1 = 1 ∧ s.tick ≤ s.jGet i 16 8 + 65536 then
      let target := s.jGet i 10 2
      let body := toLE 2 (s.jGet i 2 2) ++ toLE 1 (s.jGet i 8 1) ++ [0] ++ toLE 4 (s.jGet i 4 4)
      let r := s.request opJquery target body true
      ((r.2.2.sendRequest target r.1 (some i)).2).inc RED.REPLAYED.COUNT
    else s) s

end Sys2Proof.Machine
end

