-- ==== Sys2Proof/Machine/Pair.lean ====
section
/-!
DEFINITION. Machine/Pair.lean: the pair of members (R353 to R378): pair-hello, forming, heartbeats on two paths, the count rule, epochs, yield,
state transfer.
-/

namespace Sys2Proof.Machine

/-- The RED block of a hub or central works and its cores run; in Basecamp it stays FORMING (R64). -/
def State.redRuns (s : State) : Bool := !s.isCell && s.runs bRED && !s.forwarderOnly && !s.basecamp && decide (s.power ≤ 1)

/-- This member is the senior one (R355). -/
def State.senior (s : State) : Bool := s.flag RED.STAT.SENIOR

/-- A central that takes authority arms TB.DOMSW for its own domain, 64 ticks ahead, and broadcasts the same arming (R373). -/
def State.armOwnDomain (s : State) : State :=
  if !s.isCentral then s
  else
    let k := s.tick + 64
    let s := (s.set TB.DOMSW.SEQ (k % 65536)).set TB.DOMSW.TARGET s.member
    let s := { s.set TB.DOMSW.ARMED 1 with time := { s.time with switchTick := k } }
    let v := k % 65536 + 2 ^ 16 * s.member + 2 ^ 17
    let r := s.request opWrite addrAll (toLE 4 TB.DOMSW.SEQ.addr ++ toLE 2 1 ++ [0, 0] ++ toLE 4 v) true
    (r.2.2.sendRequest addrAll r.1 none).2

/-- The epoch taken on entering PRIMARY (R362): one more than the larger of both, never above 0xFFFF. -/
def State.raiseEpoch (s : State) : State :=
  let own := s.get RED.EPOCH.OWN
  let top := if own < s.get RED.EPOCH.PARTNER then s.get RED.EPOCH.PARTNER else own
  if own = 0xFFFF ∨ top = 0xFFFF then (s.set RED.EPOCH.OWN 0xFFFF).raise (srcRED 8) else s.set RED.EPOCH.OWN (top + 1)

/-- PRIMARY entered with a raised epoch (R362, R373). -/
def State.enterPrimary (s : State) : State := ((s.enterState rsPrimary).raiseEpoch).armOwnDomain

/-- The member wins the count rule (R366). -/
def State.wins (s : State) : Bool :=
  let a := 2 * s.get RED.SEEN.OWN
  decide (s.get RED.SEENTOT.T < a) || (a == s.get RED.SEENTOT.T && s.senior)

/-- The count rule on a declaration (R366, R372). -/
def State.countRule (s : State) : State :=
  if s.wins then
    (if s.redState = rsPrimary then s else (s.enterPrimary.inc RED.TAKEOVERS.COUNT).replayJournal)
  else s.enterState rsIsolated

/-! ## Pair-hello -/

/-- The body of a pair-hello (R356). -/
def State.helloBody (s : State) : List Byte :=
  let form := match s.red.formTick with | some k => if s.senior then k % 65536 else 0xFFFF | none => 0xFFFF
  let yield := if s.redState = rsPrimary ∧ s.flag RED.YIELD.ARMED = true then s.red.yieldTick % 65536 else 0xFFFF
  toLE 4 (s.get CNV.PAIRTAG.PAIRTAG) ++ toLE 1 (s.get RST.STRAPS.PAIRSEN) ++ toLE 1 s.redState ++ toLE 2 (s.get RED.EPOCH.OWN) ++
    toLE 2 (s.get RED.SEENTOT.T) ++ toLE 2 form ++ toLE 2 yield ++ [0, 0]

/-- A pair-hello is due: every 256 ticks and at each change of the member's state (R356). -/
def State.helloDue (s : State) : Bool :=
  match s.red.helloSent with
  | none => true
  | some (k, st) => decide (k + 256 ≤ s.tick) || st != s.redState

/-- A pair-hello sent on the cross-link, or into every ring or trunk lane while that is DOWN (R356). -/
def State.helloSend (s : State) : State :=
  if !s.redRuns || !s.helloDue then s
  else
    let s := { s with red := { s.red with helloSent := some (s.tick, s.redState) } }
    let r := s.request opHello s.partner s.helloBody true
    let s := r.2.2
    let lanes := if s.laneUp s.crossLane then [s.crossLane]
      else if s.isHub then s.rings ++ [12, 13] else [2, 3, 4, 5, 6, 7]
    lanes.foldl (fun s l => s.sendOn l s.partner r.1) s

/-- A tick at least 16 ticks ahead that the senior names; which one the spec leaves open, so the distance is a free value (R357). -/
def State.nameForming (s : State) : State :=
  match s.red.formTick with
  | some _ => s
  | none =>
    let d := s.draw 15
    let k := d.2.tick + 16 + d.1
    let k := if k % 65536 = 0xFFFF then k + 1 else k
    { d.2 with red := { d.2.red with formTick := some k } }

/-- A member in FORMING takes its partner's pair-hello (R357), the rows of the table in order. -/
def State.formBy (s : State) (tag st seq : Nat) : State :=
  let mine := s.get CNV.PAIRTAG.PAIRTAG
  if tag ≠ mine ∨ tag = 0 ∨ mine = 0 then (s.enterState rsTagmis).raise (srcRED 5)
  else if st = rsPrimary ∨ st = rsStandby then s.enterJoining
  else if st = rsForming then
    (if s.senior then s.nameForming
     else if seq = 0xFFFF then s
     else { s with red := { s.red with formTick := match s.red.formTick with
              | some k => if k % 65536 = seq then some k else some (namedTick s.tick seq)
              | none => some (namedTick s.tick seq) } })
  else s

/-- An ISOLATED member whose partner's heartbeat has returned (R368): the partner's state as it is known decides. -/
def State.isolatedReturn (s : State) : State :=
  if s.redState ≠ rsIsolated ∨ s.red.partFailed = true then s
  else if s.flag RED.STAT.PSERVE then s.enterJoining
  else if s.red.partState = rsIsolated then
    let own := s.get RED.EPOCH.OWN
    let part := s.get RED.EPOCH.PARTNER
    (if part < own ∨ (part = own ∧ s.senior = true) then s.enterPrimary else s.enterJoining)
  else if s.red.partState = rsPrimary ∨ s.red.partState = rsStandby then s
  else s.enterJoining

/-- The items 1 and the delay lines that a transfer starts with (R375): both banks of every instantiated context, then its delay lines. -/
def State.transferHead (s : State) : List XferItem :=
  let progs := (List.range 128).filterMap (fun c => s.cnv.progs.find? (fun p => p.ctx == c))
  let banks := progs.map (fun p =>
    XferItem.banks p.ctx (s.ctx p.ctx).coef (s.get (LPE.CTX_STAT.ACTBANK p.ctx)) (s.flag (LPE.CTX_STAT.SWAPPEND p.ctx)))
  let lines := progs.flatMap (fun p =>
    let x := s.ctx p.ctx
    let bank := 256 * s.get (LPE.CTX_STAT.ACTBANK p.ctx)
    let base := 32768 * engineOf p.ctx
    let rcs := (p.descs.map descOf).filter (fun d => d.ty == 0x08)
    rcs.map (fun d =>
      let c (i : Nat) := SMap.get 0 x.coef (bank + (d.coef + i) % 256)
      let lo := c 6 % 32768
      let words := (List.range (2 * c 4 + 1)).map (fun i => ((lo + i) % 32768, SMap.get 0 s.lpe.delay (base + (lo + i) % 32768)))
      XferItem.delay p.ctx words))
  banks ++ lines

/-- The primary answers a JOINING partner's pair-hello with a transfer, one at a time (R374). -/
def State.transferServe (s : State) : State :=
  if s.redState = rsPrimary ∧ s.red.partState = rsJoining then
    (if s.red.serving && !s.red.sent3 then s
     else
       let s := s.transferHead.foldl (fun s i => s.emit (.xfer i)) s
       { s with red := { s.red with serving := true, served := [], sent3 := false } })
  else if s.red.serving then { s with red := { s.red with serving := false, served := [], sent3 := false } }
  else s

/-- A pair-hello taken (R355 to R357, R368, R369, R374). -/
def State.helloTake (s : State) (t : Txn) : State :=
  if !s.redRuns || t.src != s.partner || t.body.length != 16 then s
  else
    let tag := t.at 0 4
    let strap := t.at 4 1 % 2
    let st := t.at 5 1
    let seq := t.at 10 2
    let yseq := t.at 12 2
    let yield := if yseq = 0xFFFF then none else match s.red.partYield with
      | some k => if k % 65536 = yseq then some k else some (namedTick s.tick yseq)
      | none => some (namedTick s.tick yseq)
    let s := { s with red := { s.red with partState := st, partTag := tag, partStrap := strap, helloTick := some s.tick, partYield := yield } }
    let s := (s.set RED.EPOCH.PARTNER (t.at 6 2)).setFlag RED.STAT.PPRIMARY (st == rsPrimary)
    let s := if strap = s.get RST.STRAPS.PAIRSEN then (s.setFlag RED.STAT.SENIOR (s.member == 0)).raise (srcRED 6)
      else s.unlive (srcRED 6)
    let s := if s.redState = rsForming then s.formBy tag st seq
      else if s.redState = rsTagmis ∧ tag = s.get CNV.PAIRTAG.PAIRTAG ∧ tag ≠ 0 then
        { (s.enterState rsForming).unlive (srcRED 5) with red := { s.red with formTick := none, formingSince := s.tick } }
      else s.isolatedReturn
    s.transferServe

def State.hello (s : State) (n : Nat) (f : Frame) : State := s.notice n f opHello .group (fun t s => s.helloTake t)

/-- The Scree state of the state-transfer table cleared, and RESETST for every context (R357). -/
def State.zeroState (s : State) : State :=
  let s := s.cnv.progs.foldl (fun s p => s.resetst p.ctx) s
  let s := (s.set SCR.XSHARE.DELTA 0).set SCR.XIN.X 0
  { s with scr := { s.scr with held := [], signPos := true, segVals := [], segTick := [], shares := (0, []), shareNext := none }
           lpe := { s.lpe with val0 := 0 } }

/-- The tick named for forming (R357): zero state, PRIMARY with epoch 2 or STANDBY with epoch 1; in Run a hub blocks its segment and a central
withholds its references. -/
def State.pairForm (s : State) : State :=
  match s.red.formTick with
  | none => s
  | some k =>
    if !s.redRuns || s.redState != rsForming || decide (s.tick < k) then s
    else
      let s := s.zeroState
      let s := if s.senior then (s.enterState rsPrimary).set RED.EPOCH.OWN 2 else (s.enterState rsStandby).set RED.EPOCH.OWN 1
      let s := { s with red := { s.red with formTick := none } }
      let s := if !s.inRun then s
        else if s.isHub then s.armBlock hwOrigin 1
        else { s.cairn 0x04 hwOrigin RED.STAT.STATE.addr 0 1 with red := { s.red with withheld := true } }
      if s.isCentral && s.senior && s.member == 1 then s.armOwnDomain else s

/-- FORMWAIT × 256 ticks without a pair-hello (R357): the count rule with the partner's last epoch taken as 1. -/
def State.formWait (s : State) : State :=
  let since := s.red.helloTick.getD s.red.formingSince
  let since := if since < s.red.formingSince then s.red.formingSince else since
  if !s.redRuns || s.redState != rsForming || decide (s.tick < since + 256 * s.get RED.CFG.FORMWAIT) then s
  else
    let s := s.set RED.EPOCH.PARTNER 1
    if s.wins then
      (((s.enterState rsPrimary).set RED.EPOCH.OWN 2).armOwnDomain.inc RED.TAKEOVERS.COUNT).replayJournal
    else (s.enterState rsIsolated).set RED.EPOCH.OWN 0

/-! ## Heartbeats -/

/-- The partner's heartbeat of tick `k` arrives with byte `hb` and epoch (R360, R368). -/
def State.partnerBeat (s : State) (hb epoch : Nat) : State :=
  let act := hb.testBit 1
  let s := (s.setFlag RED.STAT.PSERVE act).set RED.EPOCH.PARTNER epoch
  let s := { s with red := { s.red with partFailed := false } }.unlive (srcRED 2)
  let own := s.get RED.EPOCH.OWN
  let s := if s.redState = rsPrimary ∧ act = true ∧ (own < epoch ∨ (own = epoch ∧ s.senior = false)) then s.enterState rsStandby else s
  s.isolatedReturn

def noteTick (l : List Nat) (k : Nat) : List Nat := (k :: l.filter (· != k)).take 8

/-- The partner's cross-link Order (R95, R110, R359, R360). -/
def State.crossOrderReceive (s : State) (f : Frame) : State :=
  let n := s.crossLane
  let r := s.rxFrame n f
  let s := r.2
  if !(r.1 && !s.isCell && decide (f.ftype = ftOrder) && f.field 1 0 2 == s.partner && s.redRuns) then s
  else
    match s.expectedTick f.seq with
    | none => s.seqError n
    | some k =>
      let s := s.set RED.SEEN.PARTNER (f.field 1 6 2)
      let s := { s with red := { s.red with xTicks := noteTick s.red.xTicks k, crossTick := some k, partDigest := some (k, f.field 3 0 8) }
                        scr := { s.scr with partnerViews := (k, f.field 2 0 3) } }
      (s.partnerBeat (f.field 1 4 1) (f.field 1 2 2)).compareDigests

/-- An Order of the partner on path P: a ring Order at a hub's ring lane, a trunk Order at a central's trunk lane (R360). -/
def State.pathOrder (s : State) (n : Nat) (f : Frame) : State :=
  let r := s.rxFrame n f
  let s := r.2
  if !(r.1 && decide (f.ftype = ftOrder) && f.field 1 0 2 == s.partner && s.redRuns) then s
  else
    match s.expectedTick f.seq with
    | none => s.seqError n
    | some k => { s with red := { s.red with pTicks := noteTick s.red.pTicks k } }.partnerBeat (f.field 1 4 1) (f.field 1 2 2)

/-- A trunk Tally passes a hub, and an entry of the partner carries its heartbeat on path P (R91, R360, R368). -/
def State.trunkTallyHub (s : State) (n : Nat) (f : Frame) : State :=
  let t := s.trunkTallyPass n f
  let taken := (s.rxFrame n f).1 && t.isHub && decide (f.ftype = ftTally) && t.redRuns && (t.expectedTick f.seq).isSome
  match (List.range 8).find? (fun i => taken && f.field (2 + 2 * i) 0 2 == t.partner) with
  | some i => t.partnerBeat (f.field (2 + 2 * i) 4 1) (f.field (2 + 2 * i) 2 2)
  | none => t

def State.ringOrderArrive (s : State) (n : Nat) (f : Frame) : State := if s.isRingLane n then s.pathOrder n f else s
def State.trunkOrderArrive (s : State) (n : Nat) (f : Frame) : State :=
  if s.isCentral && s.isTrunkLane n then s.pathOrder n f else s

/-- The count S of R365 at t_O, and the counting starts anew. -/
def State.countSeen (s : State) : State :=
  let rings := s.rings.foldl (fun a r => a + SMap.get 0 s.red.ringSeen r) 0
  let n := (if s.isHub then rings else 0) + s.red.addrs.length
  { s.set RED.SEEN.OWN (if n < 65536 then n else 65535) with red := { s.red with ringSeen := [], addrs := [] } }

/-- A path missed the heartbeat that the other carried (R361). -/
def State.pathMiss (s : State) (missed : Bool) (i : Nat) (c : Fld) : State :=
  if missed then (s.inc c).raise (srcRED i) else s.unlive (srcRED i)

/-- t_O of tick k + 1: the heartbeat of tick k on both paths (R360, R361), the device count (R365). -/
def State.heartbeatDeadline (s : State) : State :=
  if !s.redRuns || !s.tickEvents then s
  else
    let s := s.countSeen
    let k := s.tickAt s.offO - 1
    let x := s.red.xTicks.contains k
    let p := s.red.pTicks.contains k
    let s := (s.setFlag RED.STAT.XHB x).setFlag RED.STAT.PHB p
    let s := (s.pathMiss (!x && p) 0 RED.XMISS.COUNT).pathMiss (x && !p) 1 RED.PMISS.COUNT
    if x || p then s.set RED.STAT.HBMISS 0
    else
      let s := s.inc RED.STAT.HBMISS
      if s.get RED.STAT.HBMISS < s.get RED.CFG.K ∨ s.red.partFailed = true then s
      else if s.serves then
        ({ s with red := { s.red with partFailed := true } }.set RED.STAT.PSERVE 0 |>.raise (srcRED 2)).countRule
      else if s.redState = rsJoining then
        -- the primary failed during a transfer (R378)
        { s with red := { s.red with partFailed := true } }.enterState rsIsolated
      else s

/-! ## Yield -/

/-- RED.YIELD.ARM written (R369). -/
def State.yieldArm (s : State) : State :=
  let seq := s.get RED.YIELD.SEQ
  if s.redState = rsPrimary ∧ s.flag RED.STAT.PSERVE = true ∧ farEnough s.tick seq = true then
    { s.set RED.YIELD.ARMED 1 with red := { s.red with yieldTick := namedTick s.tick seq } }
  else s.stick RED.YIELD.LATE

/-- t_O of the tick named for a yield (R369, R378). -/
def State.yieldEffect (s : State) : State :=
  let k := s.tickAt s.offO
  if !s.redRuns then s
  else if s.redState = rsPrimary ∧ s.flag RED.YIELD.ARMED = true ∧ s.red.yieldTick ≤ k then
    let s := s.set RED.YIELD.ARMED 0
    if s.get RED.STAT.DIGCNT > 0 then s.stick RED.YIELD.LATE
    else (s.enterState rsStandby).inc RED.YIELDS.COUNT
  else
    match s.red.partYield with
    | none => s
    | some j =>
      if s.redState = rsStandby ∧ j ≤ k then
        let s := { s with red := { s.red with partYield := none } }
        if s.get RED.STAT.DIGCNT > 0 then s.stick RED.YIELD.LATE
        else ((s.enterPrimary).inc RED.TAKEOVERS.COUNT).inc RED.YIELDS.COUNT
      else s

/-! ## State transfer -/

/-- RED.CMD.JOIN written (R374, R376). -/
def State.joinCmd (s : State) : State :=
  if s.redState = rsJoining then
    let s := s.transferRestart
    { s.set RED.JOINSTAT.TRIES 0 with red := { s.red with joinAsked := true } }
  else s

/-- RED.CMD.RELEASE written (R357). -/
def State.releaseCmd (s : State) : State := if s.isCentral then { s with red := { s.red with withheld := false } } else s

/-- The lowest instantiated context whose item 2 is not complete; 127 when none is left (JOINSTAT.CTX). -/
def State.nextJoinCtx (s : State) : Nat :=
  ((List.range 128).find? (fun c => s.cnv.progs.any (fun p => p.ctx == c) && !SMap.get false s.red.admitted c)).getD 127

/-- An item of the transfer reaches the joiner (R375). A context that the joiner already runs takes no further commits. -/
def State.xferTake (s : State) (item : XferItem) : State :=
  if s.redState ≠ rsJoining ∨ s.red.joinAsked = false ∨ s.flag RED.JOINSTAT.SCRDONE = true then s
  else
    match item with
    | .banks c coef active swap =>
      let s := s.modCtx c (fun x => { x with coef := coef.foldl (fun m p => SMap.set 0 m p.1 p.2) [], startTick := none })
      let s := match s.runOf (engineOf c) with | some r => if r.ctx = c then s.endRun (engineOf c) c else s | none => s
      let s := ((s.set (LPE.CTX_STAT.QUEUED c) 0).set (LPE.CTX_STAT.ACTBANK c) active).setFlag (LPE.CTX_STAT.SWAPPEND c) swap
      { s with red := { s.red with admitted := SMap.set false s.red.admitted c false, tries := SMap.set 0 s.red.tries c 0 } }
    | .delay c words =>
      let mem := words.foldl (fun m p => SMap.set 0 m (32768 * engineOf c + p.1 % 32768) p.2) s.lpe.delay
      { s with lpe := { s.lpe with delay := mem } }
    | .commit c st slots =>
      if (s.ctx c).startTick.isSome then s
      else
        let put (l : List (Nat × Nat)) : SMap Nat := l.foldl (fun m p => SMap.set 0 m p.1 p.2) []
        let s := s.modCtx c (fun x => { x with stateW := put st, slots := put slots, fresh := false })
        let s := { s with red := { s.red with admitted := SMap.set false s.red.admitted c true } }
        s.set RED.JOINSTAT.CTX s.nextJoinCtx
    | .scree k held pos share xin u => { s with red := { s.red with items := .scree k held pos share xin u :: s.red.items, itemTick := some k } }
    | .refs k run hostin => { s with red := { s.red with items := .refs k run hostin :: s.red.items, itemTick := some k } }

/-- A state-transfer notice on lane `n` (R375, R471). -/
def State.xferNotice (s : State) (n : Nat) (f : Frame) (item : XferItem) : State :=
  s.notice n f opXfer .group (fun t s => if s.redRuns && t.src == s.partner then s.xferTake item else s)

/-- Items 3 and 4 in force. -/
def State.xferApply (s : State) : XferItem → State
  | .scree _ held pos share xin u =>
    let h := (List.range held.length).foldl (fun m r => SMap.set 0 m r (held.getD r 0)) ([] : SMap Nat)
    let v := u.foldl (fun m p => SMap.set 0 m (2 * p.1) p.2) s.scr.segVals
    let s := (s.set SCR.XSHARE.DELTA share).set SCR.XIN.X xin
    { s with scr := { s.scr with held := h, signPos := pos, segVals := v } }
  | .refs _ run hostin =>
    (List.range hostin.length).foldl (fun s i => s.set (LPE.HOSTIN.VALUE i) (hostin.getD i 0)) (s.set RED.REFSTAT.RUN run)
  | _ => s

/-- t_D of the tick that items 3 and 4 name (R375, R376): they take effect, and the joiner compares digests from then on. -/
def State.takeItems (s : State) : State :=
  match s.red.itemTick with
  | none => s
  | some k =>
    let whole := s.red.items.any (fun i => match i with | .scree .. => true | _ => false) &&
      s.red.items.any (fun i => match i with | .refs .. => true | _ => false)
    if s.redState = rsJoining ∧ whole = true ∧ k ≤ s.tickAt s.offD then
      let s := s.red.items.reverse.foldl State.xferApply s
      let s := { s with red := { s.red with items := [], itemTick := none } }
      ((s.set RED.JOINSTAT.SCRDONE 1).set RED.JOINSTAT.COMPARE 1).set RED.JOINSTAT.MATCH 0
    else s

/-- The primary sends a context's delay pushes and stored values after each of its commits (R375). -/
def State.commitServe (s : State) (e : Nat) : State :=
  match s.runOf e with
  | none => s.ctxCommit e
  | some r =>
    let due := s.commitDue e
    let s := s.ctxCommit e
    if !s.red.serving || !due then s
    else
      let x := s.ctx r.ctx
      let push := r.delay.map (fun p => (p.1 % 32768, p.2))
      let s := if push.isEmpty then s else s.emit (.xfer (.delay r.ctx push))
      let s := s.emit (.xfer (.commit r.ctx x.stateW x.slots))
      { s with red := { s.red with served := r.ctx :: s.red.served.filter (· != r.ctx) } }

/-- Once every instantiated context has committed, the primary captures items 3 and 4 at a decision and names the next tick (R375). -/
def State.serveScree (s : State) (k : Nat) : State :=
  if s.red.serving && !s.red.sent3 && s.cnv.progs.all (fun p => s.red.served.contains p.ctx) then
    let held := (List.range 12).map (fun r => SMap.get 0 s.scr.held r)
    let u := (s.armSegments (s.armOf s.segment)).map (fun j => (j, SMap.get 0 s.scr.segVals (2 * j)))
    let s := s.emit (.xfer (.scree (k + 1) held s.scr.signPos (s.get SCR.XSHARE.DELTA) (s.get SCR.XIN.X) u))
    let s := s.emit (.xfer (.refs (k + 1) (s.get RED.REFSTAT.RUN) ((List.range 32).map (fun i => s.get (LPE.HOSTIN.VALUE i)))))
    { s with red := { s.red with sent3 := true } }
  else s

/-- A start instant at a joiner whose context is not admitted counts as one of its 1024 runs (R375). -/
def State.startOrJoin (s : State) (c : Nat) : State :=
  let k := s.tickAt (2 * s.get (LPE.CTX_TIME.STARTOFF c))
  if s.redState = rsJoining ∧ s.red.joinAsked = true ∧ SMap.get false s.red.admitted c = false ∧ s.ctxDue c k = true then
    { s with red := { s.red with tries := SMap.set 0 s.red.tries c (SMap.get 0 s.red.tries c + 1) } }
  else s.ctxStart c

/-- Context `c` has not been admitted within 1024 of its runs (R375, R376). -/
def State.admissionTimeout (s : State) (c : Nat) : State :=
  if s.redState = rsJoining ∧ s.red.joinAsked = true ∧ SMap.get false s.red.admitted c = false ∧ 1024 ≤ SMap.get 0 s.red.tries c then
    let s := (s.inc RED.JOINSTAT.TRIES).transferRestart
    if s.get RED.JOINSTAT.TRIES ≥ 4 then { s.raise (srcRED 4) with red := { s.red with joinAsked := false } } else s
  else s

end Sys2Proof.Machine
end

