-- ==== Sys2Proof/Machine/Lanes.lean ====
section
/-!
DEFINITION. Machine/Lanes.lean: what comes over a lane beside the schedule (R75, R76, R495), Echo measurements of link delays (R100, R114 to
R116), and the schedule margin that they show (R34).
-/

namespace Sys2Proof.Machine

/-! ## Lane state -/

/-- Block lock acquired (R76): 64 blocks in a row have had a valid sync header. -/
def State.laneLock (s : State) (n : Nat) : State :=
  let bad := match (s.lane n).badHeads with
    | c :: _ => decide (s.time.cycles < c + 64 * s.blockCycles n)
    | [] => false
  if s.laneOn n && !bad then
    let s := if s.flag (LNK.STAT.LOCK n) then s else (s.set (LNK.STAT.LOCK n) 1).modLane n (fun l => { l with lockAt := s.time.cycles })
    s.laneTryUp n
  else s

/-- The IDLE block that this device sends on lane `n` (R75, R117, R118). -/
def State.ownIdle (s : State) (n : Nat) : IdleBlock :=
  { rxok := s.flag (LNK.STAT.LOCK n), beacon := s.flag (LNK.STAT.RATE n), inreset := s.forwarderOnly, wrap := s.flag (LNK.STAT.WRAP n),
    sender := s.address }

/-- Lane `n` fills the time between frames with IDLE blocks (R74); each one that the device receives there is answered by one of its own, as long
as the lane sends no frame, PRBS31 or nothing at all (DESIGN CHOICE, log entry 35). -/
def State.sendIdle (s : State) (n : Nat) : State :=
  if s.get (LNK.CTRL.MODE n) == 1 && !s.flag (LNK.CTRL.PRBS n) && !s.clk.stopped && !s.midFrame n then s.emit (.idle n (s.ownIdle n)) else s

/-- An IDLE block received (R75, R76): the lane is UP only while the last one reports RXOK = 1. -/
def State.idleFrame (s : State) (n : Nat) (b : IdleBlock) : State :=
  if !s.receives n then s
  else
    let s := (s.setFlag (LNK.STAT.PEERRX n) b.rxok).setFlag (LNK.STAT.PEERRST n) b.inreset
    let s := s.modLane n (fun l =>
      { l with peerBeacon := b.beacon, peerWrap := b.wrap, peerAddr := b.sender, idleBad := if b.rxok then 0 else l.idleBad + 1 })
    (if b.rxok then s.laneTryUp n else s.laneDown n false).sendIdle n

/-- The lane goes DOWN (R76): block lock lost, or 16 IDLE blocks in a row with RXOK = 0. -/
def State.laneGoesDown (s : State) (n : Nat) (lostLock : Bool) : State :=
  if lostLock then s.laneDown n true
  else if 16 ≤ (s.lane n).idleBad then s.laneDown n false
  else s

/-- LOSn takes a level (R495): 1 for 20 ns while enabled is the deserialiser's loss of signal. -/
def State.losLevel (s : State) (n : Nat) (high : Bool) : State :=
  let others := s.pin.losBalls % 2 ^ 16
  let balls := if others.testBit n = high then others else if high then others + 2 ^ n else others - 2 ^ n
  let s : State := { s with pin := { s.pin with losBalls := balls } }
  let s := if s.runs bPIN then s.set PIN.LOSSTAT.LEVEL balls else s
  let acts := high && s.getBit PIN.LOSEN.EN n
  let s := s.modLane n (fun l => { l with los := acts })
  if acts then s.laneDown n true else s

/-! ## Echo -/

/-- An Echo frame of this device (R100). -/
def State.echoFrame (s : State) (n kind eid : Nat) (b2 b3 b4 : List Byte) : Frame :=
  s.newFrame ftEcho (s.launchDir n) addrAll
    (toLE 1 kind ++ toLE 1 eid ++ toLE 2 s.address ++ zeroB 4 ++ (b2 ++ zeroB 8).take 8 ++ (b3 ++ zeroB 8).take 8 ++ (b4 ++ zeroB 8).take 8)

/-- A measurement of lane `n` starts (R114); the device at the other end of the link starts none. -/
def State.echoStart (s : State) (n : Nat) (first : Bool) : State :=
  if !s.initiates n || (s.lane n).echo.active then s
  else
    let s := s.modLane n (fun l => { l with echo := { l.echo with active := true, first := first, startTick := s.tick, requests := 0,
                                                                  waiting := false, results := [] } })
    s.set (LNK.ECHOCMD.BUSY n) 1

/-- Start without a command (R114): the first UP at the full rate, or a tick number that is a multiple of 65 536 with ECHOAUTO. -/
def State.echoAuto (s : State) (n : Nat) : State :=
  if s.laneUp n && !s.flag (LNK.STAT.RATE n) && !(s.lane n).upFull then
    (s.modLane n (fun l => { l with upFull := true })).echoStart n true
  else if s.tick % 65536 = 0 ∧ s.flag (LNK.CTRL.ECHOAUTO n) = true then s.echoStart n false
  else s

/-- A tick of a measurement (R115): a request when the previous exchange has ended; one whose response has not come ends here. At most one request
goes out in a tick. -/
def State.echoRequestSend (s : State) (n : Nat) : State :=
  let e := (s.lane n).echo
  if !e.active || decide (e.startTick + 32 ≤ s.tick && e.requests ≠ 0) || e.sentTick == s.tick + 1 then s
  else if e.waiting then s.modLane n (fun l => { l with echo := { l.echo with waiting := false } })
  else
    let first := e.requests == 0
    let eid := e.requests % 256
    let s := s.modLane n (fun l => { l with echo := { l.echo with waiting := true, eid := eid, sentTick := s.tick + 1,
                                                                  requests := l.echo.requests + 1,
                                                                  startTick := if first then s.tick else l.echo.startTick } })
    s.originate n (s.echoFrame n 0 eid (toLE 8 s.stamp) [] [])

/-- A request arrives (R100, R117): answered at once, in reset too. `age`: time since its SOF arrived, in 78.125 ps. -/
def State.echoRequest (s : State) (n : Nat) (f : Frame) (age : Nat) : State :=
  let r := s.rxFrame n f
  let s := r.2
  if r.1 && decide (f.ftype = ftEcho) && f.field 1 0 1 == 0 && !s.initiates n then
    let t2 := (s.stamp + 2 ^ 38 - age % 2 ^ 38) % 2 ^ 38
    s.originate n (s.echoFrame n 1 (f.field 1 1 1) (toLE 8 (f.field 2 0 8)) (toLE 8 t2) (toLE 8 s.stamp))
  else s

/-- The delay of a link known to a hub: link `j` of ring `r` (R34, R115). -/
def State.noteDelay (s : State) (r j d : Nat) : State :=
  { s with link := { s.link with delays := SMap.set 0 s.link.delays (128 * r + j) (d + 1) } }

/-- The delays of all links of ring `r`, when all are known. -/
def State.ringDelays (s : State) (r : Nat) : Option (List Nat) :=
  let n := s.get (ringLenFld r)
  let ds := (List.range (n + 1)).map (fun j => SMap.get 0 s.link.delays (128 * r + j))
  if ds.all (fun d => d != 0) then some (ds.map (· - 1)) else none

/-- Worst Tally arrival and worst Order arrival of a ring after the sample instant, in 78.125 ps (R33). -/
def State.worstTally (s : State) (ds : List Nat) : Nat := 64 * s.offT + sumL ds + 256 * (ds.length - 1) + 3584
def State.worstOrder (s : State) (ds : List Nat) : Nat :=
  let n := ds.length - 1
  (List.range n).foldl (fun w p =>
    let a := 64 * s.offO + sumL (ds.take (p + 1)) + 256 * p + 1280
    let b := 64 * s.offO + sumL (ds.drop (p + 1)) + 256 * (n - 1 - p) + 1280
    let x := if a < b then a else b
    if w < x then x else w) 0

/-- The evaluation of R34 over the rings whose delays are all known; none of them, no evaluation. -/
def State.checkMargin (s : State) : State :=
  if !s.isHub || !s.runs bSCR then s
  else
    let rs := s.rings.filterMap s.ringDelays
    if rs.isEmpty then s
    else s.margin (rs.any (fun ds => decide (64 * s.offD < s.worstTally ds) || decide (64 * s.offApply < s.worstOrder ds + 2560)))

/-- The mean of a completed measurement reported (R115). -/
def State.echoReport (s : State) (n d : Nat) : State :=
  let body := toLE 1 n ++ [0] ++ toLE 2 (s.get (LNK.ASYM.ASYM n)) ++ toLE 4 d
  if s.isCell then
    if s.unjoined then s
    else
      let hub := 0x7C00 + 2 * cellSegment s.address
      (s.sendNotice opEchorep hub body false).sendNotice opEchorep (hub + 1) body false
  else if s.isHub && s.isRingLane n then
    let s := s.noteDelay n (s.get (ringLenFld n)) d
    let r := s.request opEchorep s.partner body false
    (r.2.2.sendOn s.crossLane s.partner r.1).checkMargin
  else s

/-- A response arrives at the initiator (R115): one exchange; the eighth completes the measurement. -/
def State.echoResponse (s : State) (n : Nat) (f : Frame) (age : Nat) : State :=
  let r := s.rxFrame n f
  let s := r.2
  let e := (s.lane n).echo
  if r.1 && decide (f.ftype = ftEcho) && f.field 1 0 1 == 1 && e.active && e.waiting && f.field 1 1 1 == e.eid then
    let t4 := s.stamp + 2 ^ 38 - age % 2 ^ 38
    let x := seqDiff 32 t4 (f.field 2 0 8) - seqDiff 32 (f.field 4 0 8) (f.field 3 0 8)
    let rs := e.results ++ [x]
    if rs.length < 8 then s.modLane n (fun l => { l with echo := { l.echo with waiting := false, results := rs } })
    else
      let mean := ofSigned 32 (divRoundEven (rs.foldl (· + ·) 0) 16)
      let s := s.modLane n (fun l => { l with echo := {} })
      let s := (s.set (LNK.DELAY.DELAY n) mean).set (LNK.ECHOCMD.BUSY n) 0
      let s := s.originate n (s.echoFrame n 2 e.eid (toLE 4 mean ++ toLE 2 (s.get (LNK.ASYM.ASYM n))) [] [])
      (s.event 4 9 n).echoReport n mean
  else s

/-- A result arrives at the responder (R116). -/
def State.echoResult (s : State) (n : Nat) (f : Frame) : State :=
  let r := s.rxFrame n f
  let s := r.2
  if r.1 && decide (f.ftype = ftEcho) && f.field 1 0 1 == 2 && !s.initiates n then
    (s.set (LNK.DELAY.DELAY n) (f.field 2 0 4)).set (LNK.ASYM.ASYM n) (f.field 2 4 2)
  else s

/-- 32 ticks have passed since the first request (R115). -/
def State.echoAbandon (s : State) (n : Nat) : State :=
  let e := (s.lane n).echo
  if e.active && e.requests != 0 && decide (e.startTick + 32 ≤ s.tick) then
    let s := (s.modLane n (fun l => { l with echo := {} })).set (LNK.ECHOCMD.BUSY n) 0
    if e.first && s.laneUp n then s.echoStart n true else s
  else s

/-- An ECHOREP notice (R34, R115): from a cell of this segment for the link on its A side, from the partner for the last link of a ring. -/
def State.echorep (s : State) (n : Nat) (f : Frame) : State :=
  s.notice n f opEchorep .free (fun t s =>
    if !s.isHub || t.body.length != 8 then s
    else if t.src = s.partner then
      let r := t.at 0 1
      if r < 12 then (s.noteDelay r (s.get (ringLenFld r)) (t.at 4 4)).checkMargin else s
    else if isCellAddr t.src && cellSegment t.src == s.segment then
      (s.noteDelay (cellRing t.src) (cellPos t.src) (t.at 4 4)).checkMargin
    else s)

end Sys2Proof.Machine
end

