-- ==== Sys2Proof/Machine/Ether.lean ====
section
/-!
DEFINITION. Machine/Ether.lean: L15: frame counts and stamps (R72, R144, R321), sampled values (R313 to R316).
-/

namespace Sys2Proof.Machine

/-- A frame arrives on L15 (R72, R321): counted, and answered whether it may be used. -/
def State.ethRx (s : State) (h : EthHead) : Bool × State :=
  if !(s.runs bETH && s.flag ETH.CTRL.RXEN && decide (s.get (LNK.CTRL.MODE 15) ≥ 2)) || s.forwarderOnly then (false, s)
  else
    let s := s.inc ETH.RXFRM.COUNT
    if !h.fcsOk then (false, s.inc ETH.RXFCS.COUNT)
    else if h.len > 1522 then (false, s.inc ETH.RXLONG.COUNT)
    else (true, s)

/-- The link of L15 changes (R72, R321): no link while its lane is Off, 1000 Mbit/s in mode 1000BASE-X, and what the PHY indicates in SGMII;
auto-negotiation completes only where ANEN enables it. -/
def State.ethLink (s : State) (up : Bool) (speed : Nat) (andone : Bool) : State :=
  if !s.runs bETH then s
  else
    let mode := s.get (LNK.CTRL.MODE 15)
    let up := up && decide (2 ≤ mode)
    let speed := if mode = 2 then 2 else speed % 3
    let s := ((s.setFlag ETH.STAT.LINK up).set ETH.STAT.SPEED speed).setFlag ETH.STAT.ANDONE (andone && decide (2 ≤ mode) && s.flag (LNK.CTRL.ANEN 15))
    s.level (srcETH 8) (!up) id

/-- Local time, in 2⁻¹⁶ ns and to the 78.125 ps of a hardware stamp, when the SOF of a frame on L15 passed, `age` units of 78.125 ps ago (R144). -/
def State.ethStamp (s : State) (age : Nat) : Int := (s.stampFine : Int) - (age * 5120 : Nat)

/-! ## Sampled values -/

/-- Samples per second of stream `i` (R313). -/
def State.svRate (s : State) (i : Nat) : Nat := if s.flag (ETH.SV_CFG.RATE i) then 4800 else 4000

/-- The stream that a frame matches (R313). -/
def State.svMatch (s : State) (f : SvFrame) : Option Nat :=
  (List.range 8).find? (fun i => s.getBit ETH.SVCTL.SVEN i &&
    f.dstMac == s.get (ETH.SV_DSTLO.MAC i) + 2 ^ 32 * s.get (ETH.SV_DSTHI.MAC i) &&
    f.appid == s.get (ETH.SV_CFG.APPID i) && f.vid == s.get (ETH.SV_CFG.VID i) && f.idCrc == s.get (ETH.SV_IDCRC.CRC i))

/-- The checks of R314. -/
def State.svGood (s : State) (i : Nat) (f : SvFrame) : Bool :=
  f.wellFormed && f.chans.length == 8 && decide (f.smpCnt < s.svRate i) &&
    f.chans.all (fun c => (c.validity == 0 || (c.validity == 3 && s.flag (ETH.SV_CFG.QOK i))) &&
      (!c.test || s.flag ETH.SVCTL.ACCTEST)) &&
    (!s.flag (ETH.SV_CFG.NEEDSYNC i) || f.smpSynch == 2)

/-- A count as binary32, 1 mA or 10 mV each (R313). -/
def svValue (c : Nat) (v : Int) : Nat := fpOfRat fmt32 v (if c < 4 then 1000 else 100)

/-- Samples held of a stream: DLY spans at most 315 of them (R315). -/
def svDepth : Nat := 512

/-- An accepted sample is held under its number S · rate + SmpCnt (R315). -/
def State.svHold (s : State) (i : Nat) (f : SvFrame) (age : Nat) : State :=
  let rate := s.svRate i
  let second : Nat := 10 ^ 9 * 65536
  let sec := divRoundHalfUp (s.ethStamp age * rate - (f.smpCnt : Int) * second) (rate * second)
  let num := (sec * rate + f.smpCnt).toNat
  let vals := (List.range 8).map (fun c => match f.chans[c]? with | some x => svValue c x.value | none => 0)
  let old := (SMap.get [] s.eth.held i).filter (fun x => x.time != num)
  let newer := old.filter (fun x => decide (num < x.time))
  let older := old.filter (fun x => decide (x.time < num))
  let l := (newer ++ ⟨num, vals⟩ :: older).take svDepth
  let s := { s with eth := { s.eth with held := SMap.set [] s.eth.held i l } }
  let s := (s.set (ETH.SV_STAT.SMPCNT i) f.smpCnt).set (ETH.SV_STAT.SYNCH i) (f.smpSynch % 4)
  s.setBit ETH.SVSTAT.SYNCED i (f.smpSynch == 2)

/-- A sampled-value frame (R313, R314); simulated ones are discarded. -/
def State.svReceive (s : State) (h : EthHead) (f : SvFrame) (age : Nat) : State :=
  let r := s.ethRx h
  let s := r.2
  if !r.1 then s
  else
    match s.svMatch f with
    | none => s.inc ETH.RXNOMATCH.COUNT
    | some i => if f.simulated then s else if s.svGood i f then s.svHold i f age else s.inc (ETH.SV_BAD.COUNT i)

/-- VALID of a stream (R316). -/
def State.svSetValid (s : State) (i : Nat) (v : Bool) : State := (s.setBit ETH.SVSTAT.VALID i v).setFlag (ETH.SV_STAT.VALID i) v

/-- The interpolation of one stream at the sample instant of tick `k` (R315, R316). -/
def State.svLatchOne (s : State) (k i : Nat) : State :=
  let rate := s.svRate i
  -- t* in sample intervals, times 10^9
  let t : Int := ((k * s.tu * 5 : Nat) - (s.get (ETH.SV_DLY.US i) : Int) * 1000) * rate
  let l := SMap.get [] s.eth.held i
  let at' (x : SvSample) : Int := (x.time : Int) * 10 ^ 9
  let a := l.find? (fun x => decide (at' x ≤ t))
  let b := l.reverse.find? (fun x => decide (t < at' x))
  match a, b with
  | some a, some b =>
    let q := f32div (fpOfRat fmt32 (t - at' a) rate) (fpOfRat fmt32 (at' b - at' a) rate)
    let s := (List.range 8).foldl (fun s c =>
      let va := a.vals.getD c 0
      let vb := b.vals.getD c 0
      s.set (ETH.SV_CH.VALUE i c) (f32add va (f32mul (f32sub vb va) q))) s
    let s := { s with eth := { s.eth with run := SMap.set 0 s.eth.run i 0 } }
    (s.svSetValid i true).unlive (srcETH i)
  | _, _ =>
    let s := s.inc (ETH.SV_GAP.COUNT i)
    { s with eth := { s.eth with run := SMap.set 0 s.eth.run i (SMap.get 0 s.eth.run i + 1) } }

/-- Every subscribed stream at the sample instant of tick `k`. -/
def State.svLatch (s : State) (k : Nat) : State :=
  if !s.runs bETH then s
  else (List.range 8).foldl (fun s i => if s.getBit ETH.SVCTL.SVEN i then s.svLatchOne k i else s) s

/-- Sample instants covering 4 sample intervals have passed without a bracketing pair (R316). -/
def State.svLost (s : State) (i : Nat) : State :=
  if s.runs bETH && s.getBit ETH.SVCTL.SVEN i && decide (4 * 10 ^ 9 ≤ SMap.get 0 s.eth.run i * s.tu * 5 * s.svRate i) &&
      !s.flag (srcETH i).live then
    let s := (List.range 8).foldl (fun s c => s.set (ETH.SV_CH.VALUE i c) f32nan) s
    (s.svSetValid i false).raise (srcETH i)
  else s

end Sys2Proof.Machine
end

