-- ==== Sys2Proof/Machine/Clocks.lean ====
section
/-!
DEFINITION. Machine/Clocks.lean: the root PLL and its reference, holdover, clock loss and return (R382 to R390), rate switches and unwrapping
(R77, R112), the frequency meter and gates (R391, R392), power transitions (R396 to R398).
-/

namespace Sys2Proof.Machine

/-! ## The reference -/

/-- The lane that CLKM names (R382). -/
def clkmLane (c : Nat) : Nat := [0, 1, 12, 13].getD c 0

/-- The lock delay in cycles of 5 ns (R383). -/
def lockDelay (c : Nat) : Nat := [10000, 40000, 200000, 1000000].getD c 0

/-- Holdover ends (R385): HOLDTIME takes its length in µs. -/
def State.endHoldover (s : State) : State :=
  if s.flag CLK.STAT.HOLDOVER then
    let us := (s.time.cycles - s.clk.holdStart) * 5 / 1000
    let s := (s.set CLK.STAT.HOLDOVER 0).set CLK.HOLDTIME.US (if us < 2 ^ 32 then us else 2 ^ 32 - 1)
    { s.unlive (srcCLK 0) with clk := { s.clk with rateHold := false } }
  else s

/-- The root locks to lane `n`. While CLKSAFE lasts, one lock delay follows before the safe state ends (R390). -/
def State.rootLock (s : State) (n : Nat) : State :=
  let s := ((s.set CLK.STAT.REF n).set CLK.STAT.LOCKED 1).endHoldover
  { s with clk := { s.clk with stopped := false, relockAt := if s.flag CLK.STAT.SAFE then some s.time.cycles else none } }

/-- A switch to lane `n` requested (R385). -/
def State.switchTo (s : State) (n : Nat) (service : Bool) : State :=
  if s.flag (LNK.STAT.READY n) then { s with clk := { s.clk with switching := some (n, service) } }.unlive (srcCLK 2)
  else (s.inc CLK.REFUSALS.COUNT).raise (srcCLK 2)

/-- READY of a lane changes (R383): it rises only on a lane that has held block lock for the lock delay. The root that has no reference yet locks to its CLKM lane (R382); in holdover a listed lane is tried
again (R386). -/
def State.laneReady (s : State) (n : Nat) (ready : Bool) : State :=
  let settled := s.flag (LNK.STAT.LOCK n) && decide ((s.lane n).lockAt + lockDelay (s.get CLK.STAT.LOCKDLY) ≤ s.time.cycles)
  let s := s.setFlag (LNK.STAT.READY n) (ready && settled)
  let first := !s.flag CLK.STAT.LOCKED && !s.flag CLK.STAT.HOLDOVER && !s.flag CLK.STAT.SAFE &&
    n == clkmLane (s.get CLK.STAT.CLKM) && s.flag (LNK.STAT.READY n)
  if first then s.rootLock n else s.autoSwitch

/-- CLK.SRCSEL.GO written (R385, R387): a remote write that names L1 in a cell or L13 in a hub is that of the ring clock service. -/
def State.srcselGo (s : State) (o : Origin) : State :=
  let n := s.get CLK.SRCSEL.LANE
  let service := o.agent == 7 && ((s.isCell && n == 1) || (s.isHub && n == 13))
  let s := if service then { s with clk := { s.clk with service := some n } } else s
  s.switchTo n service

/-- A switch completes (R385). -/
def State.switchDone (s : State) : State :=
  match s.clk.switching with
  | none => s
  | some (n, service) =>
    let s := { s with clk := { s.clk with switching := none } }
    let s := (s.rootLock n).inc CLK.SWITCHES.COUNT
    if service then s.set CLK.STAT.REVERSED 1 else s

/-- Block lock regained on the reference lane after a rate switch: the root relocks at once (R388). -/
def State.rateRelock (s : State) (n : Nat) : State :=
  if s.clk.rateHold && n == s.get CLK.STAT.REF && s.flag (LNK.STAT.LOCK n) then s.rootLock n else s

/-! ## Clock loss and return -/

/-- CLKSAFE (R389): safe state, ALIGNED cleared, the power state kept. -/
def State.clockSafe (s : State) : State :=
  if s.flag CLK.STAT.SAFE then s
  else
    let s := ((s.set CLK.STAT.SAFE 1).set TB.STAT.ALIGNED 0).inc CLK.SAFEENTRY.COUNT
    (((s.raise (srcCLK 1)).raise (srcSAF 9))).enterSafe 0

/-- Holdover runs out (R389), after 120 µs at the earliest (the table of interfaces gives the minimum); a switch whose target was READY in this cycle is made instead (R400). -/
def State.holdoverExpire (s : State) : State :=
  if s.flag CLK.STAT.HOLDOVER && s.clk.switching.isNone && decide (s.clk.holdStart + 24000 ≤ s.time.cycles) then s.clockSafe else s

/-- The clockless detector finds the root stopped (R389). -/
def State.clockStop (s : State) : State :=
  { s.set CLK.STAT.LOCKED 0 with clk := { s.clk with stopped := true } }.clockSafe

/-- The clock returns (R390): the CLKM lane, or the lane of a ring clock service write, is READY and the root locks to it; one lock delay
later PWM and SAF are block-reset and CLKSAFE ends. -/
def State.clockReturn (s : State) : State :=
  if !s.flag CLK.STAT.LOCKED then
    let lanes := clkmLane (s.get CLK.STAT.CLKM) :: (match s.clk.service with | some n => [n] | none => [])
    match lanes.find? (fun n => s.flag (LNK.STAT.READY n)) with
    | some n => s.rootLock n
    | none => s
  else
    match s.clk.relockAt with
    | none => s
    | some c =>
      if s.flag CLK.STAT.SAFE ∧ c + lockDelay (s.get CLK.STAT.LOCKDLY) ≤ s.time.cycles then
        let s := { s with clk := { s.clk with relockAt := none } }
        let s := ((s.set CLK.STAT.SAFE 0).unlive (srcCLK 1)).unlive (srcSAF 9)
        let s := { s with saf := { s.saf with safe := s.saf.safe - (if s.saf.safe.testBit 0 then 1 else 0) } }
        let s := s.joinReset 1 false (2 ^ bPWM + 2 ^ bSAF)
        -- as after a halt, only an Order accepted from now on ends Blocked (R203)
        { s with pwm := { s.pwm with waitOrder := true, releaseTick := none } }
      else s

/-! ## Rate and unwrapping -/

/-- The rate of lane `n` changes (R77): it loses block lock; a write of the rate it has leaves it undisturbed (R120). -/
def State.changeRate (s : State) (n target : Nat) : State :=
  if s.get (LNK.STAT.RATE n) = target then s
  else
    let s := if n = s.get CLK.STAT.REF ∧ s.flag CLK.STAT.LOCKED = true then
        { s.holdover with clk := { s.holdover.clk with rateHold := true } }
      else s
    (s.set (LNK.STAT.RATE n) target).laneDown n true

/-- RATEAT is reached (R77): a cell applies the command of its L0 window to both its lanes. -/
def State.rateSwitch (s : State) (n : Nat) : State :=
  if s.flag (LNK.RATECMD.ARMED n) && decide (0 ≤ seqDiff 32 s.short (s.get (LNK.RATEAT.AT n))) then
    let t := (s.lane n).rateTarget
    let s := (s.set (LNK.RATECMD.ARMED n) 0).changeRate n t
    if s.isCell && n == 0 then s.changeRate 1 t else s
  else s

/-- The tick that UNWRAP of lane `n` names (R112, R387): wrapping stops and a reversed device switches its reference back. -/
def State.unwrapEffect (s : State) (n : Nat) : State :=
  if s.flag (LNK.UNWRAP.ARMED n) && decide ((s.lane n).unwrapTick ≤ s.tick) then
    let s := (s.set (LNK.UNWRAP.ARMED n) 0).set (LNK.STAT.WRAP n) 0
    let s := if s.isCell && n == 0 then s.set (LNK.STAT.WRAP 1) 0
      else if s.isHub && n == 12 then s.set (LNK.STAT.WRAP 13) 0 else s
    let s := { s with clk := { s.clk with broken := s.clk.broken - (if s.clk.broken.testBit n then 2 ^ n else 0) } }
    let home := if s.isCell then 0 else 12
    if s.flag CLK.STAT.REVERSED && n == home then
      let t := s.switchTo home false
      if t.clk.switching.isSome then t.set CLK.STAT.REVERSED 0 else t
    else s
  else s

/-- The ring clock service (R387): member B sends the SRCSEL write from its own end into ring `r` that entered BROKEN, central B into a
trunk ring; no device relays it. -/
def State.ringClockService (s : State) (r : Nat) : State :=
  let lane := if s.isHub then ringLane r else r + 2
  let due := if s.isHub then s.cnv.ringEn.testBit r && s.scr.decision.modes.getD r 3 == 1 else
    s.isCentral && decide (r < 6) && (let k := SMap.get 0 s.scr.trunkWrap (r + 2); decide (k ≠ 0) && decide (s.tick < k + 2))
  if s.member == 1 && due && !s.clk.broken.testBit lane && !s.forwarderOnly then
    let s := { s with clk := { s.clk with broken := s.clk.broken + 2 ^ lane } }
    let w := if s.isHub then 0x11 else 0x1D
    let q := s.request opWrite addrAll (toLE 4 CLK.SRCSEL.LANE.addr ++ toLE 2 1 ++ [0, 0] ++ toLE 4 w) true
    q.2.2.sendOn lane addrAll q.1
  else s

/-! ## Frequency meter and gates -/

def State.meterStart (s : State) : State := s.set CLK.FMCFG.BUSY 1

/-- Root cycles of one edge of an internal source of the meter; 0 while it does not run (R391, R380, R381). -/
def State.meterDiv (s : State) (src : Nat) : Nat :=
  let sdm (c : Nat) := if !s.runs bSDM then 0 else if c = 1 then 120 else if c = 2 then 60 else if c = 3 then 48 else 0
  if s.clk.stopped then 0
  else match src with
  | 0x10 => 12
  | 0x11 => 6
  | 0x12 => 3
  | 0x13 => s.get CLK.DIV.SCDIV
  | 0x14 => s.get CLK.DIV.BUSDIV
  | 0x15 => s.get CLK.DIV.PERDIV
  | 0x16 => sdm (s.get SDM.CLKCFG.CK0)
  | 0x17 => sdm (s.get SDM.CLKCFG.CK1)
  | 0x18 => 24
  | _ => 0

/-- A source of the meter runs: a lane while it recovers a clock, an internal source while it is on (R391). -/
def State.meterRuns (s : State) (src : Nat) : Bool :=
  if src < 16 then s.flag (LNK.STAT.LOCK src) else s.meterDiv src != 0

/-- What the meter can count: 0 of a source that does not run; of two internal sources their exact ratio, to ±1; of a lane what comes (R391). -/
def State.meterCount (s : State) (count : Nat) : Nat :=
  let m := s.get CLK.FMCFG.MEAS
  let r := s.get CLK.FMCFG.REF
  if !s.meterRuns m then 0
  else if m < 16 ∨ r < 16 then count
  else
    let exact := s.get CLK.FMGATE.CYCLES * s.meterDiv r / s.meterDiv m
    if count + 1 < exact then exact - 1 else if exact + 1 < count then exact + 1 else count

/-- The meter completes; `count`: the edges that it finds (R391). A reference that does not run never completes it. -/
def State.meterDone (s : State) (count : Nat) : State :=
  if s.flag CLK.FMCFG.BUSY && s.meterRuns (s.get CLK.FMCFG.REF) then
    let count := s.meterCount count
    let s := (s.set CLK.FMCFG.BUSY 0).stick CLK.FMCFG.DONE
    let s := s.set CLK.FMCOUNT.COUNT (if count < 2 ^ 32 then count else 2 ^ 32 - 1)
    if count ≥ 2 ^ 32 - 1 then s.raise (srcCLK 4) else s.unlive (srcCLK 4)
  else s

/-- CLK.GATE takes `v` (R392): only the bits of instantiated blocks that are not fixed; `busy` names the blocks whose port is still busy
after 256 cycles. -/
def State.gateWrite (s : State) (old v busy : Nat) : State :=
  let usable (i : Nat) := s.getBit CNV.INST.INST i && !fixedBlocks.testBit i
  let now := maskOf (fun i => if usable i then v.testBit i else old.testBit i) 23
  let aborts := (List.range 23).filter (fun i => old.testBit i && !now.testBit i && busy.testBit i)
  let s := (s.set CLK.GATE.RUN now).enables
  if aborts.isEmpty then s.unlive (srcCLK 3) else (s.add CLK.ABORTS.COUNT aborts.length).raise (srcCLK 3)

/-! ## Power -/

/-- A transition refused (R398). -/
def State.pwrRefuse (s : State) (code : Nat) : State :=
  ((s.set PWR.STAT.REFCODE code).inc PWR.REFUSED.COUNT).raise (srcPWR 0)

/-- The refusal code of a transition to `target`, 0 when it is made (R398). -/
def State.pwrCode (s : State) (target : Nat) : Nat :=
  let p := s.power
  if s.flag PWR.STAT.INTRANS then 5
  else if p = 1 ∧ target = 0 then (if !s.active then 3 else if !s.flag TB.STAT.ALIGNED then 4 else 0)
  else if p = 0 ∧ target = 1 then 0
  else if p = 1 ∧ target = 2 then (if s.usedLanes.all (fun n => s.flag (LNK.STAT.RATE n)) then 0 else 2)
  else if p = 2 ∧ target = 1 then 0
  else if (p = 1 ∨ p = 2) ∧ target = 3 then 0
  else 1

/-- A power transition made or refused now (R398); the enables open 1 µs after Run; in Bivouac and Struck the time base stops (R137). -/
def State.powerTransition (s : State) (target : Nat) : State :=
  let code := s.pwrCode target
  if code ≠ 0 then s.pwrRefuse code
  else
    let from_ := s.power
    let s := s.unlive (srcPWR 0)
    let s : State := if 2 ≤ target then { s.set TB.STAT.ALIGNED 0 with time := { s.time with slew := 0 } } else s
    let begun (s : State) : State :=
      { s.set PWR.STAT.INTRANS 1 with pwr := { s.pwr with trans := some (target, s.time.cycles) } }
    if from_ = 2 ∧ target = 1 then begun (s.assertReset 6 2 0)
    else
      let s := begun (s.set PWR.STAT.STATE target)
      let s := { s with saf := { s.saf with openAt := if target = 1 then some (s.time.cycles + 200) else none } }
      if target = 0 then s.enables
      else if target = 1 then
        let s := { s with pwm := { s.pwm with waitOrder := true, releaseTick := none } }
        let s := if s.saf.bypassed then s else s.takeOff 0 s.time64
        s.dropRuns.enables
      else if target = 2 then s.enables
      else
        let s := (List.range 16).foldl (fun s n => s.laneDown n true) (s.set CLK.STAT.LOCKED 0)
        { s.enables with sram := [], cap := [] }

/-- PWR.CMD.ARM written (R397). In Run with ALIGNED = 0 it acts on receipt as in Idle. -/
def State.pwrArm (s : State) : State :=
  if s.power ≤ 1 ∧ s.flag TB.STAT.ALIGNED = true then
    let seq := s.get PWR.CMD.SEQ
    if farEnough s.tick seq then { s.set PWR.CMD.ARMED 1 with pwr := { s.pwr with tick := namedTick s.tick seq } }
    else s.stick PWR.CMD.LATE
  else if s.power = 3 then s
  else s.powerTransition (s.get PWR.CMD.TARGET)

/-- The named tick of an armed transition (R397). -/
def State.powerInstant (s : State) : State :=
  if s.flag PWR.CMD.ARMED && decide (s.pwr.tick ≤ s.tick) then (s.set PWR.CMD.ARMED 0).powerTransition (s.get PWR.CMD.TARGET) else s

/-- 1 µs after Run the enables open (R398). -/
def State.openAfterRun (s : State) : State :=
  match s.saf.openAt with
  | some c => if c ≤ s.time.cycles then ({ s with saf := { s.saf with openAt := none } } : State).enables else s
  | none => s

/-- The transition in progress completes (R398). -/
def State.powerDone (s : State) : State :=
  match s.pwr.trans with
  | none => s
  | some (_, c) =>
    let s := { s with pwr := { s.pwr with trans := none } }
    let us := (s.time.cycles - c) * 5 / 1000
    ((s.set PWR.STAT.INTRANS 0).set PWR.LASTDUR.US (if us < 2 ^ 32 then us else 2 ^ 32 - 1)).inc PWR.TRANSITIONS.COUNT

end Sys2Proof.Machine
end

