-- ==== Sys2Proof/Machine/Faults.lean ====
section
/-!
DEFINITION. Machine/Faults.lean: the checkers of SYS (R430 to R439): SEC-DED memory and its scrubbers, parity of critical registers,
injection; traps held pending (R427).
-/

namespace Sys2Proof.Machine

/-! ## Scrubbers -/

/-- The scrub pointer of a memory and its words. -/
def State.scrubPtr (s : State) (mem : Nat) : Nat :=
  if mem = 0 then s.sys.scrubSys else if mem = 1 then s.sys.scrubCap else SMap.get 0 s.sys.scrubEng (mem - 2)
def scrubWords (mem : Nat) : Nat := if mem < 2 then 0x80000 else 0x8000

def State.setScrubPtr (s : State) (mem p : Nat) : State :=
  if mem = 0 then { s with sys := { s.sys with scrubSys := p } }
  else if mem = 1 then { s with sys := { s.sys with scrubCap := p } }
  else { s with sys := { s.sys with scrubEng := SMap.set 0 s.sys.scrubEng (mem - 2) p } }

def State.passCe (s : State) (mem : Nat) : Nat :=
  if mem = 0 then s.sys.ceSys else if mem = 1 then s.sys.ceCap else SMap.get 0 s.sys.ceEng (mem - 2)
def State.setPassCe (s : State) (mem n : Nat) : State :=
  if mem = 0 then { s with sys := { s.sys with ceSys := n } }
  else if mem = 1 then { s with sys := { s.sys with ceCap := n } }
  else { s with sys := { s.sys with ceEng := SMap.set 0 s.sys.ceEng (mem - 2) n } }

/-- The scrubber of a memory runs (R432): SRAM in Run and Idle; an engine's own memory while the engine runs no context. -/
def State.scrubs (s : State) (mem : Nat) : Bool :=
  decide (s.power ≤ 1) && decide (mem < 6) &&
    (if mem < 2 then s.flag SYS.MEMCFG.SCRUBEN else s.flag SYS.MEMCFG.ENGSCRUB && !s.getBit LPE.STAT.BUSY (mem - 2))

/-- `n` system-bus cycles have passed since cycle `last` - 1 of `TimeSt.cycles` (R381); 0: there was none. -/
def State.busCyclesGone (s : State) (last n : Nat) : Bool :=
  last == 0 || decide (n * s.get CLK.DIV.BUSDIV ≤ 6 * (s.time.cycles + 1 - last) + 5)

/-- The scrubber of a memory is due: every INTERVAL bus cycles, an engine's whenever the engine is free (R432). -/
def State.scrubDue (s : State) (mem : Nat) : Bool :=
  decide (2 ≤ mem) || s.busCyclesGone (SMap.get 0 s.sys.scrubAt mem) (s.get SYS.MEMCFG.INTERVAL)

/-- The scrubber reads its next word (R432); `struck`: bits of that word that have flipped in truth since it was written. -/
def State.scrubRead (s : State) (mem struck : Nat) : State :=
  if !s.scrubs mem || !s.scrubDue mem then s
  else
    let s := { s with sys := { s.sys with scrubAt := SMap.set 0 s.sys.scrubAt mem (s.time.cycles + 1) } }
    let w := s.scrubPtr mem
    let key := markKey mem w
    let m := SMap.get (⟨0, 0⟩ : EccMark) (s.marks mem) key
    let s := if struck = 0 then s else s.setMarks mem (SMap.set ⟨0, 0⟩ (s.marks mem) key ⟨m.inj, m.real + struck⟩)
    let n := m.inj + m.real + struck
    let s := if n = 0 then (s.unlive (srcSYS 0)).unlive (srcSYS 1) else s
    let r := s.checkWord mem w 1 false
    -- the error was corrected, so it was not lost
    let s := if n = 1 && (SMap.get (⟨0, 0⟩ : EccMark) (r.2.marks mem) key) == ⟨0, 0⟩ then r.2.setPassCe mem (r.2.passCe mem + 1) else r.2
    let s : State := if w + 1 = scrubWords mem then { s with sys := { s.sys with passOver := s.sys.passOver ||| 2 ^ mem } } else s
    s.setScrubPtr mem ((w + 1) % scrubWords mem)

/-- A pass ends (R432): CEHIGH when it found more CE than CETHRESH. -/
def State.scrubPassEnd (s : State) (mem : Nat) : State :=
  if !s.scrubs mem || !s.sys.passOver.testBit mem then s
  else
    let s : State := { s with sys := { s.sys with passOver := s.sys.passOver - 2 ^ mem } }
    let high := decide (s.get SYS.CETHRESH.CE < s.passCe mem)
    let s := if mem = 0 then s.wrap SYS.SCRUBPASS.SYSRAM else if mem = 1 then s.wrap SYS.SCRUBPASS.CAPRAM else s
    let s := s.setPassCe mem 0
    if high then s.raise (srcSYS 2) else s.unlive (srcSYS 2)

/-! ## Parity -/

/-- The register word is parity-protected (R433): it holds an RWL field, or the list names it. -/
def criticalReg (a : Nat) : Bool :=
  (fieldsAt a).any (fun f => f.access == .rwl) ||
    (decide ((LNK.CTRL.MODE 0).addr ≤ a) && decide (a ≤ (LNK.CTRL.MODE 15).addr) && a % 0x1000 == 0) ||
    [TB.INCR_LO.FRAC.addr, TB.INCR_HI.NS.addr, TB.TICKLEN.TU.addr, TB.SCHED0.TT.addr, TB.SCHED1.TO.addr, CLK.DIV.SCDIV.addr,
      CLK.GATE.RUN.addr, 0x40070040, CNV.INST.INST.addr, CNV.ROLE.ROLE.addr].contains a

/-- A write of register `a` stores its parity anew; an armed injection that names it stores it inverted (R436). -/
def State.parityStored (s : State) (a : Nat) : State :=
  let hit := s.flag SYS.INJCTL.ARMED && s.get SYS.INJCTL.TARGET == 6 && s.get SYS.INJADDR.ADDR == a && criticalReg a
  let s := if hit then s.set SYS.INJCTL.ARMED 0 else s
  let p := SMap.set 0 s.sys.parity a (bit hit)
  { s with sys := { s.sys with parity := p } }

/-- The parity of one word checked (R433, R434, R437, R439); `many`: the command checks other words too. An injected and a real fault together leave the parity right, which the injection
alone would not: it is a real error. -/
def State.checkParity (s : State) (a : Nat) (many : Bool) : State :=
  let p := SMap.get 0 s.sys.parity a
  let r := if p = 0 then (true, s) else s.errorLost 3 (s.get CLK.DIV.BUSDIV) many
  if r.1 then r.2
  else
    let s := r.2
    let s := s.injectionSeen (p == 1) (p == 3)
    (((s.set SYS.PARADDR.ADDR a).inc SYS.PARCNT.COUNT).raise (srcSYS 3)).critReset

/-- The background sweep, every 1024 system-bus cycles (R433); `struck`: words one bit of which has flipped in truth. -/
def State.paritySweep (s : State) (struck : List Nat) : State :=
  if s.power > 1 || !s.busCyclesGone s.sys.sweepAt 1024 then s
  else
    let s : State := { s with sys := { s.sys with sweepAt := s.time.cycles + 1 } }
    let p := struck.foldl (fun m a =>
      if criticalReg a then (let v := SMap.get 0 m a; SMap.set 0 m a (if v / 2 = 0 then v + 2 else v - 2)) else m) s.sys.parity
    let s := { s with sys := { s.sys with parity := p } }
    if p.isEmpty then s.unlive (srcSYS 3) else p.foldl (fun s e => s.checkParity e.1 true) s

/-! ## Injection -/

/-- SYS.INJCTL.ARM written (R436). -/
def State.injectArm (s : State) : State :=
  let t := s.get SYS.INJCTL.TARGET
  if s.flag SYS.INJCTL.ARMED || (decide (2 ≤ t) && decide (t ≤ 6) && s.inRun) then s.stick SYS.INJCTL.DENIED
  else s.set SYS.INJCTL.ARMED 1

/-! ## Traps -/

/-- A core returns from its trap handler and takes the trap held pending at it, when there is one (R427). -/
def State.trapReturn (s : State) (core : Nat) : State :=
  if !s.sys.inTrap.testBit core then s
  else if s.sys.trapPend.testBit core then { s with sys := { s.sys with trapPend := s.sys.trapPend - 2 ^ core } }
  else { s with sys := { s.sys with inTrap := s.sys.inTrap - 2 ^ core } }

end Sys2Proof.Machine
end

