-- ==== Sys2Proof/Machine/Geode.lean ====
section
/-!
DEFINITION. Machine/Geode.lean: the waveform recorder (R322 to R351): slots, base rows, channels, streams and reductions, triggers, Marks, records,
measurements and masks. Instants are in 78.125 ps units of local time.
-/

namespace Sys2Proof.Machine

/-! ## Base instants (R324, R325) -/

/-- VCAP conversions per tick. -/
def State.convPerTick (s : State) : Nat := s.tu / 40

/-- The row that contains an instant, numbered from the start of the time base. -/
def State.rowOf (s : State) (base m t : Nat) : Nat :=
  let tt := 64 * s.tu
  if base = 0 then t / 32
  else if base = 1 then
    let j := t % tt / 2560
    t / tt * s.convPerTick + (if j < s.convPerTick then j else s.convPerTick - 1)
  else if base = 2 then t / tt
  else t / tt / m

/-- The row time of row `o`. -/
def State.rowTime (s : State) (base m o : Nat) : Nat :=
  if base = 0 then o * 32
  else if base = 1 then 64 * (o / s.convPerTick * s.tu + o % s.convPerTick * 40)
  else if base = 2 then 64 * (o * s.tu)
  else 64 * (o * m * s.tu)

/-- The row that is latched in the present cycle, when one is (R324, R325); `half`: the second 2.5 ns of the cycle, in FAST. -/
def State.latchedRow (s : State) (base m : Nat) (half : Bool) : Option Nat :=
  if base = 0 then some (2 * s.now5 + bit half)
  else if base = 1 then
    if s.now5 < 20 then none
    else
      let t := s.now5 - 20
      let j := t % s.tu / 40
      if t % s.tu % 40 = 0 ∧ j < s.convPerTick then some (t / s.tu * s.convPerTick + j) else none
  else
    let lag := if s.tu < s.offApply + 20 then s.offApply + 20 else s.tu
    if s.now5 < lag ∨ (s.now5 - lag) % s.tu ≠ 0 then none
    else
      let k := (s.now5 - lag) / s.tu
      if base = 2 then some k else if k % m = 0 then some (k / m) else none

/-! ## Channels (R326, R327) -/

/-- Classes of sources. -/
inductive SrcClass where
  | ucode | scode | real | bits | wide
  deriving DecidableEq, Repr

def srcClass (src : Nat) : Option SrcClass :=
  if src = 0x01 ∨ src = 0x13 then some .ucode
  else if src = 0x02 ∨ src = 0x04 ∨ src = 0x12 then some .scode
  else if [0x03, 0x05, 0x06, 0x07, 0x0A, 0x20, 0x21, 0x22].contains src then some .real
  else if [0x08, 0x09, 0x10, 0x11, 0x14].contains src then some .bits
  else if src = 0x15 ∨ src = 0x16 then some .wide
  else none

def srcWords (src : Nat) : Nat := if src = 0x15 then 32 else if src = 0x16 then 4 else 1

/-- The source is available in this device and base (R326). -/
def State.srcOk (s : State) (src arg base : Nat) : Bool :=
  if [0x01, 0x02, 0x06, 0x07, 0x08, 0x09].contains src then s.isCell
  else if src = 0x03 then s.inst bADC && decide (arg < 4)
  else if src = 0x04 then s.inst bADC
  else if src = 0x05 then s.inst bSDM && decide (arg < 8)
  else if src = 0x0A then s.isCell || s.isHub
  else if [0x10, 0x11, 0x12, 0x13, 0x14].contains src then s.isHub
  else if src = 0x15 then s.isHub && decide (arg < 12) && decide (2 ≤ base)
  else if src = 0x16 then s.isCentral && decide (arg < 48)
  else if src = 0x20 then s.inst bLPE && decide (arg < 32)
  else if src = 0x21 then s.inst bLPE && decide (arg < 64)
  else if src = 0x22 then s.inst bETH && decide (arg < 64)
  else false

/-- The channel list: up to the first channel without a source. -/
def State.geoChans (s : State) : List (Nat × Nat) :=
  ((List.range 16).map (fun i => (s.get (GEO.CH.SRC i), s.get (GEO.CH.ARG i)))).takeWhile (fun c => c.1 != 0)

/-- The cell state word. -/
def State.cellStateWord (s : State) : Nat :=
  s.get PWM.STAT.STATE + 2 ^ 3 * s.get PWM.STAT.TRIM + 2 ^ 4 * s.gateBalls + 2 ^ 8 * s.get SAF.STAT.RB + 2 ^ 12 * s.get SAF.STAT.BYP +
    2 ^ 13 * bit s.saf.bypRb + 2 ^ 14 * s.get SAF.STAT.TRIP + 2 ^ 15 * s.get SAF.STAT.SAFESTATE +
    2 ^ 16 * (s.get ENV.SFLTLIVE.LIVE % 4) + 2 ^ 18 * s.get ENV.SSTAT.SDF

/-- The latest value of a source, word `w`. -/
def State.srcNow (s : State) (conv : Bool) (src arg w : Nat) : Nat :=
  match src with
  | 0x01 => s.get ADC.VCAP.CODE
  | 0x02 => ofSigned 32 (toSigned 10 (s.get ADC.VSW.CODE))
  | 0x03 => s.get (ADC.AUXVAL.VALUE arg)
  | 0x04 => ofSigned 32 (toSigned 16 (s.get ADC.DIETEMP.TEMP))
  | 0x05 => if conv then s.get (SDM.CH_LIVE.VALUE arg) else s.sdmValue arg
  | 0x06 => s.get ENV.VOLTS.V
  | 0x07 => s.get ENV.ENERGY.E
  | 0x08 => s.cellStateWord
  | 0x0A => if s.isCell then s.pwm.iarm else s.scr.iarmSent
  | 0x10 => (s.reg SCR.DEC.THRESH.addr).toNat
  | 0x11 => (s.reg SCR.DECN.FRAC.addr).toNat
  | 0x12 => s.get SCR.XUSED.X
  | 0x13 => s.get SCR.INSNOW.COUNT
  | 0x14 => (s.reg SCR.MODES.MODE.addr).toNat
  | 0x16 => s.get (SCR.TENTRY.DATA (arg / 8) (arg % 8) w)
  | 0x20 => SMap.get 0 s.lpe.geo arg
  | 0x21 => s.get (LPE.OUT.VALUE arg)
  | 0x22 => s.get (ETH.SV_CH.VALUE (arg / 8) (arg % 8))
  | _ => 0

def tickKey (src arg w : Nat) : Nat := 65536 * src + 256 * arg + w

/-- A value that belongs to tick `k` noted for the rows of that tick; the last 4 ticks are kept. -/
def State.noteTick (s : State) (k src arg w v : Nat) : State :=
  if !s.inst bGEO then s
  else
    let m := ((s.geo.ticks.find? (fun p => p.1 == k)).map (fun p => p.2)).getD []
    let m := SMap.set 0 m (tickKey src arg w) (v + 1)
    { s with geo := { s.geo with ticks := ((k, m) :: s.geo.ticks.filter (fun p => p.1 != k)).take 4 } }

/-- Word `w` of a channel in the row that belongs to tick `k` (TICK, TICKM) or in the latest row (CONV). -/
def State.chanWord (s : State) (base k src arg w : Nat) : Nat :=
  let m := ((s.geo.ticks.find? (fun p => p.1 == k)).map (fun p => p.2)).getD []
  let t := SMap.get 0 m (tickKey src arg w)
  if 2 ≤ base ∧ t ≠ 0 then t - 1 else s.srcNow (base == 1) src arg w

/-- The words of a row by channel. -/
def State.rowValues (s : State) (r : GeoRec) (k : Nat) : List (List Nat) :=
  r.chans.map (fun c => (List.range (srcWords c.1)).map (fun w => s.chanWord r.base k c.1 c.2 w))

/-- The fixed row of FAST (R324). -/
def State.fastRow (s : State) : Nat :=
  s.get ADC.VSW.CODE + 2 ^ 10 * s.gateBalls + 2 ^ 14 * bit (s.flag SAF.STAT.TRIP || s.flag SAF.STAT.SAFESTATE) +
    2 ^ 15 * s.get PWM.STAT.TRIM

/-- Bytes of a base row: padded to a multiple of 8 (R327); 2 bytes in FAST. -/
def rowSize (base : Nat) (chans : List (Nat × Nat)) : Nat :=
  if base = 0 then 2 else (4 * (chans.foldl (fun a c => a + srcWords c.1) 0) + 7) / 8 * 8

/-- The bytes of one stored row. -/
def rowBytes (vals : List (List Nat)) : List Byte :=
  let b := vals.flatMap (fun ws => ws.flatMap (toLE 4))
  b ++ zeroB ((8 - b.length % 8) % 8)

/-! ## Reductions (R328) -/

/-- One value enters a channel's interval. -/
def accAdd (cls : SrcClass) (a : ChanAcc) (ws : List Nat) : ChanAcc :=
  let v := ws.headD 0
  match cls with
  | .ucode =>
    let x : Int := v
    { a with lo := if a.n = 0 ∨ x < a.lo then x else a.lo, hi := if a.n = 0 ∨ a.hi < x then x else a.hi, sum := a.sum + x, n := a.n + 1 }
  | .scode =>
    let x := toSigned 32 v
    { a with lo := if a.n = 0 ∨ x < a.lo then x else a.lo, hi := if a.n = 0 ∨ a.hi < x then x else a.hi, sum := a.sum + x, n := a.n + 1 }
  | .real =>
    if !f32finite v then a
    else
      let lo := if a.n = 0 || f32lt v a.lo.toNat then (v : Int) else a.lo
      let hi := if a.n = 0 || f32lt a.hi.toNat v then (v : Int) else a.hi
      { a with lo := lo, hi := hi, sum := (f64add a.sum.toNat (f32to64 v) : Nat), n := a.n + 1 }
  | .bits => { a with all := a.all &&& v, any := a.any ||| v }
  | .wide => { a with last := ws }

/-- The words of a channel at the end of an interval of `d` rows: minimum, maximum and mean row. -/
def accMin (cls : SrcClass) (a : ChanAcc) : List Nat :=
  match cls with
  | .ucode | .scode => [ofSigned 32 a.lo]
  | .real => [if a.n = 0 then f32nan else a.lo.toNat]
  | .bits => [a.all]
  | .wide => a.last

def accMax (cls : SrcClass) (a : ChanAcc) : List Nat :=
  match cls with
  | .ucode | .scode => [ofSigned 32 a.hi]
  | .real => [if a.n = 0 then f32nan else a.hi.toNat]
  | .bits => [a.any]
  | .wide => a.last

def accMean (cls : SrcClass) (a : ChanAcc) (d : Nat) : List Nat :=
  match cls with
  | .ucode | .scode => [ofSigned 32 (divRoundAway a.sum d)]
  | .real => [if a.n = 0 then f32nan else f64to32 (f64div a.sum.toNat (f64ofInt a.n))]
  | .bits => [a.any]
  | .wide => a.last

/-- The row that stream `i` stores at the end of an interval. -/
def reducedRow (i : Nat) (classes : List SrcClass) (accs : List ChanAcc) (d : Nat) : List Byte :=
  let z := classes.zip accs
  if i = 1 then rowBytes (z.map (fun p => accMin p.1 p.2)) ++ rowBytes (z.map (fun p => accMax p.1 p.2))
  else rowBytes (z.map (fun p => accMean p.1 p.2 d))

/-- The stream holds its post-trigger count (R335). -/
def StreamSt.complete (x : StreamSt) : Bool :=
  match x.trig with
  | none => false
  | some t => x.post != 0xFFFFFFFF && decide (t + x.post ≤ x.next)

/-- Base row `o` with its values reaches a stream (R328, R330). -/
def State.streamRow (s : State) (r : GeoRec) (x : StreamSt) (o : Nat) (vals : List (List Nat)) (fast : Nat) : StreamSt × State :=
  if o < x.first * x.dec || x.complete then (x, s)
  else
    let n := o / x.dec
    let at_ := s.slotAddr r.slot + x.off + x.place n * x.rowb
    if x.index = 0 then
      ({ x with next := n + 1 }, s.capPut at_ (if r.base = 0 then toLE 2 fast else rowBytes vals))
    else
      let classes := r.chans.map (fun c => (srcClass c.1).getD .bits)
      let fresh := classes.map (fun _ => ({} : ChanAcc))
      let old := if o % x.dec = 0 ∨ x.acc.isEmpty then fresh else x.acc
      let acc := ((classes.zip old).zip vals).map (fun p => accAdd p.1.1 p.1.2 p.2)
      if (o + 1) % x.dec = 0 then
        ({ x with next := n + 1, acc := [] }, s.capPut at_ (reducedRow x.index classes acc x.dec))
      else ({ x with acc := acc }, s)

/-! ## Values of trigger units (R336) -/

/-- A channel's value as an exact number. -/
def chanFp (cls : SrcClass) (v : Nat) : Fp :=
  match cls with
  | .ucode => .fin false v 0
  | .scode => let i := toSigned 32 v; .fin (decide (i < 0)) i.natAbs 0
  | _ => f32 v

def fpLe (a b : Fp) : Bool := fpLt a b || (a != .nan && b != .nan && !fpLt b a)

/-- Units of a type that are enabled, ascending. -/
def State.unitsOfType (s : State) (ty : Nat) : List Nat :=
  (List.range 8).filter (fun n => s.flag (GEO.TRG_CFG.EN n) && s.get (GEO.TRG_CFG.TYPE n) == ty)

/-- A level, edge or window unit at a row: whether it acts, whether its condition is newly met, and what it remembers. An edge acts on the
first value past A after a value on the far side of the hysteresis. -/
def State.unitAt (s : State) (r : GeoRec) (vals : List (List Nat)) (n : Nat) : Bool × Bool × (Bool × Bool) :=
  let ty := s.get (GEO.TRG_CFG.TYPE n)
  let ch := s.get (GEO.TRG_CFG.CH n)
  let pol := s.flag (GEO.TRG_CFG.POL n)
  let cls := (srcClass ((r.chans.getD ch (0, 0)).1)).getD .bits
  let v := (vals.getD ch []).headD 0
  let prev := r.prev.getD n (false, false)
  let a := s.get (GEO.TRG_A.A n)
  let b := s.get (GEO.TRG_B.B n)
  let x := chanFp cls v
  if !s.flag (GEO.TRG_CFG.EN n) || decide (ty < 1) || decide (3 < ty) then (false, false, (false, false))
  else if cls = .bits then
    let c := ((v &&& s.get (GEO.TRG_EVT.MASK n)) != 0) != pol
    let newly := c && !prev.1
    (if ty = 1 then c else newly, newly, (c, prev.2))
  else if ty = 1 then
    let c := if pol then fpLe x (f32 a) else fpLe (f32 a) x
    (c, c && !prev.1, (c, prev.2))
  else if ty = 3 then
    let c := if pol then fpLe (f32 a) x && fpLe x (f32 b) else fpLt x (f32 a) || fpLt (f32 b) x
    (c, c && !prev.1, (c, prev.2))
  else
    let past := if pol then fpLe x (f32 a) else fpLe (f32 a) x
    let far := if pol then fpLe (f32 (f32add a b)) x else fpLe x (f32 (f32sub a b))
    let act := past && prev.2
    (act, act, (past, if far then true else if past then false else prev.2))

/-! ## Marks sent (R341) -/

/-- Local time in domain time of the governing domain, in 78.125 ps. -/
def State.govOffset64 (s : State) (x : Nat) : Int := s.fullOff x / 5120

/-- A Mark with its TAT at local instant `t` (R97, R341): MARKSEQ, ORIGIN, CLASS and the state with it launched. -/
def State.originateMark (s : State) (t : Int) : Nat × State :=
  let id := (s.get GEO.MARKSEQ.ID + 1) % 2 ^ 32
  let s := s.set GEO.MARKSEQ.ID id
  let tat := ofSigned 32 ((t + s.govOffset64 s.gov) / 64)
  let body := toLE 4 id ++ toLE 4 tat ++ toLE 2 s.address ++ toLE 2 (s.get GEO.MARKOUT.CLASS) ++ toLE 1 s.gov ++ zeroB 3
  let lanes := if s.isHub then s.rings ++ [12, 13]
    else [2, 3, 4, 5, 6, 7, 0] ++ (if s.get (LNK.CTRL.MODE 8) = 1 then [8] else [])
  let s := s.noteCopy 1 s.address id 
  (id, lanes.foldl (fun s l => s.originate l (s.newFrame ftMark (s.launchDir l) addrAll body)) s)

/-! ## Triggering (R333 to R338) -/

def State.geoRec (s : State) (r : GeoRec) : State := { s with geo := { s.geo with cur := some r } }

/-- A record whose trigger units ask for it makes its one Mark (R341). -/
def State.recordMark (s : State) (r : GeoRec) : GeoRec × State :=
  let asks := (List.range 8).any (fun n => r.tmask.testBit n && s.flag (GEO.TRG_CFG.MARKOUT n))
  if r.marked || s.isCell || !asks then (r, s)
  else
    let m := s.originateMark r.stamp
    ({ r with marked := true, mark := match r.mark with
        | some x => some x
        | none => some (m.1, s.address, s.get GEO.MARKOUT.CLASS) }, m.2)

/-- The header fields that hold the time base at the trigger instant (R346). -/
def State.headerAtTrigger (s : State) (r : GeoRec) : State :=
  let a := s.slotAddr r.slot
  let ns := r.stamp * 5 / 64
  let flags := s.get TB.STAT.GOV + 2 * s.get TB.STAT.VALIDA + 4 * s.get TB.STAT.VALIDB + 8 * s.get TB.STAT.HOLD +
    16 * s.get TB.STAT.ALIGNED
  let row := s.rowTime r.base (r.mm1 + 1) (s.rowOf r.base (r.mm1 + 1) r.stamp)
  let s := s.capPut (a + 0x18) (toLE 8 (r.stamp % 2 ^ 38) ++ toLE 8 (ns / 10 ^ 9 % 2 ^ 48) ++ toLE 4 (ns % 10 ^ 9) ++
    toLE 4 (s.get TB.OFFA.OFF) ++ toLE 4 (s.get TB.OFFB.OFF) ++ toLE 1 flags)
  let s := s.capPut (a + 0x38) (toLE 8 (r.stamp / (64 * s.tu)) ++ toLE 8 (r.detect % 2 ^ 38))
  s.capPut (a + 0x50) (toLE 8 (row % 2 ^ 38))

/-- Unit `idx` (8: software) meets its condition with the trigger instant `t` (R333, R336, R338, R351). -/
def State.geoTrigger (s : State) (idx t : Nat) (mark : Option (Nat × Nat × Nat)) (flags : Nat) : State :=
  match s.geo.cur with
  | none => s
  | some r =>
    let m := r.mm1 + 1
    if s.geoState = gPrefill then (s.inc GEO.EARLYTRIG.COUNT).raise (srcGEO 5)
    else if s.geoState = gArmed then
      let o := s.rowOf r.base m t
      let r := { r with tmask := 2 ^ idx, primary := idx, stamp := t, detect := s.time64, mark := mark, flags := r.flags ||| flags,
                        streams := r.streams.map (fun x => { x with trig := some (o / x.dec) }) }
      let q := s.recordMark r
      ((q.2.geoRec q.1).setGeo gPost).headerAtTrigger q.1
    else if s.geoState = gPost ∧ s.rowOf r.base m t = s.rowOf r.base m r.stamp then
      let r := { r with tmask := r.tmask ||| 2 ^ idx, mark := match r.mark with | some x => some x | none => mark }
      let r := if idx < r.primary then { r with primary := idx, stamp := t, detect := s.time64 } else r
      let q := s.recordMark r
      (q.2.geoRec q.1).headerAtTrigger q.1
    else s

/-! ## Records (R331, R335, R342 to R348) -/

/-- Region and depth of stream `i` for row size `b` (R330). -/
def State.regionOf (s : State) (i : Nat) : Nat :=
  if s.flag (GEO.STR_CFG.EN i) then s.get (GEO.STR_CFG.SHARE i) * (s.slotSize - 512) / 128 * 8 else 0

def State.streamRowb (_s : State) (i base : Nat) (chans : List (Nat × Nat)) : Nat :=
  if i = 1 then 2 * rowSize base chans else rowSize base chans

/-- D of stream `i`: 1 for RAW. -/
def State.decOf (s : State) (i : Nat) : Nat := if i = 0 then 1 else s.get (GEO.STR_DEC.D i)

def State.depthOf (s : State) (i base : Nat) (chans : List (Nat × Nat)) : Nat :=
  let b := s.streamRowb i base chans
  if b = 0 then 0 else s.regionOf i / b

/-- The configuration passes the checks of R331. -/
def State.geoConfigOk (s : State) : Bool :=
  let base := s.get GEO.CFG.BASE
  let chans := s.geoChans
  let on := (List.range 4).filter (fun i => s.flag (GEO.STR_CFG.EN i))
  let cls (i : Nat) := (chans[i]?).bind (fun c => srcClass c.1)
  let num (c : Option SrcClass) := c == some .ucode || c == some .scode || c == some .real
  !on.isEmpty && decide (on.foldl (fun a i => a + s.get (GEO.STR_CFG.SHARE i)) 0 ≤ 16) &&
    on.all (fun i => decide (0 < s.depthOf i base chans)) &&
    decide (rowSize base chans ≤ 256) &&
    (base == 0 || chans.all (fun c => (srcClass c.1).isSome && s.srcOk c.1 c.2 base)) &&
    (base != 0 || (s.isCell && on == [0])) &&
    on.all (fun i =>
      let d := s.decOf i
      i == 0 || (decide (2 ≤ d) && decide (d ≤ 2 ^ 24) && (base != 1 || s.convPerTick % d == 0 || d % s.convPerTick == 0))) &&
    s.get GEO.CFG.PROC != 3 &&
    (List.range 8).all (fun n =>
      let ty := s.get (GEO.TRG_CFG.TYPE n)
      let c := cls (s.get (GEO.TRG_CFG.CH n))
      !s.flag (GEO.TRG_CFG.EN n) || (decide (4 ≤ ty) && decide (ty ≤ 8)) ||
        (base != 0 && ((ty == 1 || ty == 2) && (num c || c == some .bits) || ty == 3 && num c))) &&
    (s.get GEO.CFG.PROC != 1 || (List.range 4).all (fun n =>
      !s.getBit GEO.MEASCFG.EN n || (base != 0 && num (cls (s.get GEO.MEASCFG.CHAN / 16 ^ n % 16))))) &&
    (s.get GEO.CFG.PROC != 2 || ((!s.flag GEO.MASKCFG.ENA || (base != 0 && num (cls (s.get GEO.MASKCFG.CHA)))) &&
      (!s.flag GEO.MASKCFG.ENB || (base != 0 && num (cls (s.get GEO.MASKCFG.CHB))))))

/-- The stream `i` of a record that is armed now; `o` is the next base row. -/
def State.newStream (s : State) (i o base off : Nat) (chans : List (Nat × Nat)) : StreamSt :=
  let d := s.decOf i
  let depth := s.depthOf i base chans
  let pre := s.get (GEO.STR_PRE.PRE i)
  let want := s.get (GEO.STR_POST.POST i)
  let post := if want = 0xFFFFFFFF then want else if want = 0 then 1 else if depth - pre < want then depth - pre else want
  let first := (o + d - 1) / d
  { index := i, off := off, depth := depth, rowb := s.streamRowb i base chans, dec := d, pre := pre, post := post,
    first := first, next := first }

/-- A record starts in slot `i` (R331, R333, R334, R346). -/
def State.startRecord (s : State) (i : Nat) : State :=
  let base := s.get GEO.CFG.BASE
  let mm1 := s.get GEO.CFG.MM1
  let chans := if base = 0 then [] else s.geoChans
  let o := s.rowOf base (mm1 + 1) s.time64 + 1
  let on := (List.range 4).filter (fun i => s.flag (GEO.STR_CFG.EN i))
  let streams := (on.foldl (fun (p : Nat × List StreamSt) j =>
    (p.1 + s.regionOf j, p.2 ++ [s.newStream j o base p.1 chans])) (0x200, [])).2
  let clamp := streams.any (fun x =>
    let w := s.get (GEO.STR_POST.POST x.index)
    w != 0xFFFFFFFF && decide (x.depth - x.pre < w))
  let roll := streams.any (fun x => x.post == 0xFFFFFFFF)
  let r : GeoRec := { slot := i, base := base, mm1 := mm1, chans := chans, streams := streams,
                      filled := streams.all (fun x => x.pre == 0), flags := 2 * bit clamp + 32 * bit roll, recnum := s.geo.recnum }
  let s := streams.foldl (fun s x => ((s.set (GEO.STR_DEPTH.ROWS x.index) x.depth).set (GEO.STR_POSTUSED.ROWS x.index) x.post).set
    (GEO.STR_ROWB.BYTES x.index) x.rowb) s
  let s := if clamp then s.stick GEO.STAT.POSTCLAMP else s
  let a := s.slotAddr i
  let s := s.capPut a (toLE 4 0x47454F31 ++ [1] ++ toLE 1 r.flags ++ [0] ++ toLE 1 base ++ toLE 1 mm1 ++ toLE 1 chans.length ++ [0, 0] ++
    toLE 4 r.recnum ++ toLE 2 s.address ++ zeroB 2 ++ toLE 4 (s.get CNV.ID.CANVAS_ID) ++ zeroB 0x40 ++ toLE 2 s.tu ++ zeroB 0x1A2)
  let s := s.capPut (a + 0x180) ((List.range 16).flatMap (fun c => toLE 4 (s.reg (GEO.CH.SRC c).addr).toNat))
  let s := (s.setSlotBit GEO.RECDONE_LO.DONE GEO.RECDONE_HI.DONE i false).set GEO.STAT.SLOT i
  (s.geoRec r).setGeo gPrefill

/-- The slot that a new record takes (R331, R342): the first after `after` that is neither held, locked nor in processing; slot 0 in single
mode. -/
def State.nextSlot (s : State) (after : Nat) : Option Nat :=
  let order := if s.flag GEO.CFG.CONT then (List.range s.nrec).map (fun i => (after + 1 + i) % s.nrec) else [0]
  order.find? (fun i => !s.slotHeld i && !s.slotLocked i && !s.slotBusy i)

/-- A record starts in the next slot, or Geode is STALLED (R342). -/
def State.armNext (s : State) : State :=
  let after := if s.geo.recnum = 0 then s.nrec - 1 else s.get GEO.LASTREC.SLOT
  match s.nextSlot after with
  | none => ((s.setGeo gStalled).inc GEO.STALLS.COUNT).raise (srcGEO 2)
  | some i =>
    let s := if 2 ≤ s.slotState i then s.inc GEO.OVERWRITE.COUNT else s
    (s.unlive (srcGEO 2)).startRecord i

/-- GEO.CMD.ARM written (R331). -/
def State.geoArm (s : State) : State :=
  if !(s.runs bGEO && !s.basecamp && (s.geoState == gIdle || s.geoState == gStopped)) then s
  else if !s.geoConfigOk then s.raise (srcGEO 3)
  else (s.unlive (srcGEO 3)).armNext

/-- The rows of a stream in logical order. -/
def State.streamData (s : State) (r : GeoRec) (x : StreamSt) : List Byte :=
  (List.range x.rows).flatMap (fun i => s.capGet (s.slotAddr r.slot + x.off + x.place (x.oldest + i) * x.rowb) x.rowb)

/-- The record is finished: DONE with its CRC, or DAMAGED (R323, R348). -/
def State.finishRecord (s : State) (r : GeoRec) : State :=
  let a := s.slotAddr r.slot
  let s := s.setSlotState r.slot 2
  let used := r.streams.foldl (fun e x => if e < x.off + x.rowb * x.depth then x.off + x.rowb * x.depth else e) 0x200
  let c := s.checkRange 1 a used 2
  let s := c.2
  if c.1 then s.damage r.slot
  else
    let bytes := s.capGet a 0x1FC ++ r.streams.flatMap (s.streamData r)
    (s.capPut (a + 0x1FC) (toLE 4 (crc32 bytes).toNat)).unlive (srcGEO 4)

/-- The record in progress completes (R335, R344, R345); `stopped`: by STOP. -/
def State.completeRecord (s : State) (r : GeoRec) (stopped : Bool) : State :=
  let r := if stopped then { r with flags := r.flags ||| 4 } else r
  let s := s.closeHeader r
  let s := { s with geo := { s.geo with cur := none, recnum := s.geo.recnum + 1 } }
  let s := ((s.set GEO.LASTREC.SLOT r.slot).set GEO.RECNUM.NUM r.recnum).inc GEO.RECORDS.COUNT
  let s := if s.get GEO.CFG.PROC = 0 then s.finishRecord r
    else { s.set GEO.STAT.PROCBUSY 1 with geo := { s.geo with proc := s.geo.proc ++ [{ r with procKind := s.get GEO.CFG.PROC }] } }
  if s.flag GEO.CFG.CONT then s.armNext else s.setGeo gStopped

/-- GEO.CMD.STOP written (R335). -/
def State.geoStop (s : State) : State :=
  match s.geo.cur with
  | none => if s.geoState = gStalled then s.setGeo gIdle else s
  | some r =>
    if !s.runs bGEO then s
    else if s.geoState = gPost then s.completeRecord r true
    else { s.setSlotState r.slot 0 with geo := { s.geo with cur := none } }.setGeo gIdle

/-- GEO.CMD.FREE written (R343). -/
def State.geoFree (s : State) : State :=
  if !s.runs bGEO then s
  else (List.range s.nrec).foldl (fun s i =>
    if 2 ≤ s.slotState i ∧ s.slotHeld i = false ∧ s.slotLocked i = false then s.setSlotState i 0 else s) s

/-- STALLED, and a slot has been released (R342). -/
def State.stallRearm (s : State) : State :=
  if s.runs bGEO && s.geoState == gStalled && (s.nextSlot (s.get GEO.LASTREC.SLOT)).isSome then s.armNext else s

/-- GEO.CMD.MARK written (R341). -/
def State.geoMark (s : State) : State :=
  if s.runs bGEO && !s.isCell then (s.originateMark ((s.time64 : Int) + toSigned 32 (s.get GEO.MARKLEAD.LEAD) * 64)).2 else s

/-! ## Rows -/

/-- A unit's condition at a row counted: FIRES in any state, EARLYTRIG while pre-filling, the trigger while ARMED. -/
def State.rowTrigger (s : State) (n t : Nat) (acts newly : Bool) : State :=
  let s := if newly || (acts && s.geoState == gArmed) then s.inc (GEO.TRG_FIRES.COUNT n) else s
  if s.geoState = gPrefill then (if newly then s.geoTrigger n t none 0 else s)
  else if acts then s.geoTrigger n t none 0
  else s

/-- A base row is latched (R325, R333, R335); `vsw`: the VSW sample of this instant in 2⁻²⁰ codes (R217). -/
def State.rowLatch (s : State) (vsw : Int) (half : Bool) : State :=
  let s := if s.vswConverts then s.set ADC.VSW.CODE (ofSigned 10 (vswCode vsw)) else s
  match s.geo.cur with
  | none => s
  | some r =>
    let m := r.mm1 + 1
    match s.latchedRow r.base m half with
    | none => s
    | some o =>
      if !s.runs bGEO || s.flag CLK.STAT.SAFE then s
      else
        let s := if s.geoState = gPrefill ∧ r.filled = true then s.setGeo gArmed else s
        let k := if r.base = 1 then o / s.convPerTick else if r.base = 3 then o * m else o
        let vals := s.rowValues r k
        let upd := r.streams.foldl (fun (p : List StreamSt × State) x =>
          let q := p.2.streamRow r x o vals s.fastRow
          (p.1 ++ [q.1], q.2)) ([], s)
        let s := upd.2
        let units := (List.range 8).map (fun n => s.unitAt r vals n)
        let r := { r with streams := upd.1, prev := units.map (fun u => u.2.2) }
        let raw := ((upd.1.find? (fun x => x.index == 0)).map (fun x => x.next - x.first)).getD 1
        let s := if raw % 256 = 0 then s.capPut (s.slotAddr r.slot + 0x5C) (toLE 4 raw) else s
        let s := s.geoRec r
        let t := s.rowTime r.base m o
        let s := (List.range 8).foldl (fun s n =>
          let u := units.getD n (false, false, (false, false))
          s.rowTrigger n t u.1 u.2.1) s
        match s.geo.cur with
        | none => s
        | some r =>
          if s.geoState = gPrefill then
            s.geoRec { r with filled := r.streams.all (fun x => decide (x.first + x.pre ≤ x.next)) }
          else if s.geoState = gPost ∧ r.streams.all StreamSt.complete = true then s.completeRecord r false
          else s

/-! ## Events of a command (R336, R337) -/

/-- An event meets unit `n`. -/
def State.eventMeets (s : State) (e : GeoEvent) (n : Nat) : Bool :=
  s.flag (GEO.TRG_CFG.EN n) && s.get (GEO.TRG_CFG.TYPE n) == e.typ &&
    (if e.typ = 4 then s.get (GEO.TRG_EVT.CODE n) == e.code && (decide (5 < e.code) || s.getBit (GEO.TRG_EVT.MASK n) e.lane)
     else if e.typ = 6 then s.getBit (GEO.TRG_EVT.MASK n) e.code
     else true)

/-- One event taken. -/
def State.takeEvent (s : State) (e : GeoEvent) : State :=
  let s := (List.range 8).foldl (fun s n =>
    if s.eventMeets e n then
      let s := s.inc (GEO.TRG_FIRES.COUNT n)
      if e.typ = 8 then s else s.geoTrigger n e.stamp none 0
    else s) s
  if e.typ = 8 then s.geoTrigger 8 e.stamp none 0 else s

/-- The end of a command: what happened in it reaches the trigger units. -/
def State.settle (s : State) : State :=
  let es := s.geo.events
  let s := { s with geo := { s.geo with events := [] } }
  if s.runs bGEO then es.foldl State.takeEvent s else s

/-- GEO.CMD.TRIG written (R336). -/
def State.geoTrig (s : State) : State := if s.runs bGEO then s.event 8 0 0 else s

/-! ## Marks received (R107, R339, R340) -/

/-- The lanes onto which the first copy of a Mark that arrived on lane `n` is relayed (R107). -/
def State.markRelay (s : State) (n : Nat) : List Nat :=
  if s.isHub && s.isTrunkLane n then s.rings
  else if s.isCentral && (n == 0 || n == 8) then [2, 3, 4, 5, 6, 7]
  else if s.isCentral && s.isTrunkLane n then [2, 3, 4, 5, 6, 7].filter (· != n) ++ [0] ++ (if s.get (LNK.CTRL.MODE 8) = 1 then [8] else [])
  else []

/-- A Mark that has reached its instant while POST (R351): inside the record its unit's bit is set, outside it is ignored. -/
def State.markInPost (s : State) (r : GeoRec) (units : List Nat) (tat : Nat) (mk : Nat × Nat × Nat) : State :=
  let o := s.rowOf r.base (r.mm1 + 1) tat
  let inside := r.streams.any (fun x => decide (x.oldest ≤ o / x.dec) && decide (o / x.dec < x.trig.getD 0 + x.post))
  if inside then
    s.geoRec { r with tmask := units.foldl (fun m n => m ||| 2 ^ n) r.tmask, mark := match r.mark with | some x => some x | none => some mk }
  else s.inc GEO.MARKIGN.COUNT

/-- Every enabled Mark unit meets its condition at `t` (R336, R338). -/
def State.markTrigger (s : State) (units : List Nat) (t : Nat) (mk : Nat × Nat × Nat) (flags : Nat) : State :=
  units.foldl (fun s n => s.geoTrigger n t (some mk) flags) s

/-- The trigger of an accepted Mark whose local TAT is reached (R340). -/
def State.markReached (s : State) (units : List Nat) (tat : Nat) (mk : Nat × Nat × Nat) : State :=
  match s.geo.cur with
  | none => s.inc GEO.MARKIGN.COUNT
  | some r =>
    if s.geoState = gPost then s.markInPost r units tat mk
    else if s.geoState = gArmed then
      let o := s.rowOf r.base (r.mm1 + 1) tat
      let fits := r.streams.all (fun x =>
        let n := o / x.dec
        decide (x.pre + (x.next - (n + 1)) + 1 ≤ x.depth) && decide (x.first + x.pre ≤ n))
      if fits then s.markTrigger units tat mk 0
      else (s.markTrigger units s.time64 mk 1).raise (srcGEO 1)
    else s.markTrigger units tat mk 0

/-- A Mark taken by Geode (R339, R340). -/
def State.markTake (s : State) (f : Frame) : State :=
  let units := s.unitsOfType 5
  let origin := f.field 2 0 2
  let cls := f.field 2 2 2
  if origin = s.address ∨ (cls &&& s.get GEO.MARKCLASS.MASK) = 0 ∨ s.runs bGEO = false then s
  else if units.isEmpty || s.geoState == gIdle || s.geoState == gStopped then s.inc GEO.MARKIGN.COUNT
  else
    let id := f.field 1 0 4
    let off := s.govOffset64 (f.field 2 4 1 % 2)
    let now : Int := ((s.time64 : Int) + off) / 64
    let d := seqDiff 32 (f.field 1 4 4) (ofSigned 32 now)
    let s := ((s.inc GEO.MARKRX.COUNT).set GEO.LASTMARK.ID id).set GEO.LASTORIG.ORIGIN origin
    if d < -(2 ^ 31 - 1) then s.inc GEO.MARKRANGE.COUNT
    else
      let tat := ((now + d) * 64 - off).toNat
      let mk := (id, origin, cls)
      let s := units.foldl (fun s n => s.inc (GEO.TRG_FIRES.COUNT n)) s
      if s.time64 < tat ∧ s.geoState ≠ gPost then
        { s with geo := { s.geo with marks := s.geo.marks ++ [⟨id, origin, cls, tat, s.time64⟩] } }
      else s.markReached units tat mk

/-- A Mark frame on lane `n` (R107, R339): forwarded and relayed, the first copy taken when addressed to this device. -/
def State.markReceive (s : State) (n : Nat) (f : Frame) : State :=
  let r := s.arrive n f
  let s := r.2
  if !r.1 || decide (f.ftype ≠ ftMark) then s
  else
    let c := s.takeCopy n 1 (f.field 2 0 2) (f.field 1 0 4) 65536
    if !c.1 then c.2
    else
      let s := c.2
      let s := if f.dst = addrAll then (s.markRelay n).foldl (fun s l => s.originate l { passOn f false with dir := s.launchDir l }) s else s
      if s.forwarderOnly then s
      else if f.dst = addrAll ∨ f.dst = s.address then s.markTake f else s

/-- The compare of a Mark with a future TAT fires (R340). -/
def State.markFires (s : State) : State :=
  match s.geo.marks.find? (fun m => decide (m.tat ≤ s.time64)) with
  | none => s
  | some m =>
    let s := { s with geo := { s.geo with marks := s.geo.marks.erase m } }
    let units := s.unitsOfType 5
    match s.geo.cur with
    | none => s
    | some r =>
      if s.geoState = gPost then s.markInPost r units m.tat (m.ident, m.origin, m.cls)
      else s.markTrigger units m.tat (m.ident, m.origin, m.cls) 0

/-! ## Processing (R344, R345) -/

/-- RAW rows of a record in logical order: offset from the trigger row, row time, the word of channel `ch`. -/
def State.rawRows (s : State) (r : GeoRec) (ch : Nat) : List (Int × Nat × Nat) :=
  match r.streams.find? (fun x => x.index == 0) with
  | none => []
  | some x =>
    let skip := 4 * ((r.chans.take ch).foldl (fun a c => a + srcWords c.1) 0)
    (List.range x.rows).map (fun i =>
      let n := x.oldest + i
      let b := s.capGet (s.slotAddr r.slot + x.off + x.place n * x.rowb + skip) 4
      ((n : Int) - (x.trig.getD 0 : Nat), s.rowTime r.base (r.mm1 + 1) n, leAt b 0 4))

/-- A channel's word as binary32. -/
def toF32 (cls : SrcClass) (v : Nat) : Nat :=
  match cls with
  | .ucode => f32ofInt v
  | .scode => f32ofInt (toSigned 32 v)
  | _ => v

/-- The rising crossings of a list of rows (R344): row time of each. -/
def crossings (hi lo : Nat) : List (Int × Nat × Nat) → Bool → List (Int × Nat)
  | [], _ => []
  | (o, t, v) :: rest, low =>
    if low && f32le hi v then (o, t) :: crossings hi lo rest false
    else crossings hi lo rest (low || f32le v lo)

/-- A span of 78.125 ps units in ns, binary32. -/
def nsOf (d : Int) : Nat := fpOfRat fmt32 (d * 5) 64

/-- The results of measurement `n` in the order of R346. -/
def State.measure (s : State) (r : GeoRec) (n : Nat) : List Nat :=
  let ch := s.get GEO.MEASCFG.CHAN / 16 ^ n % 16
  let cls := (srcClass ((r.chans.getD ch (0, 0)).1)).getD .bits
  let rows := ((s.rawRows r ch).map (fun p => (p.1, p.2.1, toF32 cls p.2.2))).filter (fun p => f32 p.2.2 != .nan)
  let vs := rows.map (fun p => p.2.2)
  if vs.isEmpty then [f32nan, f32nan, f32nan, f32nan, f32nan, f32nan, f32nan, 0]
  else
    let lo := vs.foldl (fun a v => if f32lt v a then v else a) (vs.headD 0)
    let hi := vs.foldl (fun a v => if f32lt a v then v else a) (vs.headD 0)
    let cnt := f64ofInt vs.length
    let sum := vs.foldl (fun a v => f64add a (f32to64 v)) 0
    let sq := vs.foldl (fun a v => f64add a (f64mul (f32to64 v) (f32to64 v))) 0
    let lvl := s.get (GEO.MEASLVL.LVL n)
    let hys := s.get (GEO.MEASHYS.HYS n)
    let cs := crossings (f32add lvl hys) (f32sub lvl hys) rows false
    let first := (cs.head?.map (fun c => c.2)).getD 0
    let last := (cs.getLast?.map (fun c => c.2)).getD 0
    let period := if cs.length < 2 then f32nan else f32div (nsOf ((last : Int) - first)) (f32ofInt (cs.length - 1 : Nat))
    let edge := match cs.find? (fun c => decide (0 ≤ c.1)) with
      | some c => nsOf ((c.2 : Int) - r.stamp)
      | none => f32nan
    [lo, hi, f32sub hi lo, f64to32 (f64div sum cnt), f64to32 (f64sqrt (f64div sq cnt)), period, edge, cs.length]

/-- The segment of mask `c` that applies at offset `o` (R345). -/
def State.maskSeg (s : State) (c : Nat) (o : Int) : Option Nat :=
  (List.range 16).reverse.find? (fun j =>
    let st := s.get (GEO.MASKSEG.WORD c j 0)
    st != 0x7FFFFFFF && decide (toSigned 32 st ≤ o))

/-- The offset of the first row that violates mask `c` on channel `ch`. -/
def State.maskViolation (s : State) (r : GeoRec) (c ch : Nat) : Option Int :=
  let cls := (srcClass ((r.chans.getD ch (0, 0)).1)).getD .bits
  ((s.rawRows r ch).find? (fun p =>
    match s.maskSeg c p.1 with
    | none => false
    | some j =>
      let v := toF32 cls p.2.2
      f32 v == .nan || f32lt v (s.get (GEO.MASKSEG.WORD c j 1)) || f32lt (s.get (GEO.MASKSEG.WORD c j 2)) v)).map (fun p => p.1)

/-- The mask test of a record (R345): first violation, its channel. -/
def State.maskTest (s : State) (r : GeoRec) : Option (Nat × Int) :=
  let a := if s.flag GEO.MASKCFG.ENA then s.maskViolation r 0 (s.get GEO.MASKCFG.CHA) else none
  let b := if s.flag GEO.MASKCFG.ENB then s.maskViolation r 1 (s.get GEO.MASKCFG.CHB) else none
  match a, b with
  | some x, some y => if y < x then some (1, y) else some (0, x)
  | some x, none => some (0, x)
  | none, some y => some (1, y)
  | none, none => none

/-- Measurement or mask test of the oldest record in processing finishes (R344, R345). -/
def State.processDone (s : State) : State :=
  match s.geo.proc with
  | [] => s
  | r :: rest =>
    if !s.runs bGEO then s
    else
      let a := s.slotAddr r.slot
      let s : State := { s.setFlag GEO.STAT.PROCBUSY (!rest.isEmpty) with geo := { s.geo with proc := rest } }
      if r.procKind = 1 then
        let s := (List.range 4).foldl (fun s n =>
          if s.getBit GEO.MEASCFG.EN n then
            let v := s.measure r n
            let s := (List.range 8).foldl (fun s i => s.set (GEO.MEAS.VALUE n i) (v.getD i 0)) s
            s.capPut (a + 0x100 + 32 * n) (v.flatMap (toLE 4))
          else s) s
        ((s.capPut (a + 5) (toLE 1 (r.flags ||| 16))).finishRecord r).stallRearm
      else
        match s.maskTest r with
        | none => (((s.set GEO.MASKRES.FAIL 0).unlive (srcGEO 0)).finishRecord r).stallRearm
        | some (c, o) =>
          let s := ((s.set GEO.MASKRES.FAIL 1).set GEO.MASKRES.CH c).set GEO.MASKROW.ROW (ofSigned 32 o)
          let s := s.capPut (a + 5) (toLE 1 (r.flags ||| 8))
          let s := s.capPut (a + 0x1C0) (toLE 4 (1 + 2 * c) ++ toLE 4 (ofSigned 32 o))
          let s := (s.finishRecord r).raise (srcGEO 0)
          if s.flag GEO.CFG.STOPFAIL then
            let s := match s.geo.cur with
              | some q => { s.setSlotState q.slot 0 with geo := { s.geo with cur := none } }
              | none => s
            s.setGeo gStopped
          else s.stallRearm

/-! ## Upload locks (R349) -/

/-- 65 536 ticks without a further upload request for slot `i`. -/
def State.reclockTimeout (s : State) (i : Nat) : State :=
  let t := SMap.get 0 s.geo.upload i
  if s.slotLocked i && decide (t + 65535 ≤ s.tick) then
    let s := { s with geo := { s.geo with upload := SMap.set 0 s.geo.upload i 0 } }
    (s.setSlotBit GEO.RECLOCK_LO.LOCK GEO.RECLOCK_HI.LOCK i false).stallRearm
  else s

/-! ## Values that belong to ticks (R326) -/

/-- Values of the sample instant of tick `k`: sigma-delta outputs, sampled values; the VCAP code when its conversion comes. -/
def State.noteSample (s : State) (k : Nat) : State :=
  if !s.inst bGEO then s
  else
    let s := (List.range 8).foldl (fun s n => s.noteTick k 0x05 n 0 (s.sdmValue n)) s
    if s.inst bETH then
      (List.range 64).foldl (fun s i => s.noteTick k 0x22 i 0 (s.get (ETH.SV_CH.VALUE (i / 8) (i % 8)))) s
    else s

/-- Values of the decision of tick `k`. -/
def State.noteDecision (s : State) (k : Nat) : State :=
  if !s.inst bGEO then s
  else
    let s := [0x10, 0x11, 0x12, 0x13, 0x14].foldl (fun s src => s.noteTick k src 0 0 (s.srcNow false src 0 0)) s
    (List.range 12).foldl (fun s r =>
      let us := (s.unitsOf r (s.scr.decision.modes.getD r 3) k).2.1
      let count (f : TallySt → List Nat) (b : Nat) := sumL (us.map (fun u => (f u.tally).getD b 0))
      let bytes := (List.range 64).map (count (fun t => t.histI)) ++ (List.range 64).map (count (fun t => t.histO))
      (List.range 32).foldl (fun s w =>
        s.noteTick k 0x15 r w ((List.range 4).foldl (fun a i => a + bytes.getD (4 * w + i) 0 % 256 * 256 ^ i) 0)) s) s

/-- The cell tick word of tick `k` after its apply instant (R326); `before` is the state just before it. -/
def State.tickWord (s before : State) (k : Nat) : Nat :=
  let o := before.scr.orders.find? (fun o => o.tick == k)
  let missed := match o with | none => true | some x => x.target == .missed
  let u := (s.scr.used.find? (fun u => u.tick == k)).getD ⟨k, none, none, none, none, 0⟩
  let own := u.own.getD (s.scr.bin, s.scr.clsI)
  let refused := decide (before.get SCR.REFUSED.COUNT ≠ s.get SCR.REFUSED.COUNT)
  s.get PWM.STAT.STATE + 2 ^ 3 * s.get PWM.STAT.TRIM + 2 ^ 4 * bit missed + 2 ^ 5 * bit refused + 2 ^ 6 * bit s.scr.excluded +
    2 ^ 7 * s.get SCR.CSTAT.DWELLHELD + 2 ^ 8 * (own.1 % 64) + 2 ^ 14 * bit own.2 + 2 ^ 16 * ((u.rank.getD 0xFF) % 256) +
    2 ^ 24 * (u.mode % 8)

def State.noteApply (s before : State) (k : Nat) : State := if s.inst bGEO then s.noteTick k 0x09 0 0 (s.tickWord before k) else s

end Sys2Proof.Machine
end

