-- ==== Sys2Proof/Machine/Secure.lean ====
section
/-!
DEFINITION. Machine/Secure.lean: fuse programming, root keys, attestation, sessions, key install (R443 to R458, R466).
-/

namespace Sys2Proof.Machine

/-! ## Root keys (R443, R446) -/

/-- SHA-256 of root key `n` as the fuses give it. -/
def State.rootHash (s : State) (n : Nat) : List Byte :=
  (List.range 8).flatMap (fun i => toLE 4 (s.reg (FUSE.WORD.VALUE (8 * n + i)).addr).toNat)

/-- Key `n` is revoked by its fuse, or because a word of its hash was read with a mismatch (R444). -/
def State.keyRevoked (s : State) (n : Nat) : Bool :=
  s.fuseBits 0x20 (16 + n) 1 == 1 || (List.range 8).any (fun i => s.getBit (FUSE.MISMATCH.WORDS 0) (8 * n + i))

/-- ROOTUSE of key `n` for canvases (0), vendor firmware (1), customer images (2). -/
def State.keyUse (s : State) (n use : Nat) : Bool := s.fuseBits 0x20 (3 * n + use) 1 == 1

/-- A root hash that is programmed. -/
def State.keyProgrammed (s : State) (n : Nat) : Bool := s.rootHash n != zeroB 32

/-- The boot strap values whose devices read flash (R43, R448). -/
def State.readsFlash (s : State) : Bool := s.get RST.STRAPS.BOOT % 2 == 0

/-- The key presented for a pushed image: that of KEYPRES, else key `n` of the key store where flash is read (R446). -/
def State.presented (s : State) (push : Option PushSt) (n : Nat) : Option (List Byte) :=
  match push.bind (fun p => p.key) with
  | some k => some k
  | none => if s.readsFlash then some (s.flashGet (64 * n) 64) else none

/-- Check 4 of R45 but for the use: a programmed, unrevoked hash, and a presented key that hashes to it. -/
def State.keyGood (s : State) (push : Option PushSt) (n : Nat) : Bool :=
  decide (n < 4) && s.keyProgrammed n && !s.keyRevoked n &&
    (match s.presented push n with
     | some k => sha256 k == s.rootHash n
     | none => false)

/-- An image that names a revoked key raises KEYREVOKED (R446). -/
def State.noteRevoked (s : State) (n : Nat) : State :=
  if n < 4 ∧ s.keyRevoked n = true then s.raise (srcSEC 1) else s.unlive (srcSEC 1)

/-- A signature that does not verify (R446). -/
def State.sigFail (s : State) : State := (s.inc SEC.SIGFAILS.COUNT).raise (srcSEC 0)

/-- The trailer of an image (R41): KEYIDX, r, s. -/
def imgKeyIdx (img : List Byte) : Nat := byteAt img (img.length - 72)
def imgSigned (img : List Byte) : List Byte := img.take (img.length - 72)
def imgVerifies (key img : List Byte) : Bool :=
  ecdsaVerify key (imgSigned img) (sliceB img (img.length - 64) 32) (sliceB img (img.length - 32) 32)

/-- Number of bits set of a word. -/
def ones (v : Nat) : Nat := countBelow (fun i => v.testBit i) 32
def State.minCnv (s : State) : Nat := ones (s.fuseBits 0x21 0 32) + ones (s.fuseBits 0x22 0 32)
def State.minFw (s : State) : Nat := ones (s.fuseBits 0x23 0 32) + ones (s.fuseBits 0x24 0 32)

/-- DEVSERIAL, 8 bytes. -/
def State.serial (s : State) : List Byte :=
  toLE 4 (s.reg (FUSE.WORD.VALUE 0x25).addr).toNat ++ toLE 4 (s.reg (FUSE.WORD.VALUE 0x26).addr).toNat

/-! ## Fuse programming (R445) -/

/-- The mask would revoke the last programmed, unrevoked key with canvas use. -/
def State.lastKeyGone (s : State) (w mask : Nat) : Bool :=
  let good (revoked : Nat → Bool) : Bool :=
    (List.range 4).any (fun n => s.keyProgrammed n && s.keyUse n 0 && !s.keyRevoked n && !revoked n)
  let now := (s.fuseNow 0x20).toNat
  w == 0x20 && good (fun n => now.testBit (16 + n)) && !good (fun n => (now ||| mask).testBit (16 + n))

/-- The origin may program fuses: a session with PERM bit 4, or the boot ROM. -/
def State.mayFuse (s : State) (o : Origin) : Bool :=
  o.agent == 9 || (o.agent == 7 && decide (o.sess < 8) && s.sessOpen o.sess && (s.get (SEC.SESS_STAT.PERM o.sess)).testBit 4)

/-- What an entry shows of a fuse word: nothing of IDKEY (R450). -/
def State.fuseShown (s : State) (w : Nat) : Nat := if 0x30 ≤ w ∧ w < 0x38 then 0 else (s.fuseNow w).toNat

/-- FUSE.PROGCMD.GO written with VFUSE in band or not. -/
def State.fuseProgram (s : State) (o : Origin) (vfuse : Bool) : State :=
  let s := { s.setFlag FUSE.PROGCMD.VFUSEOK vfuse with fuse := { s.fuse with vfuse := vfuse } }
  let w := s.get FUSE.PROGADDR.WORD
  let mask := s.get FUSE.PROGDATA.MASK
  let old := s.fuseShown w
  if s.power ≠ 1 ∨ vfuse = false ∨ (0x30 ≤ w ∧ w ≤ 0x47) ∨ s.lastKeyGone w mask = true ∨ s.mayFuse o = false ∨ s.fuse.job.isSome = true then
    (s.stick FUSE.PROGCMD.DENIED).cairn 0x03 o w old old
  else
    let s := { s.set FUSE.PROGCMD.BUSY 1 with fuse := { s.fuse with job := some (w, BitVec.ofNat 32 mask) } }
    s.cairn 0x03 o w old (old ||| mask)

/-- The programming completes: `a` and `b` are the bits of the mask that blew in each copy (R445). -/
def State.fuseDone (s : State) (a b : Word) : State :=
  match s.fuse.job with
  | none => s
  | some (w, mask) =>
    let x := SMap.get 0 s.fuse.first w ||| (mask &&& a)
    let y := SMap.get 0 s.fuse.second w ||| (mask &&& b)
    let s := { s with fuse := { s.fuse with first := SMap.set 0 s.fuse.first w x, second := SMap.set 0 s.fuse.second w y, job := none } }
    let s := ((s.set FUSE.PROGCMD.BUSY 0).stick FUSE.PROGCMD.DONE).inc FUSE.PROGCNT.COUNT
    if (x &&& mask) = mask ∧ (y &&& mask) = mask then s.unlive (srcFUSE 1) else s.raise (srcFUSE 1)

/-! ## Entropy (R466) -/

/-- A private scalar or signature nonce from the entropy source, 1 to n − 1. -/
def State.scalar (s : State) : Nat × State :=
  let r := s.random 32
  (fromLE r.1 % (p256n - 1) + 1, r.2)

/-! ## Attestation (R451) -/

/-- SHA-256 of the hashes of the loaded customer images in core order; 0 when none. -/
def State.customerHash (s : State) : List Byte :=
  let cores := (List.range 4).filter (fun c => s.getBit SER.CORESTAT.CUSTOMER c)
  if cores.isEmpty then zeroB 32
  else sha256 (cores.flatMap (fun c => (List.range 8).flatMap (fun i => toLE 4 (s.get (SER.IMGHASH.HASH c i)))))

def hashRegs (s : State) (f : Nat → Fld) : List Byte := (List.range 8).flatMap (fun i => toLE 4 (s.get (f i)))

/-- Bytes 0 to 231 of the quote. -/
def State.quoteBytes (s : State) (nonce : List Byte) : List Byte :=
  let fuses := ((List.range 0x30) ++ (List.range 16).map (· + 0x38)).flatMap (fun w => toLE 4 (s.reg (FUSE.WORD.VALUE w).addr).toNat)
  let flags := bit s.basecamp + 2 * bit s.dbgLock + 4 * bit s.sec.rstKey.isSome + 8 * bit s.sec.grpKey.isSome
  toLE 4 0x51541600 ++ s.serial ++ toLE 2 s.address ++ toLE 1 ((s.reg CNV.ROLE.ROLE.addr).toNat % 256) ++ toLE 1 flags ++
    (nonce ++ zeroB 32).take 32 ++ hashRegs s CNV.HASH.HASH ++
    (if s.flag SEC.BOOTSTAT.FWOK then hashRegs s SEC.FWHASH.HASH else zeroB 32) ++ s.customerHash ++ sha256 fuses ++
    hashRegs s LOG.HEAD.HASH ++ toLE 8 s.wrseq ++ toLE 6 s.secNow ++ zeroB 2 ++ toLE 4 s.nsecNow ++ zeroB 4

/-- An attestation request (R451, R466): one quote at a time, one per 1024 ticks, none after the entropy test has failed. -/
def runAttest (t : Txn) (entry : Nat) (s : State) : Answer × State :=
  let soon := match s.sec.quoteTick with
    | some k => decide (s.tick < k + 1024)
    | none => false
  if s.sec.quote.isSome || soon || s.sec.rngBad then (.status stBusy, s)
  else
    (.later, { s with sec := { s.sec with quote := some ⟨t.lane, t.src, t.pay.take 12, entry, t.body⟩, quoteTick := some s.tick } })

/-- The quote completes: it is signed, logged and returned (R451, R460). -/
def State.quoteDone (s : State) : State :=
  match s.sec.quote with
  | none => s
  | some q =>
    let s := { s with sec := { s.sec with quote := none } }
    let pay := s.jTxn q.entry
    let t : Txn := ⟨q.lane, q.src, s.address, 0, pay, pay.drop 32⟩
    let s := s.cairn 0x0B (s.remoteOrigin t) (leAt q.nonce 0 4) 0 (s.wrseq % 2 ^ 32)
    let body := s.quoteBytes q.nonce
    let k := s.scalar
    let sig := ecdsaSign s.idKey k.1 body
    (k.2.answerAll t q.entry stOk [body ++ sig.1 ++ sig.2] true).showContexts

/-! ## Sessions (R452 to R457) -/

/-- OPKEY[n] of the applied canvas: hash and PERM. -/
def State.opKey (s : State) (n : Nat) : List Byte × Nat :=
  (sliceB s.cnv.security (64 + 36 * n) 32, leAt s.cnv.security (96 + 36 * n) 4)

/-- SESSIDLE (R452). -/
def State.sessIdle (s : State) : Nat := orUnless (leAt s.cnv.security 208 4) (2 ^ 26)

/-- A failed attempt (R453): SESSFAIL; the eighth within 65 536 ticks starts the backoff. -/
def State.sessFail (s : State) : State :=
  let s := (s.inc SEC.SESSFAILS.COUNT).raise (srcSEC 2)
  let fails := (s.tick :: s.sec.fails.filter (fun k => decide (s.tick < k + 65536))).take 8
  if fails.length = 8 then
    { s.set SEC.STAT.BACKOFF 1 with sec := { s.sec with fails := [], backoff := some s.tick } }
  else { s with sec := { s.sec with fails := fails } }

/-- The entry of a session opened, closed or refused; the reason's coding is open (R460). -/
def State.logSession (s : State) (o : Origin) (opidx perm : Nat) : State :=
  let r := s.draw 32
  r.2.cairn 0x08 o opidx perm r.1

/-- Sessions open now, as SEC.STAT shows them. -/
def State.showSessions (s : State) : State := s.set SEC.STAT.OPEN (countBelow s.sessOpen 8)

/-- A session number that no session and no handshake holds. -/
def State.freeSess (s : State) : Option Nat :=
  (List.range 8).find? (fun n => !s.sessOpen n && !(s.sec.shakes.any (fun h => h.sess == n)))

/-- An attempt refused: DENIED, SESSFAIL and the log. -/
def State.refuseShake (s : State) (t : Txn) (opidx perm : Nat) : Answer × State :=
  (.status stDenied, (s.sessFail).logSession (s.remoteOrigin t) opidx perm)

/-- OPEN (R453): Qh, Qo, Nh, OPIDX. -/
def runSopen (t : Txn) (_ : Nat) (s : State) : Answer × State :=
  if !s.active then (.status stDenied, s.raise (srcMGT 2))
  else if s.sec.rngBad || s.sec.backoff.isSome then (.status stDenied, s)
  else
    let qh := sliceB t.body 0 64
    let qo := sliceB t.body 64 64
    let nh := sliceB t.body 128 16
    let opidx := byteAt t.body 144
    let op := s.opKey opidx
    if 4 ≤ opidx ∨ sha256 qo ≠ op.1 ∨ op.2 = 0 ∨ (pubPoint qh).isNone = true then s.refuseShake t opidx op.2
    else
      match s.freeSess with
      | none => (.status stBusy, s)
      | some n =>
        let p := s.scalar
        let s := p.2
        let qd := pubKey p.1
        let r := s.random 16
        let s := r.2
        let k := s.scalar
        let s := k.2
        let sig := ecdsaSign s.idKey k.1 ([0x01] ++ s.serial ++ qh ++ qd ++ nh ++ r.1)
        let h : ShakeSt := ⟨t.src, t.lane, opidx, qh, qo, nh, r.1, qd, p.1, n, s.tick⟩
        (.now stOk [qd ++ r.1 ++ toLE 1 n ++ sig.1 ++ sig.2], { s with sec := { s.sec with shakes := s.sec.shakes ++ [h] } })

/-- The attempt a CONFIRM belongs to: of the same source, and of the session its header names where it names one. -/
def State.shakeOf (s : State) (t : Txn) : Option ShakeSt :=
  s.sec.shakes.find? (fun h => h.src == t.src && (t.sess == 0xFF || h.sess == t.sess))

def State.dropShake (s : State) (n : Nat) : State :=
  { s with sec := { s.sec with shakes := s.sec.shakes.filter (fun h => h.sess != n) } }

/-- CONFIRM (R453): the operator's signature; a valid one opens the session. -/
def runSconf (t : Txn) (_ : Nat) (s : State) : Answer × State :=
  if !s.active then (.status stDenied, s.raise (srcMGT 2))
  else
    match s.shakeOf t with
    | none => s.refuseShake t 0xFF 0
    | some h =>
      let perm := (s.opKey h.opidx).2
      let s := s.dropShake h.sess
      let msg := [0x02] ++ s.serial ++ h.qd ++ h.qh ++ h.nd ++ h.nh ++ toLE 2 s.address
      let good := ecdsaVerify h.qo msg (sliceB t.body 0 32) (sliceB t.body 32 32) && decide (s.tick ≤ h.tick + 2 ^ 18)
      match good, ecdh h.priv h.qh with
      | true, some x =>
        let key := hmac256 x ([0x03] ++ h.nh ++ h.nd ++ toLE 1 h.sess)
        let n := h.sess
        let s := (((s.set (SEC.SESS_STAT.OPEN n) 1).set (SEC.SESS_STAT.OPIDX n) h.opidx).set (SEC.SESS_STAT.LANE n) h.lane).set
          (SEC.SESS_STAT.PERM n) perm
        let s := (s.set (SEC.SESS_CTRIN.CTR n) 0).set (SEC.SESS_CTROUT.CTR n) 0
        let s := { s with sec := { s.sec with sess := SMap.set none s.sec.sess n (some ⟨key, s.tick⟩) } }
        let s := (s.showSessions).unlive (srcSEC 2)
        (.status stOk, s.logSession ⟨7, t.lane, n, h.opidx⟩ h.opidx perm)
      | _, _ => s.refuseShake t h.opidx perm

/-- No CONFIRM within 2^18 ticks of CHALLENGE (R453). -/
def State.shakeTimeout (s : State) (n : Nat) : State :=
  match s.sec.shakes.find? (fun h => h.sess == n) with
  | none => s
  | some h =>
    if s.tick ≤ h.tick + 2 ^ 18 then s
    else
      let s := (s.dropShake n).sessFail
      s.logSession ⟨7, h.lane, 0xFF, h.opidx⟩ h.opidx (s.opKey h.opidx).2

/-- The backoff ends (R453). -/
def State.backoffExpire (s : State) : State :=
  match s.sec.backoff with
  | none => s
  | some k =>
    if s.tick < k + 2 ^ 20 then s
    else { s.set SEC.STAT.BACKOFF 0 with sec := { s.sec with backoff := none } }

/-- Session `n` closes (R455, R481): its replied journal entries become acknowledged. -/
def State.closeSession (s : State) (n : Nat) : State :=
  if !s.sessOpen n then s
  else
    let o : Origin := ⟨7, s.get (SEC.SESS_STAT.LANE n), n, s.get (SEC.SESS_STAT.OPIDX n)⟩
    let s := { s.set (SEC.SESS_STAT.OPEN n) 0 with sec := { s.sec with sess := SMap.set none s.sec.sess n none } }
    let s := (List.range 256).foldl (fun s i => if s.jState i = 2 ∧ s.jGet i 8 1 = n then s.jSetState i 3 else s) s
    (s.jCount.showSessions).logSession o o.key (s.get (SEC.SESS_STAT.PERM n))

/-- CLOSE: answered in the session, which then closes (R455). -/
def runSclose (t : Txn) (entry : Nat) (s : State) : Answer × State :=
  let n := byteAt t.body 0
  if !s.sessOpen n then (.status stDenied, s)
  else if t.broadcast then (.later, (s.jDone entry []).closeSession n)
  else (.later, (s.answerAll t entry stOk [[]] true).closeSession n)

/-- SESSIDLE ticks without a transaction (R455). -/
def State.sessIdleTimeout (s : State) (n : Nat) : State :=
  match SMap.get none s.sec.sess n with
  | none => s
  | some x => if x.last + s.sessIdle ≤ s.tick then s.closeSession n else s

/-- Every session closes (R455: a canvas load). -/
def State.closeAll (s : State) : State := (List.range 8).foldl State.closeSession s

/-! ## Keys (R458) -/

/-- Bytes of two lists XORed. -/
def xorBytes (a b : List Byte) : List Byte := (a.zip b).map (fun p => p.1 ^^^ p.2)

/-- KEYINST: which key (0 reset, 1 group), then the key XORed with its mask. -/
def runKeyinst (t : Txn) (_ : Nat) (s : State) : Answer × State :=
  let which := byteAt t.body 0
  let key := xorBytes (sliceB t.body 1 32) (hmac256 (s.sessKey t.sess) ([0x04] ++ toLE 4 t.ctr))
  let h := sha256 key
  let want := if which = 0 then s.rstHash else s.grpHash
  if which ≤ 1 ∧ t.inSession = true ∧ h = want then
    let had := if which = 0 then s.sec.rstKey.isSome else s.sec.grpKey.isSome
    let s := if which = 0 then { s.set SEC.STAT.RSTKEY 1 with sec := { s.sec with rstKey := some key } }
      else { s.set SEC.STAT.GRPKEY 1 with sec := { s.sec with grpKey := some key } }
    let o := s.remoteOrigin t
    (.status stOk, (s.cairn 0x03 o which (bit had) 1).cairnCont 0x03 o (h.take 20))
  else (.status stDenied, s.inc SEC.KEYREJ.COUNT)

/-- A canvas load discards a held key whose hash differs from the new canvas's (R458). -/
def State.dropKeys (s : State) : State :=
  let r := s.sec.rstKey.filter (fun k => sha256 k == s.rstHash)
  let g := s.sec.grpKey.filter (fun k => sha256 k == s.grpHash)
  (({ s with sec := { s.sec with rstKey := r, grpKey := g } }.setFlag SEC.STAT.RSTKEY r.isSome).setFlag SEC.STAT.GRPKEY g.isSome)

/-- The health test of the entropy source fails (R466). -/
def State.rngFail (s : State) : State :=
  let s := { s.set SEC.STAT.RNGOK 0 with sec := { s.sec with rngBad := true } }
  let s := s.raise (srcSEC 4)
  let open_ := s.sec.shakes
  open_.foldl (fun s h => ((s.dropShake h.sess).sessFail).logSession ⟨7, h.lane, 0xFF, h.opidx⟩ h.opidx (s.opKey h.opidx).2) s

end Sys2Proof.Machine
end

