-- ==== Sys2Proof/Machine/Pins.lean ====
section
/-!
DEFINITION. Machine/Pins.lean: pads and general I/O (R413, R496, R497), nERR (R428, R521), bank supplies (R505), transceiver diagnostics (R499), the
Pitch stage (R415), what the interrupt lines show (R423, R485).
-/

namespace Sys2Proof.Machine

/-! ## General I/O -/

/-- PIN.GPIOOUT: OUT of pads 0 to 23 (R496). -/
def State.gpioOut (s : State) : Nat := maskOf (fun j => s.flag (PIN.PAD.OUT j)) 24

/-- OUT of the pads named by `m` takes the bits of `v`. -/
def State.putOut (s : State) (m v : Nat) : State :=
  (List.range 24).foldl (fun s j => if m.testBit j then s.setFlag (PIN.PAD.OUT j) (v.testBit j) else s) s

/-- GPIOSET written (R497): bits that GPIOCLR has named in the same cycle stay 0. -/
def State.gpioSet (s : State) (v : Nat) : State :=
  let lost (j : Nat) : Bool := s.pin.clr.1 == s.time.cycles && s.pin.clr.2.testBit j
  s.putOut (maskOf (fun j => v.testBit j && !lost j) 24) v

/-- GPIOCLR written (R497). -/
def State.gpioClr (s : State) (v : Nat) : State :=
  let old := if s.pin.clr.1 = s.time.cycles then s.pin.clr.2 else 0
  let s := s.putOut v 0
  { s with pin := { s.pin with clr := (s.time.cycles, old ||| v) } }

/-- The level that the device drives on ball GPIOj; none while it is an input (R143, R413, R496). -/
def State.padDrive (s : State) (j : Nat) : Option Bool :=
  let arg := s.get (PIN.PAD.ARG j)
  if !s.pin.released then
    (if s.padCode j = 3 then some false else if s.padCode j = 4 then some true else none)
  else
    match s.get (PIN.PAD.FUNC j) with
    | 1 => some (decide (s.time.cycles < SMap.get 0 s.pin.pulse (arg % 8)))
    | 2 => some (s.get (LNK.CTRL.MODE arg) = 0)
    | 3 => some (s.pin.ddmLane.testBit arg)
    | _ => if s.flag (PIN.PAD.DIR j) then some (s.flag (PIN.PAD.OUT j)) else none

/-- PIN.GPIOIN: the balls; the level at an input comes from outside and is an open value. -/
def State.gpioIn (s : State) : Nat × State :=
  let r := s.draw 24
  (maskOf (fun j => match s.padDrive j with | some b => b | none => r.1.testBit j) 24, r.2)

/-! ## nERR (R413, R428) -/

/-- Every fault source with a REACT nibble, by block (R440). -/
def nibbleSources : List Src :=
  let many (f : Nat → Src) (n : Nat) : List Src := (List.range n).map f
  many srcSYS 6 ++ many srcCLK 5 ++ many srcPWR 1 ++ many srcRST 3 ++ many srcFUSE 2 ++ many srcSEC 5 ++ many srcLOG 3 ++
    many srcSCR 8 ++ many srcPWM 7 ++ many srcADC 7 ++ many srcENV 3 ++ many srcENVS 5 ++ many srcSAF 11 ++ many srcLPE 6 ++
    many srcGEO 6 ++ many srcRED 10 ++ many srcMGT 5 ++ many srcSDM 24 ++ many srcETH 9 ++ many srcPIN 2 ++ many srcSER 3

/-- The device drives nERR low. -/
def State.nerrLow (s : State) : Bool :=
  !s.pin.released || nibbleSources.any (fun x => s.flag x.stat && (s.reaction x).testBit 3) || s.flag SAF.STAT.TRIP ||
    s.flag SAF.STAT.DSATLATCH || s.saf.safe != 0 || s.flag (srcSAF 5).live || s.flag (srcSAF 6).live

/-- The level at the nERR ball: low while driven low, but for a read-back that shows it high (R521), high while driven high in push-pull; released on an open-drain wire it is what others make
it, an open value. -/
def State.nerrBall (s : State) : Bool × State :=
  if s.nerrLow then (s.flag (srcPIN 1).live, s)
  else if !s.flag PIN.BANKCFG.NERROD then (true, s)
  else
    let r := s.draw 1
    (r.1 == 1, r.2)

/-- PIN.STAT with the nERR bits (R521). -/
def State.pinStat (s : State) : Nat × State :=
  let b := s.nerrBall
  let w := (s.reg PIN.STAT.VIOA33.addr).toNat % 16
  (w + 16 * bit b.1 + 32 * bit (!b.1 && !s.nerrLow), b.2)

/-- nERR reads high for 1 µs while the device drives it low, or reads low again (R521). -/
def State.nerrFault (s : State) (high : Bool) : State :=
  s.level (srcPIN 1) (high && s.nerrLow) id

/-- VIOAOK and VIOBOK show the banks' monitors, and BANKV the present condition: a supply out of range, or another level than BANKCFG expects (R505). -/
def State.showBanks (s : State) : State :=
  let s := (s.setFlag PIN.STAT.VIOAOK (s.pin.banks.testBit 0)).setFlag PIN.STAT.VIOBOK (s.pin.banks.testBit 1)
  let bad (inRange : Bool) (want : Nat) (is33 : Bool) : Bool := !inRange || (want == 1 && is33) || (want == 2 && !is33)
  let a := bad (s.flag PIN.STAT.VIOAOK) (s.get PIN.BANKCFG.VIOA) (s.flag PIN.STAT.VIOA33)
  let b := bad (s.flag PIN.STAT.VIOBOK) (s.get PIN.BANKCFG.VIOB) (s.flag PIN.STAT.VIOB33)
  s.level (srcPIN 0) (a || b) id

/-- A bank supply has been outside its range for 1 µs, or is back (R505). -/
def State.bankSupply (s : State) (bank : Nat) (ok : Bool) : State :=
  let others := s.pin.banks % 4 &&& (if bank = 0 then 2 else 1)
  let s : State := { s with pin := { s.pin with banks := others + (if ok then (if bank = 0 then 1 else 2) else 0) } }
  if s.runs bPIN then s.showBanks else s

/-- What PIN shows of its balls while it runs: the banks, the LOS levels (R495, R505); NERRRB is present only while nERR is driven low (R521). -/
def State.showPins (s : State) : State :=
  if !s.runs bPIN then s
  else
    let s := s.showBanks.set PIN.LOSSTAT.LEVEL s.pin.losBalls
    if s.nerrLow then s else s.unlive (srcPIN 1)

/-! ## Transceiver diagnostics (R499) -/

/-- The service reads lane `n`: bytes 92 and 96 to 105 at 0xA2, or nothing when the read failed. -/
def State.ddmRead (s : State) (n : Nat) (bytes : Option (List Byte)) : State :=
  if !(s.getBit PIN.I2CCFG.DDMEN n && decide (n < 16) && s.runs bPIN && !s.forwarderOnly && decide (s.power ≤ 1)) then s
  else
    let s := { s with pin := { s.pin with ddmLane := n } }
    match bytes with
    | none => s.set (PIN.DDM_RX.VALID n) 0
    | some b =>
      let word (i : Nat) : Nat := fromBE (sliceB b i 2)
      let s := (s.set (PIN.DDM_TV.TEMP n) (word 1)).set (PIN.DDM_TV.VCC n) (word 3)
      let s := (s.set (PIN.DDM_TX.BIAS n) (word 5)).set (PIN.DDM_TX.TXPWR n) (word 7)
      let s := (s.set (PIN.DDM_RX.RXPWR n) (word 9)).set (PIN.DDM_RX.VALID n) 1
      (s.setFlag (PIN.DDM_RX.EXTCAL n) ((byteAt b 0).testBit 4)).set (PIN.DDM_TIME.SEC n) s.secNow

/-! ## Pitch (R415) -/

/-- The lanes of rings, trunks and cross-links are UP at the full rate with an Echo measurement complete. -/
def State.lanesFull (s : State) : Bool :=
  (s.usedLanes.filter (fun n => s.get (LNK.CTRL.MODE n) = 1 && (s.isCell || s.isRingLane n || s.isTrunkLane n || n == s.crossLane))).all
    (fun n => s.laneUp n && !s.flag (LNK.STAT.RATE n) && s.get (LNK.DELAY.DELAY n) != 0)

def State.joined (s : State) : Bool := if s.isCell then !s.unjoined else s.serves

def State.readyCond (s : State) : Bool :=
  s.power == 1 && !s.flag SAF.STAT.TRIP && s.saf.safe == 0 &&
    (if s.isCell then s.pwm.latestBlockAll else if s.isHub then s.flag SCR.ARMCTL.BLOCK else true)

/-- RST.PITCH.STAGE. -/
def State.pitchStage (s : State) : Nat :=
  if s.basecamp then 2
  else if !s.active then 1
  else if !s.joined then 3
  else if !s.flag TB.STAT.ALIGNED then 4
  else if !s.lanesFull then 5
  else if s.inRun then 8
  else if s.readyCond then 7
  else 6

/-! ## Interrupts (R143, R423, R485) -/

/-- The TB interrupt: compare fire, SWITCHED, OFFBIG, HOLD as TB.CTRL enables them. -/
def State.tbIrq (s : State) : Bool :=
  (s.getBit TB.CTRL.IEN 0 && (List.range 8).any (fun n => s.flag (TB.CMP_CTRL.FIRED n))) ||
    (s.getBit TB.CTRL.IEN 1 && s.flag TB.STAT.SWITCHED) || (s.getBit TB.CTRL.IEN 2 && s.flag TB.STAT.OFFBIG) ||
    (s.getBit TB.CTRL.IEN 3 && s.flag TB.STAT.HOLD)

/-- The interrupt lines of the blocks, bit per block; TB by its compare units, MGT's receive queue as source 23 is empty, since firmware serves a
request as it arrives. -/
def State.irqLines (s : State) : Nat :=
  maskOf (fun b =>
    if b = bSYS then s.irqAt SYS.FLTSTAT.STAT.addr else if b = bCLK then s.irqAt CLK.FLTSTAT.STAT.addr
    else if b = bPWR then s.irqAt PWR.FLTSTAT.REFUSED.addr else if b = bRST then s.irqAt RST.FLTSTAT.STAT.addr
    else if b = bFUSE then s.irqAt FUSE.FLTSTAT.STAT.addr else if b = bSEC then s.irqAt SEC.FLTSTAT.STAT.addr
    else if b = bLOG then s.irqAt LOG.FLTSTAT.STAT.addr
    else if b = bTB then s.tbIrq
    else if b = bSCR then s.irqAt SCR.FLTSTAT.STAT.addr else if b = bPWM then s.irqAt PWM.FLTSTAT.STAT.addr
    else if b = bADC then s.irqAt ADC.FLTSTAT.STAT.addr
    else if b = bENV then s.irqAt ENV.FLTSTAT.STAT.addr || s.irqAt ENV.SFLTSTAT.STAT.addr
    else if b = bSAF then s.irqAt SAF.FLTSTAT.STAT.addr else if b = bLPE then s.irqAt LPE.FLTSTAT.STAT.addr
    else if b = bGEO then s.irqAt GEO.FLTSTAT.STAT.addr else if b = bRED then s.irqAt RED.FLTSTAT.STAT.addr
    else if b = bMGT then s.irqAt MGT.FLTSTAT.STAT.addr else if b = bSDM then s.irqAt SDM.FLTSTAT.STAT.addr
    else if b = bETH then s.irqAt ETH.FLTSTAT.STAT.addr else if b = bPIN then s.irqAt PIN.FLTSTAT.STAT.addr
    else if b = bSER then s.irqAt SER.FLTSTAT.STAT.addr else false) 23

/-- The core to which source `i` is routed. -/
def State.irqCore (s : State) (i : Nat) : Nat :=
  if i < 16 then s.get SER.IRQROUTE0.CORE / 2 ^ (2 * i) % 4 else s.get SER.IRQROUTE1.CORE / 2 ^ (2 * (i - 16)) % 4

/-- SER.PENDn. -/
def State.pendAt (s : State) (core : Nat) : Nat := maskOf (fun i => s.irqLines.testBit i && s.irqCore i == core) 24

end Sys2Proof.Machine
end

