-- ==== Sys2Proof/Machine/Access.lean ====
section
/-!
DEFINITION. Machine/Access.lean: accesses to the local address space (R3 to R9, R48, R51, R55 to R57, R392, R394, R395, R484, R522): what a read
returns, what a write stores and which action it starts.
-/

namespace Sys2Proof.Machine

/-! ## Bus errors and who may access what -/

/-- A bus error (R9, R526). -/
def State.busError (s : State) (o : Origin) (a : Nat) (write : Bool) : State :=
  (((s.set SYS.BUSERRADDR.ADDR a).set SYS.BUSERRINFO.AGENT o.agent).setFlag SYS.BUSERRINFO.WRITE write).emit (.busError o a)

/-- The window answers: its block is instantiated, clocked and not held in reset (R48, R392). -/
def State.answers (s : State) (b : Nat) : Bool := s.runs b

/-- The origin is a core that runs a customer image. -/
def State.isCustomer (s : State) (o : Origin) : Bool :=
  decide (1 ≤ o.agent) && decide (o.agent ≤ 4) && s.getBit SER.CORESTAT.CUSTOMER (o.agent - 1)

/-- Reads that a customer image may not make (R484). -/
def customerReads (a : Nat) : Bool := decide (a < 0x20280000) || decide (0x20300000 ≤ a)

/-- Writes that a customer image may make (R484). -/
def customerWrites (a : Nat) : Bool :=
  (decide (0x20380000 ≤ a) && decide (a < 0x20400000)) ||
    (isWindow a && !([bSEC, bFUSE, bCNV, bRST, bMGT, bSER].contains (blockOf a)) &&
      (blockOf a != bLOG || (decide (0x40060040 ≤ a) && decide (a ≤ 0x4006004C))))

/-- A direct write to LPE.HOSTIN of a hub or central (R299). -/
def State.hostinDirect (s : State) (a : Nat) : Bool :=
  !s.isCell && decide ((LPE.HOSTIN.VALUE 0).addr ≤ a) && decide (a ≤ (LPE.HOSTIN.VALUE 31).addr)

/-! ## Wide values (R394, R395) -/

/-- Low words of the values wider than 32 bits; the upper word of each follows it. -/
def wideLow (a : Nat) : Bool :=
  let off := (a - windowBase) % 0x10000
  let b := blockOf a
  isWindow a &&
    ((b == bLNK && [0x80, 0x88].contains (off % 0x1000)) || (b == bTB && [0x10, 0x18, 0x30, 0x38, 0x40, 0x48].contains off) ||
      (b == bPWM && decide (0x100 ≤ off) && decide (off < 0x140) && off % 8 == 0) || (b == bRED && [0x20, 0x28].contains off) ||
      (b == bLOG && [0x08, 0x10, 0x50].contains off) || (b == bETH && off == 0x08))

def wideHigh (a : Nat) : Bool := decide (4 ≤ a) && wideLow (a - 4)

/-- The place of the shadow of upper word `a` for an origin: one per register and origin; the cores, the safety pair and remote access each have
their own. -/
def shadowKey (o : Origin) (a : Nat) : Nat := o.agent * 2 ^ 32 + a

/-! ## Reading -/

/-- The value that the register at `a` shows now: most stand in the register file; time, interrupts, pins, the Pitch stage and the apertures
follow what they show. -/
def State.shown (s : State) (a : Nat) : Nat × State :=
  if a = TB.SHORT.COUNT.addr then (s.short, s)
  else if a = TB.NSEC.NS.addr then (s.nsecNow, s)
  else if a = TB.SEC_LO.SEC.addr then (s.secNow % 2 ^ 32, s)
  else if a = TB.SEC_HI.SEC.addr then (s.secNow / 2 ^ 32 % 2 ^ 16, s)
  else if a = TB.TICK_LO.TICK.addr then (s.tick % 2 ^ 32, s)
  else if a = TB.TICK_HI.TICK.addr then (s.tick / 2 ^ 32 % 2 ^ 32, s)
  else if a = RST.PITCH.STAGE.addr then (s.pitchStage, s)
  else if a = PIN.STAT.VIOA33.addr then s.pinStat
  else if a = PIN.GPIOIN.IN.addr then s.gpioIn
  else if a = (SDM.CH_VALUE.VALUE ((a - (SDM.CH_VALUE.VALUE 0).addr) / 32 % 8)).addr then
    (s.sdmValue ((a - (SDM.CH_VALUE.VALUE 0).addr) / 32 % 8), s)
  else if a = PIN.GPIOOUT.OUT.addr then (s.gpioOut, s)
  else if (SER.PEND.SRC 0).addr ≤ a ∧ a ≤ (SER.PEND.SRC 3).addr then (s.pendAt ((a - (SER.PEND.SRC 0).addr) / 4), s)
  else if (LPE.LOAD.LAST 0).addr ≤ a ∧ a ≤ (LPE.LOAD.LAST 3).addr ∧ s.lpe.busyTick ≠ s.tick then
    -- no run has ended in the present tick (R293)
    ((s.reg a).toNat / 2 ^ 16 * 2 ^ 16, s)
  else if 0x400F8000 ≤ a ∧ a < 0x400F8D00 then (s.lpeAperture (a - 0x400F0000), s)
  else ((s.reg a).toNat, s)

/-- The bits of the register at `a` whose fields apply to the role of this device; the others read 0 (R119, R177). -/
def State.roleBits (s : State) (a : Nat) : Nat :=
  let b := blockOf a
  let off := (a - windowBase) % 0x10000
  let all := 2 ^ 32 - 1
  if b = bLNK then
    (let n := off / 0x1000
     if off % 0x1000 = 4 then (if s.isHub && decide (n < 12) then all else 0xFF00FFFF)
     else if off % 0x1000 = 0x20 then (if s.isHub then all else 0)
     else all)
  else if b = bSCR then
    (let cell := off == 0x200 || off == 0x204 || (decide (0x280 ≤ off) && decide (off ≤ 0x288))
     let hub := (decide (0x100 ≤ off) && decide (off ≤ 0x130)) || (decide (0x28C ≤ off) && decide (off ≤ 0x2A4)) || off == 0x00C
     let central := decide (0x800 ≤ off) && decide (off ≤ 0xAFC)
     if (cell && !s.isCell) || (hub && !s.isHub) || (central && !s.isCentral) then 0 else all)
  else if b = bGEO ∧ s.isCell = true then
    -- MARKOUT reads 0 in a cell (R341)
    (if off = 0x204 then 0 else if 0x100 ≤ off ∧ off < 0x200 ∧ off % 32 = 0 then all - 2 ^ 10 else all)
  else all

/-- A read of the register at the aligned address `a` by `o`. -/
def State.regRead (s : State) (o : Origin) (a : Nat) : Nat × State :=
  if !s.answers (blockOf a) || (fieldsAt a).isEmpty then (0, s)
  else
    let s := s.checkParity a false
    if wideHigh a then ((SMap.get (0 : Word) s.sys.shadows (shadowKey o a)).toNat, s)
    else
      let r := s.shown a
      let r := (r.1 &&& s.roleBits a, r.2)
      if wideLow a then
        let h := r.2.shown (a + 4)
        (r.1, { h.2 with sys := { h.2.sys with shadows := SMap.set 0 h.2.sys.shadows (shadowKey o (a + 4)) (BitVec.ofNat 32 h.1) } })
      else r

/-- An aligned access of a width that its region takes (R8, R522). -/
def accessOk (a width : Nat) (write : Bool) : Bool :=
  [8, 16, 32, 64].contains width && a % (width / 8) == 0 &&
    ((!write && decide (a < romSize)) || (!write && decide (qspiBase ≤ a) && decide (a < qspiBase + qspiSize) && width != 64) ||
      (decide (sramBase ≤ a) && decide (a < sramBase + sramSize)) || (decide (capBase ≤ a) && decide (a < capBase + capSize)) ||
      (isWindow a && width == 32))

/-- A read of `width` bits at `a` by `o`; none: a bus error. -/
def State.busRead (s : State) (o : Origin) (a width : Nat) : Option Nat × State :=
  let n := width / 8
  if !accessOk a width false || (s.isCustomer o && !customerReads a) then (none, s.busError o a false)
  else if isWindow a then
    let c := s.apertureCheck a false
    if c.1 then (none, c.2.busError o a false)
    else
      let r := c.2.regRead o a
      (some r.1, r.2)
  else if a < romSize then (some (leAt ((List.range n).map (fun i => Config.bootRom (a + i))) 0 n), s)
  else if a < sramBase then (some (leAt (s.flashGet (a - qspiBase) n) 0 n), s)
  else
    let c := s.checkRange (if a < capBase then 0 else 1) a n 0
    if c.1 then (none, c.2.busError o a false)
    else if a < capBase then (some (leAt (s.sramGet a n) 0 n), c.2)
    else (some (leAt (s.capGet a n) 0 n), c.2)

/-! ## Counters (CNTCLR of each block) -/

/-- The registers from `a` to `b` read 0. -/
def State.clearRange (s : State) (a b : Nat) : State := (List.range ((b - a) / 4 + 1)).foldl (fun s i => s.setReg (a + 4 * i) 0) s

/-- CNTCLR of block `b` (`lane`: which window of LNK) clears what its register names. -/
def State.counterClear (s : State) (b lane : Nat) : State :=
  let w := windowBase + 0x10000 * b
  let clr (lo hi : Nat) := s.clearRange (w + lo) (w + hi)
  if !s.answers b then s
  else if b = bLNK then s.clearRange (w + 0x1000 * lane + 0x40) (w + 0x1000 * lane + 0x6C)
  else if b = bSCR then s.clearScr
  else if b = bPWM then clr 0x180 0x1A0
  else if b = bADC then clr 0x180 0x18C
  else if b = bSDM then (List.range 8).foldl (fun s n => s.set (SDM.CH_LIMCNT.COUNT n) 0) s
  else if b = bENV then clr 0x280 0x288
  else if b = bSAF then clr 0x180 0x194
  else if b = bLPE then
    let s := (List.range 128).foldl (fun s c => (s.set (LPE.CTX_OVR.COUNT c) 0).set (LPE.CTX_SKIP.COUNT c) 0) s
    (List.range 4).foldl (fun s e => s.set (LPE.LOAD.PEAK e) 0) s
  else if b = bETH then
    (List.range 8).foldl (fun s i => (s.set (ETH.SV_GAP.COUNT i) 0).set (ETH.SV_BAD.COUNT i) 0) (clr 0x80 0x90)
  else if b = bGEO then (List.range 8).foldl (fun s n => s.set (GEO.TRG_FIRES.COUNT n) 0) (clr 0x680 0x69C)
  else if b = bRED then clr 0x80 0x9C
  else if b = bCLK then clr 0x80 0x90
  else if b = bPWR then clr 0x80 0x84
  else if b = bRST then clr 0x80 0x94
  else if b = bSYS then
    ((List.range 3).foldl (fun s i => (s.set (SYS.ECC_CECNT.COUNT i) 0).set (SYS.ECC_UECNT.COUNT i) 0) s).set SYS.PARCNT.COUNT 0
      |>.set SYS.INJCNT.COUNT 0
  else if b = bSEC then clr 0x180 0x18C
  else if b = bMGT then clr 0x80 0x90
  else s

/-- The block whose CNTCLR stands at `a`, with its lane. -/
def cntclrOf (a : Nat) : Option (Nat × Nat) :=
  let off := (a - windowBase) % 0x10000
  let b := blockOf a
  if !isWindow a then none
  else if b = bLNK then (if off % 0x1000 = 0xFC then some (b, off / 0x1000) else none)
  else if ([bETH, bRED, bCLK, bPWR, bRST, bMGT].contains b && off == 0xFC) || ([bPWM, bADC, bSAF, bLPE, bSYS, bSEC].contains b && off == 0x1FC) ||
      ([bSCR, bSDM, bENV].contains b && off == 0x2FC) || (b == bGEO && off == 0x6FC) then some (b, 0)
  else none

/-! ## Staging areas (R58 to R60, R478) -/

/-- A range of system SRAM emptied to 0. -/
def State.emptySram (s : State) (a n : Nat) : State :=
  { s with sram := s.sram.filter (fun e => decide (e.1 < a) || decide (a + n ≤ e.1)) }

/-- CNV.CMD.DISCARD: checks abandoned, an open push closed, the staging area emptied. -/
def State.canvasDiscard (s : State) : State :=
  let s := (s.emptySram cnvStaging 0x80000).set CNV.STAT.STAGED 0
  let s := ((s.set CNV.STAT.CHECKING 0).set CNV.STAGELEN.BYTES 0).set MGT.STAT.PUSHOPEN 0
  { s with cnv := { s.cnv with push := {} } }

/-- The refusal code of an activation, 0 when it starts (R59). -/
def State.activateCode (s : State) : Nat :=
  if !s.flag CNV.STAT.STAGED then 0x11
  else if s.get RST.STRAPS.BOOT ≠ 3 ∧ (s.basecamp = true ∨ s.power = 1 ∨ s.power = 2) then 0
  else 0x0E

/-- CNV.CMD.ACTIVATE (R59, R60): PENDING and a warm reset, or the refusal recorded. -/
def State.canvasActivate (s : State) : State :=
  let c := s.activateCode
  if c = 0 then (s.set CNV.STAT.PENDING 1).assertReset 5 2 0 else s.set CNV.STAT.ERR c

/-! ## Timed writes (R473) -/

def State.showTimed (s : State) : State := s.set MGT.TWSEQ.PEND s.mgt.timed.length

/-- A timed write armed for tick `k`. -/
def State.timedArm (s : State) (k a v m : Nat) (o : Origin) : State :=
  let s : State := { s with mgt := { s.mgt with timed := s.mgt.timed ++ [⟨k, a, v, m, o⟩] } }
  s.showTimed

def State.timedFull (s : State) : Bool := decide (16 ≤ s.mgt.timed.length)

/-- MGT.TWSEQ.ARM: at least 2 ticks ahead. -/
def State.timedArmLocal (s : State) (o : Origin) : State :=
  let k := namedTick s.tick (s.get MGT.TWSEQ.SEQ)
  if !s.flag TB.STAT.ALIGNED || decide (k < s.tick + 2) then s.stick MGT.TWSEQ.LATE
  else if s.timedFull then s.stick MGT.TWSEQ.FULL
  else s.timedArm k (s.get MGT.TWADDR.ADDR) (s.get MGT.TWVAL.VALUE) (s.get MGT.TWMASK.MASK) o

/-! ## Actions of writes -/

/-- LOG.APPCMD with GO: a customer note, whose origin names the core; other types are refused (R464). -/
def State.appendNote (s : State) (o : Origin) (typ addr old new : Nat) : Bool × State :=
  if 0x40 ≤ typ ∧ typ ≤ 0x7E then (true, s.cairn typ o addr old new) else (false, s)

/-- RST.SWCMD (R403). -/
def State.softReset (s : State) (reach : Nat) : State :=
  if reach = 0 then s else s.assertReset 9 reach (s.get RST.SWMASK.MASK)

/-- SER.SWISET (R485). -/
def State.softIrq (s : State) (cores : Nat) : State :=
  (List.range 4).foldl (fun (s : State) (c : Nat) => s.stickIf (cores.testBit c) ⟨SER.SWI.PEND.addr, c, 1⟩) s

/-- SER.CUSTEN: a core whose bit is 0 is held in reset (R491). -/
def State.customerEnable (s : State) : State :=
  let cust := s.get SER.CORESTAT.CUSTOMER
  let run := s.get SER.CORESTAT.RUN
  s.set SER.CORESTAT.RUN (maskOf (fun c => if cust.testBit c then s.getBit SER.CUSTEN.EN c else run.testBit c) 4)

/-- LNK.CTRL of lane `n` written: an impossible mode is Off (R72); a lane that is Off, or sends PRBS31 in place of blocks (R119), goes DOWN. -/
def State.laneMode (s : State) (n : Nat) : State :=
  let s := s.modeWritten n
  let s := if (s.get (LNK.CTRL.MODE n) = 0 ∨ s.flag (LNK.CTRL.PRBS n) = true) ∧ (s.flag (LNK.STAT.LOCK n) = true ∨ s.flag (LNK.STAT.UP n) = true) then s.laneDown n true else s
  s.showDown n

/-- CALNOW (R191): whether the spare line holds its limits, and its deviation, come from its measurement and are open values here. -/
def State.calibrateOpen (s : State) : State :=
  let ok := s.draw 1
  let dev := ok.2.draw PWM.CALDEV.PS.w
  dev.2.calibrate (ok.1 == 1) dev.1

/-- LPE.CTXc_CTL written. -/
def State.ctxControl (s : State) (c : Nat) (swap reset : Bool) : State :=
  let s := if swap then s.swapRequest c else s
  if reset then s.resetst c else s

/-- The link of ring lane `n` is fit for a return to NORMAL: UP for 65 536 ticks, and every link of the ring measured (R112). -/
def State.linkSettled (s : State) (n : Nat) : Bool :=
  s.laneUp n && decide ((s.lane n).upTick + 65536 ≤ s.tick) && (s.ringDelays n).isSome

/-- LNK.UNWRAP.ARM of lane `n` written: the arming; a hub member that arms a ring lane, fit for it, writes the same to the L0 window of every cell of
that ring by broadcast (R112; DESIGN CHOICE, log entry 161). -/
def State.unwrapCommand (s : State) (n : Nat) : State :=
  let seq := s.get (LNK.UNWRAP.SEQ n)
  let t := s.unwrapArm n
  if s.isHub && s.isRingLane n && !s.forwarderOnly && farEnough s.tick seq && s.linkSettled n then
    t.ringWrite n (LNK.UNWRAP.SEQ 0).addr (seq + 2 ^ (LNK.UNWRAP.ARM 0).lo)
  else t

/-- PIN.LOSEN written: a LOSn level acts or acts no more (R495). -/
def State.losenWritten (s : State) : State :=
  (List.range 16).foldl (fun s n =>
    if (s.lane n).los = (s.getBit PIN.LOSEN.EN n && s.pin.losBalls.testBit n) then s else s.losLevel n (s.pin.losBalls.testBit n)) s

/-- What a write of `x` (the value under its mask) to register `a` starts, after its word has been stored; `old` is the word before. `busy`: the
blocks whose bus port stays busy (R392). -/
def State.actions (s : State) (o : Origin) (a x old busy : Nat) : State :=
  let on (f : Fld) : Bool := f.addr == a && x.testBit f.lo
  let lane := (a - windowBase) % 0x10000 / 0x1000
  let b := blockOf a
  let off := (a - windowBase) % 0x10000
  match cntclrOf a with
  | some (b, n) => if x.testBit 0 then s.counterClear b n else s
  | none =>
    if b = bLNK then
      (if off % 0x1000 = 0 then s.laneMode lane
       else if on (LNK.RATECMD.ARM lane) then s.rateArm lane
       else if on (LNK.UNWRAP.ARM lane) then s.unwrapCommand lane
       else if on (LNK.ECHOCMD.START lane) then s.echoStart lane false
       else s)
    else if b = bTB then
      (if on TB.SNAP.CAPTURE then s.snapshot
       else if on TB.SETCMD.STEP then s.stepCmd
       else if on TB.DOMSW.ARM then s.domswArm
       else if 0x100 ≤ off ∧ off < 0x180 ∧ (off % 16 = 0 ∨ off % 16 = 8) then s.cmpArm ((off - 0x100) / 16)
       else s)
    else if b = bSCR then (if a = SCR.XIN.X.addr then { s with scr := { s.scr with xinFresh := true } } else s)
    else if b = bPWM then
      (if a = PWM.CTRL.COMMIT.addr then
         let s := if x.testBit 0 then s.pwmCommit else s
         let s := if x.testBit 1 then s.dtReset else s
         if x.testBit 2 then s.calibrateOpen else s
       else if a = PWM.FORCE.EN.addr then s.forceWritten
       else if a = PWM.CFG.FORCEEN.addr then s.forceSync
       else if on PWM.SNAPAT.ARM then s.snapArm
       else s)
    else if b = bENV then
      (if a = ENV.CCTL.RESTART.addr then
         let s := if x.testBit ENV.CCTL.RESTART.lo then s.capRestart else s
         if x.testBit ENV.CCTL.PKCLR.lo then s.peakClear else s
       else if a = ENV.DISCMD.START.addr then
         let s := if x.testBit ENV.DISCMD.START.lo then s.dischargeStart else s
         if x.testBit ENV.DISCMD.STOP.lo then s.dischargeStop else s
       else s)
    else if b = bSAF then (if a = SAF.WDOG.KEY.addr then s.watchdogWrite o x else s)
    else if b = bLPE then
      (if 0x10 ≤ off ∧ off < 0x20 then
         (List.range 32).foldl (fun s j => if x.testBit j then s.swapRequest (32 * ((off - 0x10) / 4) + j) else s) s
       else if 0x1000 ≤ off ∧ off < 0x2000 ∧ off % 32 = 8 then s.ctxControl ((off - 0x1000) / 32) (x.testBit 0) (x.testBit 1)
       else if 0x1000 ≤ off ∧ off < 0x2000 ∧ off % 32 = 12 then s.showCtx ((off - 0x1000) / 32)
       else s)
    else if b = bGEO then
      (if a = GEO.CMD.ARM.addr then
         let s := if x.testBit 0 then s.geoArm else s
         let s := if x.testBit 1 then s.geoStop else s
         let s := if x.testBit 2 then s.geoTrig else s
         let s := if x.testBit 3 then s.geoMark else s
         if x.testBit 4 then s.geoFree else s
       else if a = GEO.RECHOLD_LO.HOLD.addr ∨ a = GEO.RECHOLD_HI.HOLD.addr then s.stallRearm
       else s)
    else if b = bRED then
      (if a = RED.CMD.JOIN.addr then
         let s := if x.testBit RED.CMD.JOIN.lo then s.joinCmd else s
         if x.testBit RED.CMD.RELEASE.lo then s.releaseCmd else s
       else if on RED.YIELD.ARM then s.yieldArm
       else s)
    else if b = bCLK then
      (if on CLK.SRCSEL.GO then s.srcselGo o
       else if a = CLK.GATE.RUN.addr then s.gateWrite (wordGet (BitVec.ofNat 32 old) ⟨0, CLK.GATE.RUN.lo, CLK.GATE.RUN.w⟩)
         (s.get CLK.GATE.RUN) busy
       else if on CLK.FMCFG.START then s.meterStart
       else s)
    else if b = bPWR then (if on PWR.CMD.ARM then s.pwrArm else s)
    else if b = bRST then (if a = RST.SWCMD.REACH.addr then s.softReset (x % 4) else s)
    else if b = bSYS then (if on SYS.INJCTL.ARM then s.injectArm else s)
    else if b = bFUSE then (if on FUSE.PROGCMD.GO then s.fuseProgram o s.fuse.vfuse else s)
    else if b = bLOG then
      (if on LOG.APPCMD.GO then
         (s.appendNote o (x % 128) (s.get LOG.APPADDR.ADDR) (s.get LOG.APPOLD.OLD) (s.get LOG.APPNEW.NEW)).2
       else if a = LOG.ACKSEQ_HI.SEQ.addr then s.logAck o (s.getPair LOG.ACKSEQ_LO.SEQ LOG.ACKSEQ_HI.SEQ)
       else s)
    else if b = bCNV then
      (if a = CNV.CMD.ACTIVATE.addr then
         -- of both commands in one write DISCARD acts first (DESIGN CHOICE, log entry 162)
         let s := if x.testBit 1 then s.canvasDiscard else s
         if x.testBit 0 then s.canvasActivate else s
       else s)
    else if b = bMGT then (if on MGT.TWSEQ.ARM then s.timedArmLocal o else s)
    else if b = bSER then
      (if a = SER.SWISET.SET.addr then s.softIrq (x % 16)
       else if a = SER.CUSTEN.EN.addr then s.customerEnable
       else s)
    else if b = bPIN then
      (if a = PIN.GPIOSET.SET.addr then s.gpioSet (x % 2 ^ 24)
       else if a = PIN.GPIOCLR.CLR.addr then s.gpioClr (x % 2 ^ 24)
       else if a = PIN.LOSEN.EN.addr then s.losenWritten
       else if a = PIN.BANKCFG.VIOA.addr then s.showBanks
       else s)
    else s

/-! ## Writing -/

/-- The word stored when value `v` under mask `m` meets `old` (R3, R4, R51): `locked` discards RWL fields, `kept` are the sticky bits that
hardware has set in this cycle. -/
def storeWord (fs : List FieldSpec) (locked : Bool) (kept v m old : Word) : Word :=
  fs.foldl (fun w f =>
    let at_ := fldMask ⟨0, f.lo, f.w⟩
    let plain := (w &&& ~~~ (at_ &&& m)) ||| (v &&& at_ &&& m)
    match f.access with
    | .ro | .wo => w
    | .rw | .rwa => plain
    | .rwl => if locked then w else plain
    | .w1c => w &&& ~~~ (at_ &&& v &&& m &&& ~~~ kept)) old

def hasAccess (fs : List FieldSpec) (x : Access) : Bool := fs.any (fun f => f.access == x)

/-- Nibbles of fixed sources, which keep 0 whatever is written (R426): CLKSAFE of CLK, SLETRIP of ENV. -/
def fixedNibbles (a : Nat) : Word :=
  if a = CLK.REACT.SEL.addr then 0x000000F0 else if a = ENV.SREACT.SEL.addr then 0x00000F00 else 0

/-- Bits that read 1 whatever is written: bit 6 of SCR.EXCLMASK (R151). -/
def fixedOnes (a : Nat) : Word := if a = SCR.EXCLMASK.MASK.addr then 0x40 else 0

/-- Geode discards writes to its configuration while a record runs (R332). -/
def State.geoDiscards (s : State) (a : Nat) : Bool :=
  let off := (a - windowBase) % 0x10000
  blockOf a == bGEO && (s.geoState != gIdle && s.geoState != gStopped) &&
    (off == 0 || (decide (0x40 ≤ off) && decide (off < 0x200)) || (decide (0x300 ≤ off) && decide (off < 0x600)))

/-- The Cairn type of a write that is logged: power and reset commands 0x04, else 0x01 (R460). -/
def logType (a : Nat) : Nat := if a = PWR.CMD.SEQ.addr ∨ a = RST.SWCMD.REACH.addr then 0x04 else 0x01

/-- The bytes of the hash of the canvas being loaded, which the loader's entries carry (R52). -/
def State.loadHash (s : State) : List Byte := hashRegs s CNV.HASH.HASH

/-- A write logged (R5, R52). -/
def State.logRegWrite (s : State) (o : Origin) (a old new : Nat) : State :=
  let s := s.cairn (logType a) o a old new
  if o.agent = 0 then s.cairnCont (logType a) o s.loadHash else s

/-- A write to the increment of a device that is no central changes nothing and is logged (R129). -/
def State.incrBlocked (s : State) (a : Nat) : Bool :=
  (a == TB.INCR_LO.FRAC.addr || a == TB.INCR_HI.NS.addr) && !s.isCentral

/-- Low words that are held until the upper word is written (R129, R395). -/
def heldLow (a : Nat) : Bool :=
  a == TB.INCR_LO.FRAC.addr || a == TB.SETSEC_LO.SEC.addr || a == LOG.ACKSEQ_LO.SEQ.addr || a == ETH.MACLO.MAC.addr

/-- The low word held for the upper word at `a` goes into force with it (R395). -/
def State.commitLow (s : State) (a : Nat) : State :=
  let h := SMap.get 0 s.sys.held (a - 4)
  if h = 0 then s
  else { s.setReg (a - 4) (BitVec.ofNat 32 (h - 1)) with sys := { s.sys with held := SMap.set 0 s.sys.held (a - 4) 0 } }

/-- A locked write's violation (R56, R57). -/
def State.lockViolation (s : State) (o : Origin) (a v : Nat) : State :=
  ((s.inc CNV.LOCKVIOL.COUNT).set CNV.LOCKADDR.ADDR a).cairn 0x06 o a 0 v

/-- A write of `v` under mask `m` to the register at the aligned address `a` by `o`, whose word the window takes. -/
def State.regStore (s : State) (o : Origin) (a v m busy : Nat) : State :=
  let fs := fieldsAt a
  let old := s.reg a
  let rwa := hasAccess fs .rwa
  if s.incrBlocked a then s.logRegWrite o a old.toNat old.toNat
  else if s.geoDiscards a then s.inc GEO.CFGBUSY.COUNT
  else
    let s := if a = PWM.PERIOD.PERIOD.addr ∨ a = PWM.DUTY.DUTY.addr ∨ a = PWM.LSTATE.ON.addr ∨ a = PWM.DTFLOOR.FLOOR.addr then s.lateWrite
      else s
    let locked := hasAccess fs .rwl && s.getBit CNV.LOCK.LOCK (blockOf a) && o.agent != 0
    let s := if locked then s.lockViolation o a v else s
    let kept := BitVec.ofNat 32 (SMap.get 0 s.sys.setNow a)
    let new := storeWord fs locked kept (BitVec.ofNat 32 v) (BitVec.ofNat 32 m) old &&& ~~~ fixedNibbles a ||| fixedOnes a
    if heldLow a then
      let s := if a = TB.INCR_LO.FRAC.addr then { s with time := { s.time with incrHeld := some new.toNat } }
        else { s with sys := { s.sys with held := SMap.set 0 s.sys.held a (new.toNat + 1) } }
      if rwa then s.logRegWrite o a old.toNat new.toNat else s
    else if a = TB.INCR_HI.NS.addr then
      let s := (s.incrCommit (wordGet new TB.INCR_HI.NS)).parityStored a
      s.logRegWrite o a old.toNat (s.reg a).toNat
    else if a = PIN.GPIOOUT.OUT.addr then s.putOut (m % 2 ^ 24) v
    else if blockOf a = bLPE ∧ 0x8000 ≤ (a - windowBase) % 0x10000 then
      (if (a - windowBase) % 0x10000 < 0x8400 then s.coefWrite ((a - windowBase) % 0x10000 % 0x400 / 4) new.toNat else s)
    else
      let s := if wideHigh a then s.commitLow a else s
      let s := (s.setReg a new).parityStored a
      let s := if rwa then s.logRegWrite o a old.toNat new.toNat
        else if a = RST.SWCMD.REACH.addr then s.logRegWrite o a 0 (v % 4) else s
      s.actions o a (v &&& m) old.toNat busy

/-- A write to a register window: ignored where no register stands or the window does not answer (R9, R48, R392). -/
def State.regWrite (s : State) (o : Origin) (a v m : Nat) : State :=
  if !s.answers (blockOf a) || (fieldsAt a).isEmpty then s else s.regStore o a v m 0

/-- All ones: the mask of a plain write. -/
def allOnes : Nat := 2 ^ 32 - 1

/-- The memory that holds a local address. -/
def State.memPutAt (s : State) (a : Nat) (bs : List Byte) : State := if a < capBase then s.sramPut a bs else s.capPut a bs

/-- A write of `width` bits at `a` by `o` under a mask; false: a bus error. `timed`: it comes from the timed-write unit, which alone writes HOSTIN
of a hub or central (R299). -/
def State.busWrite (s : State) (o : Origin) (a width v m : Nat) (timed : Bool) : Bool × State :=
  let n := width / 8
  if !accessOk a width true || (s.isCustomer o && !customerWrites a) || (!timed && s.hostinDirect a) then (false, s.busError o a true)
  else if isWindow a then
    let c := s.apertureCheck a true
    if c.1 then (false, c.2.busError o a true) else (true, c.2.regWrite o a v m)
  else
    let mem := if a < capBase then 0 else 1
    -- fewer than 64 bits: the word is read, merged and rewritten, and an uncorrectable error cancels the write (R430)
    let c := if width < 64 then s.checkRange mem a n 0 else (false, s)
    if c.1 then (false, c.2.busError o a true)
    else
      let old := leAt (if a < capBase then c.2.sramGet a n else c.2.capGet a n) 0 n
      let m := if width = 32 then m else 2 ^ width - 1
      (true, c.2.memPutAt a (toLE n ((old &&& (2 ^ width - 1 - m)) ||| (v &&& m))))

/-- A 32-bit write of the whole word by `o`, as a core or the loader makes it. -/
def State.coreWrite (s : State) (o : Origin) (a v : Nat) : State := (s.busWrite o a 32 v allOnes false).2

/-- Timed writes of tick `k` take effect in the order of their arming (R473). -/
def State.timedFire (s : State) (k : Nat) : State :=
  let due := s.mgt.timed.filter (fun t => decide (t.tick ≤ k))
  let s : State := { s with mgt := { s.mgt with timed := s.mgt.timed.filter (fun t => !decide (t.tick ≤ k)) } }
  due.foldl (fun s t => (s.busWrite t.origin t.addr 32 t.value t.mask true).2) s.showTimed

end Sys2Proof.Machine
end

