-- ==== Sys2Proof/Machine/Ptp.lean ====
section
/-!
DEFINITION. Machine/Ptp.lean: the PTP service of a central (R146, R147).
-/

namespace Sys2Proof.Machine

/-- The PTP service runs: a central with PTPEN whose service cores work. -/
def State.ptpRuns (s : State) : Bool := s.isCentral && s.runs bETH && s.flag ETH.CTRL.PTPEN && !s.forwarderOnly && decide (s.power ≤ 1)

/-- The MAC address as one number; transmission needs TXEN and an address (R321). -/
def State.mac (s : State) : Nat := s.get ETH.MACLO.MAC + 2 ^ 32 * s.get ETH.MACHI.MAC
def State.ethTx (s : State) : Bool := s.flag ETH.CTRL.TXEN && s.mac != 0

/-- The default comparison of two masters by their Announce fields (R146): the first is better. -/
def betterMaster (a b : MasterSt) : Bool :=
  let key (m : MasterSt) := [m.priority1, m.clockClass, m.accuracy, m.variance, m.priority2, m.identity, m.steps]
  decide (key a < key b)

/-- A PTP message taken by the service, or discarded and counted (R146): an untagged or priority-tagged frame of its domain, no Follow_Up and no
management message. -/
def State.ptpTake (s : State) (h : EthHead) (m : PtpMsg) (ok : Bool) : Bool × State :=
  let r := s.ethRx h
  let s := r.2
  if !r.1 then (false, s)
  else if !s.ptpRuns || h.vid != 0 then (false, s.inc ETH.RXNOMATCH.COUNT)
  else if m.domain != s.cnv.ptpDomain || m.kind != .named || !ok then (false, s.inc ETH.PTPDISC.COUNT)
  else (true, s)

/-- The origin of the writes of the PTP service, which runs on the service cores (R146; DESIGN CHOICE, log entry 164: core 0). -/
def ptpOrigin : Origin := ⟨1, 0, 0xFF, 0xFF⟩

/-- A new increment as the service writes it: held fraction, then the integer part that commits both (R129). -/
def State.ptpIncr (s : State) (v : Nat) : State :=
  (s.coreWrite ptpOrigin TB.INCR_LO.FRAC.addr (v % 2 ^ 32)).coreWrite ptpOrigin TB.INCR_HI.NS.addr (v / 2 ^ 32)

/-- A step to `t`, in ns, as the service makes it through the SET registers (R135). -/
def State.ptpStep (s : State) (t : Nat) : State :=
  let w (s : State) (f : Fld) (v : Nat) := s.coreWrite ptpOrigin f.addr v
  let sec := t / 10 ^ 9
  w (w (w (w s TB.SETSEC_LO.SEC (sec % 2 ^ 32)) TB.SETSEC_HI.SEC (sec / 2 ^ 32 % 2 ^ 16)) TB.SETNS.NS (t % 10 ^ 9)) TB.SETCMD.STEP 1

/-- A one-step Sync (R146, R147): the offset from the master is measured and shown in whole ns. How the service corrects by it the spec leaves open
but for its limits: outside Run a step under R135 or a new increment, in Run an increment, each a free value, the increment within R128. -/
def State.ptpSync (s : State) (h : EthHead) (m : PtpMsg) (age : Nat) : State :=
  let r := s.ptpTake h m (!m.twoStep && decide (-4 ≤ m.logInterval) && decide (m.logInterval ≤ 0))
  let s := r.2
  match s.time.ptp.master with
  | none => s
  | some g =>
    if !r.1 || m.source != g.identity then s
    else
      let off := s.ethStamp age - (m.time * 65536 + m.corr + s.time.ptp.delay)
      let s := s.set TB.PTPOFF.OFF (ofSigned 32 (clampI (-(2 ^ 31)) (2 ^ 31 - 1) (off / 65536)))
      let d := s.draw 1
      if d.1 = 1 ∧ s.inRun = false then d.2.ptpStep (((d.2.stampFine : Int) - off) / 65536).toNat
      else
        let e := d.2.draw 16
        e.2.ptpIncr (clampI incrMin incrMax ((e.2.incr : Int) + clampI (-0x53E3) 0x53E3 (toSigned 16 e.1))).toNat

/-- `n` announce intervals of 2^k seconds, in 5 ns cycles. -/
def announceCycles (n : Nat) (k : Int) : Nat :=
  if 0 ≤ k then n * 200000000 * 2 ^ k.toNat else n * 200000000 / 2 ^ (-k).toNat

/-- A clock qualifies for the selection (R146): its latest two Announce messages lie within four of its intervals, the latest is no older, and it is less
than 255 steps away (PRESUMED, log entry 163: the qualification of the default algorithm). -/
def State.qualifies (s : State) (f : ForeignSt) : Bool :=
  let w := announceCycles 4 f.interval
  decide (f.master.steps < 255) && decide (s.time.cycles ≤ f.last + w) &&
    (match f.prev with | some p => decide (f.last ≤ p + w) | none => false)

/-- The best of the clocks that qualify. -/
def State.bestMaster (s : State) : Option MasterSt :=
  ((s.time.ptp.foreign.filter s.qualifies).map (fun f => f.master)).foldl
    (fun b m => match b with | none => some m | some g => if betterMaster m g then some m else b) none

/-- An Announce message enters the selection (R146): the best master is held, and the port is SLAVE while one is held. -/
def State.ptpAnnounce (s : State) (h : EthHead) (m : PtpMsg) : State :=
  let r := s.ptpTake h m true
  let s := r.2
  if !r.1 then s
  else
    let old := s.time.ptp.foreign.find? (fun f => f.master.identity == m.master.identity)
    let rest := s.time.ptp.foreign.filter (fun f => f.master.identity != m.master.identity)
    let f : ForeignSt := ⟨m.master, m.logInterval, s.time.cycles, old.map (fun f => f.last)⟩
    let s : State := { s with time := { s.time with ptp := { s.time.ptp with foreign := f :: rest } } }
    match s.bestMaster with
    | none => s
    | some g => { s.set ETH.PTPSTAT.STATE 9 with time := { s.time with ptp := { s.time.ptp with master := some g } } }

/-- No Announce of the master held for the announce receipt timeout (R146). -/
def State.masterLost (s : State) (g : MasterSt) : Bool :=
  match s.time.ptp.foreign.find? (fun f => f.master.identity == g.identity) with
  | none => true
  | some f => decide (f.last + announceCycles s.cnv.ptpTimeout f.interval ≤ s.time.cycles)

/-- The announce receipt timeout (R147): the port leaves SLAVE for LISTENING and keeps TB.INCR. -/
def State.ptpTimeout (s : State) : State :=
  match s.time.ptp.master with
  | none => s
  | some g =>
    if s.ptpRuns && s.masterLost g then
      let foreign := s.time.ptp.foreign.filter (fun f => f.master.identity != g.identity)
      { s.set ETH.PTPSTAT.STATE 4 with time := { s.time with ptp := { s.time.ptp with master := none, foreign := foreign } } }
    else s

/-- A message of this device. -/
def State.ptpMsg (s : State) (seq requesting : Nat) (time corr : Int) : PtpMsg :=
  ⟨s.cnv.ptpDomain, false, 0, seq, s.mac, requesting, time, corr, ⟨0, 255, 0, 0, 0, s.mac, 0⟩, .named⟩

/-- A Pdelay_Req is answered with a one-step Pdelay_Resp, whose correction holds the time it stood in the device (R146). -/
def State.pdelayReq (s : State) (h : EthHead) (m : PtpMsg) (age : Nat) : State :=
  let r := s.ptpTake h m true
  if r.1 && r.2.ethTx then r.2.emit (.ptp false (r.2.ptpMsg m.seq m.source 0 (m.corr + (age * 5120 : Nat)))) else r.2

/-- The 1 s interval of the profile (R146): a Pdelay_Req. -/
def State.pdelayInterval (s : State) : State :=
  if s.ptpRuns && s.ethTx then
    let seq := (s.time.ptp.seq + 1) % 65536
    let s := { s with time := { s.time with ptp := { s.time.ptp with seq := seq, t1 := s.stampFine, waiting := true } } }
    s.emit (.ptp true (s.ptpMsg seq 0 (s.time.scale / nsUnit : Nat) 0))
  else s

/-- A Pdelay_Resp completes a measurement of the peer delay (R146). -/
def State.pdelayResp (s : State) (h : EthHead) (m : PtpMsg) (age : Nat) : State :=
  let r := s.ptpTake h m (!m.twoStep)
  let s := r.2
  if r.1 && s.time.ptp.waiting && m.seq == s.time.ptp.seq && m.requesting == s.mac then
    let d := (s.ethStamp age - s.time.ptp.t1 - m.corr) / 2
    { s with time := { s.time with ptp := { s.time.ptp with delay := d, waiting := false } } }
  else s

end Sys2Proof.Machine
end

