-- ==== Sys2Proof/Machine/Loader.lean ====
section
/-!
DEFINITION. Machine/Loader.lean: images (R39 to R42, R447), the checks of R45 and R448, the load of vendor firmware (R448, R449, R479), of customer
images (R487) and of a canvas (R43, R49, R60, R61), Basecamp (R63, R64), what CNV writes again after a block reset (R54).
-/

namespace Sys2Proof.Machine

/-! ## Images -/

/-- A directory entry (R40). -/
structure SectHead where
  typ : Nat
  critical : Bool
  off : Nat
  len : Nat
  deriving DecidableEq, Repr

def imgWord (img : List Byte) (i n : Nat) : Nat := leAt img i n
def imgLength (img : List Byte) : Nat := imgWord img 8 4
def imgNsect (img : List Byte) : Nat := imgWord img 0xC 2

/-- The section directory. -/
def imgDir (img : List Byte) : List SectHead :=
  (List.range (imgNsect img)).map (fun i =>
    let a := 0x40 + 16 * i
    ⟨imgWord img a 2, imgWord img (a + 2) 2 % 2 == 1, imgWord img (a + 4) 4, imgWord img (a + 8) 4⟩)

def sectBytes (img : List Byte) (h : SectHead) : List Byte := sliceB img h.off h.len

def noBody : SectionBody :=
  { writes := [], lanes := [], blocks := 0, locks := 0, sched := {}, missed := 4, noCentral := false, ptpDomain := 0, ptpTimeout := 3, rings := [], arms := [],
    bipole := false, vpc := 0, cNom := 0, progs := [] }

/-- PRESETS: entries of address, value and mask, 12 bytes each (R51). -/
def presetBody (bs : List Byte) : Option SectionBody :=
  if bs.length % 12 = 0 then
    some { noBody with writes := (List.range (bs.length / 12)).map (fun i => (leAt bs (12 * i) 4, leAt bs (12 * i + 4) 4, leAt bs (12 * i + 8) 4)) }
  else none

/-- The content of a section; SYSTEM ends with the security block of 224 bytes (R452). -/
def bodyOf (typ : Nat) (bs : List Byte) : Option SectionBody :=
  if typ = 0x000E then presetBody bs
  else if typ = 0x0001 ∧ bs.length < 224 then none
  else Config.sectionBody typ bs

def knownType (t : Nat) : Bool := decide (1 ≤ t) && decide (t ≤ 15)

/-- Whether a canvas of a role must (2), may (1) or must not (0) contain a section (R42). -/
def sectNeed (role typ : Nat) : Nat :=
  let row : List Nat := [2, 2, 2, 2, 2] ++ (if role = 0 then [1, 1, 2] else [2, 2, 1]) ++ [2] ++ (if role = 2 then [1] else [2]) ++
    (if role = 1 then [2] else [0]) ++ (if role = 0 then [0] else if role = 1 then [1] else [2]) ++ [1, 1, 2]
  row.getD (typ - 1) 0

/-- The sections of known type in directory order, read. -/
def imgBodies (img : List Byte) : List (SectHead × SectionBody) :=
  (imgDir img).filterMap (fun h => if knownType h.typ then (bodyOf h.typ (sectBytes img h)).map (fun b => (h, b)) else none)

def bodyAt (bodies : List (SectHead × SectionBody)) (t : Nat) : SectionBody := ((bodies.find? (fun x => x.1.typ == t)).map (fun x => x.2)).getD noBody

/-- The directory index of a section type, 0xFF when there is none. -/
def indexOf (img : List Byte) (t : Nat) : Nat := ((imgDir img).findIdx? (fun h => h.typ == t)).getD 0xFF

/-- Every register write of a canvas in the order of R49, each under its mask: CLOCKS, BLOCKS, PINS, LANES, the others in directory order,
PRESETS. -/
def imgWrites (bodies : List (SectHead × SectionBody)) : List (Nat × Nat × Nat) :=
  [0x4, 0x3, 0x5, 0x2].flatMap (fun t => (bodyAt bodies t).writes) ++
    (bodies.filter (fun x => !([0x4, 0x3, 0x5, 0x2, 0xE, 0xF].contains x.1.typ))).flatMap (fun x => x.2.writes) ++ (bodyAt bodies 0xE).writes

/-- The register word as it will stand once the loader has applied every section and preset to a device out of reset (R257). -/
def State.plannedWord (s : State) (ws : List (Nat × Nat × Nat)) (a : Nat) : Word :=
  let base := if a = SAF.HARDV.CODE.addr then wordSet (regDefault a) SAF.HARDV.CODE s.slvHard else regDefault a
  ws.foldl (fun w x => if x.1 = a then storeWord (fieldsAt a) false 0 (BitVec.ofNat 32 x.2.1) (BitVec.ofNat 32 x.2.2) w else w) base

def State.planned (s : State) (ws : List (Nat × Nat × Nat)) (f : Fld) : Nat := wordGet (s.plannedWord ws f.addr) f

/-! ## The checks of R45 -/

/-- Checks 1 to 3 on the header and directory: `limit` the bytes of the slot or of the staged image. -/
def headCheck (head dir : List Byte) (limit : Nat) : Option (Nat × Nat) :=
  let n := imgNsect head
  let len := imgLength head
  let hs := imgDir (head ++ dir)
  let inside (h : SectHead) : Bool := decide (0x40 + 16 * n ≤ h.off) && decide (h.off + h.len + 72 ≤ len)
  let apart (g h : SectHead) : Bool := decide (g.off + g.len ≤ h.off) || decide (h.off + h.len ≤ g.off)
  if imgWord head 0 4 ≠ 0x0D167316 then some (0x01, 0xFF)
  else if imgWord head 4 2 ≠ 1 then some (0x02, 0xFF)
  else if 0x80000 < len ∨ limit < len ∨ n = 0 ∨ 64 < n ∨ len < 0x40 + 16 * n + 72 then some (0x03, 0xFF)
  else
    match hs.findIdx? (fun h => !inside h) with
    | some i => some (0x03, i)
    | none =>
      match (List.range n).find? (fun i => (List.range i).any (fun j =>
        match hs[i]?, hs[j]? with
        | some g, some h => !apart g h
        | _, _ => false)) with
      | some i => some (0x03, i)
      | none => none

/-- Checks 4 to 6: key with the use, signature, security version. -/
def State.keyCheck (s : State) (img : List Byte) (push : Option PushSt) (use least secver : Nat) : Option Nat :=
  let n := imgKeyIdx img
  if !(s.keyGood push n) then some 0x05
  else if !s.keyUse n use then some (if use = 0 then 0x05 else 0x07)
  else if !imgVerifies ((s.presented push n).getD []) img then some 0x04
  else if secver < least then some 0x06
  else none

def imgRole (img : List Byte) : Nat := byteAt img 6
def imgMember (img : List Byte) : Nat := byteAt img 7
def imgSegment (img : List Byte) : Nat := byteAt img 0x18

/-- Check 7: ROLE, MEMBER, SEGMENT; sections of R42. -/
def roleCheck (img : List Byte) : Option (Nat × Nat) :=
  let r := imgRole img
  let m := imgMember img
  let g := imgSegment img
  let fits := if r = 0 then m == 0xFF && g == 0xFF else if r = 1 then decide (m ≤ 1) && decide (g ≤ 23) else r == 2 && decide (m ≤ 1) && g == 0xFF
  if !fits then some (0x07, 0xFF)
  else
    let dir := imgDir img
    match dir.findIdx? (fun h => knownType h.typ && sectNeed r h.typ == 0) with
    | some i => some (0x07, i)
    | none =>
      if ((List.range 15).map (· + 1)).all (fun t => sectNeed r t != 2 || dir.any (fun h => h.typ == t)) then none else some (0x07, 0xFF)

/-- Check 8: unknown critical types, types twice, structure. -/
def sectionCheck (img : List Byte) : Option (Nat × Nat) :=
  let dir := imgDir img
  let bad (i : Nat) : Bool :=
    match dir[i]? with
    | none => false
    | some h =>
      if !knownType h.typ then h.critical
      else (dir.take i).any (fun g => g.typ == h.typ) || (bodyOf h.typ (sectBytes img h)).isNone
  ((List.range dir.length).find? bad).map (fun i => (0x0C, i))

/-- Check 9: lanes and modes of R20; L15 takes an Ethernet mode, every other lane Guyline. -/
def laneOk (role : Nat) (x : Nat × Nat) : Bool :=
  x.2 == 0 || (if x.1 = 15 then role != 0 && decide (2 ≤ x.2) && decide (x.2 ≤ 3)
    else x.2 == 1 && (if role = 0 then decide (x.1 ≤ 1) else if role = 1 then decide (x.1 ≤ 14) else decide (x.1 ≤ 8)))

/-- Check 10: the tick length of R32 and the constraints of R33, all in 10 ns. -/
def scheduleOk (x : Schedule) : Bool :=
  decide (250 ≤ x.tick) && decide (x.tick ≤ 2000) && decide (10 ≤ x.tt) && decide (x.tt + 28 ≤ x.td) && decide (x.td + 20 ≤ x.to_) &&
    decide (x.to_ < x.tick) && decide (x.to_ + 30 ≤ x.apply) && decide (x.apply < 2 * x.tick)

/-- Blocks that a role must instantiate, and those it must not (R47). -/
def blocksMust (role : Nat) : Nat :=
  let of (l : List Nat) : Nat := l.foldl (fun m b => m + 2 ^ b) 0
  if role = 0 then of [bSCR, bPWM, bADC, bENV, bSAF] else if role = 1 then of [bSCR, bLPE, bRED, bSDM] else of [bLPE, bRED, bETH]
def blocksMustNot (role : Nat) : Nat := if role = 0 then 2 ^ bRED + 2 ^ bETH else 2 ^ bPWM + 2 ^ bENV
def blocksOk (role m : Nat) : Bool := (m &&& blocksMust role) == blocksMust role && (m &&& blocksMustNot role) == 0

/-- Check 12 (R257), each threshold as it will stand. -/
def State.safetyOk (s : State) (ws : List (Nat × Nat × Nat)) (inst : Nat) : Bool :=
  let g (f : Fld) : Nat := s.planned ws f
  let hard := g SAF.HARDV.CODE
  (!inst.testBit bSAF || (decide (s.slvMin ≤ hard) && decide (hard ≤ s.slvMax) && (!s.dsatBypReq || g SAF.CFG.DSATBYP == 1))) &&
    (!inst.testBit bENV ||
      (decide (g ENV.VSOFT.CODE < 16 * hard) && f32lt (g ENV.EMAX.E) (g ENV.ETRIP.E) &&
        f32le (g ENV.ETRIP.E) (f32ofInt (16 * s.emaxLim)) && f32lt 0 (g ENV.ERESID.E) && decide (1 ≤ g ENV.ETRIPN.N)))

/-- ARMTABLE as R29 has it, and for a system without a central as R31 has it. With a central every arm of the form is there, with 1 to 4 segments in
a pole and 1 to 2 in a bipole; without one there is one trunk ring, and so one arm of a pole or two of a bipole, with 1 to 4 hub pairs. -/
def armsOk (noCentral bipole : Bool) (arms : List Nat) : Bool :=
  let used := arms.filter (· != 0xFF)
  let most := if bipole then 2 else 4
  let count (a : Nat) : Nat := (used.filter (· == a)).length
  let known := decide (arms.length ≤ 24) && used.all (fun a => decide (a < (if bipole then 12 else 6)) && decide (count a ≤ most))
  let oneRing := used.all (fun a => match used.head? with | some b => (if bipole then a / 2 == b / 2 else a == b) | none => true)
  known && (if noCentral then oneRing && !used.isEmpty else (List.range (if bipole then 12 else 6)).all (fun a => count a != 0))

/-- RINGS as R15 and R16 have it: 1 to 12 rings, each listed once, of 1 to 64 cells. -/
def ringsOk (rings : List (Nat × Nat)) : Bool :=
  !rings.isEmpty && rings.all (fun x => decide (x.1 < 12) && decide (1 ≤ x.2) && decide (x.2 ≤ 64) && decide ((rings.filter (fun y => y.1 == x.1)).length = 1))

/-- Check 13: R29 and R31, ring lengths. -/
def systemOk (role : Nat) (hasTable : Bool) (noCentral bipole : Bool) (arms : List Nat) (rings : List (Nat × Nat)) : Bool :=
  (role != 1 || ringsOk rings) && (!hasTable || armsOk noCentral bipole arms) &&
    (if role = 1 then hasTable == noCentral else if role = 2 then !noCentral else true)

/-- Check 14: every preset names a register of an instantiated block other than SEC, FUSE, LOG and CNV (R51). -/
def presetOk (inst : Nat) (x : Nat × Nat × Nat) : Bool :=
  isWindow x.1 && x.1 % 4 == 0 && (inst ||| fixedBlocks).testBit (blockOf x.1) && !([bSEC, bFUSE, bLOG, bCNV].contains (blockOf x.1)) &&
    !(fieldsAt x.1).isEmpty

/-- The arms that a canvas gives, from whichever section carries them, and the form of the system (R29). -/
def imgArms (bodies : List (SectHead × SectionBody)) : List Nat := ((bodies.map (fun x => x.2.arms)).find? (fun l => !l.isEmpty)).getD []
def imgBipole (bodies : List (SectHead × SectionBody)) : Bool := bodies.any (fun x => x.2.bipole)

/-- Checks 7 to 14 of a signed image. -/
def State.contentCheck (s : State) (img : List Byte) : Option (Nat × Nat) :=
  match roleCheck img with
  | some e => some e
  | none =>
    match sectionCheck img with
    | some e => some e
    | none =>
      let bodies := imgBodies img
      let role := imgRole img
      let ws := imgWrites bodies
      let inst := (bodyAt bodies 0x3).blocks
      let sys := bodyAt bodies 0x1
      if !((bodyAt bodies 0x2).lanes.all (laneOk role)) then some (0x08, indexOf img 0x2)
      else if !scheduleOk sys.sched then some (0x09, indexOf img 0x1)
      else if !blocksOk role inst then some (0x0A, indexOf img 0x3)
      else if !s.safetyOk ws inst then some (0x0B, indexOf img 0x8)
      else if !systemOk role (indexOf img 0xC != 0xFF) sys.noCentral (imgBipole bodies) (imgArms bodies) (bodyAt bodies 0xB).rings then
        some (0x10, if indexOf img 0xC = 0xFF then indexOf img 0xB else indexOf img 0xC)
      else if !((bodyAt bodies 0xE).writes.all (presetOk inst)) then some (0x0D, indexOf img 0xE)
      else none

/-- The whole of R45 on an image of at most `limit` bytes; code and directory index of the first failure. -/
def State.imageCheck (s : State) (img : List Byte) (limit : Nat) (push : Option PushSt) : Option (Nat × Nat) :=
  match headCheck (img.take 0x40) (sliceB img 0x40 (16 * imgNsect img)) limit with
  | some e => some e
  | none =>
    let img := img.take (imgLength img)
    match s.keyCheck img push 0 s.minCnv (imgWord img 0x10 4) with
    | some c => some (c, 0xFF)
    | none => s.contentCheck img

/-- What a finished check leaves beside its result: SIGFAIL, KEYREVOKED (R446). -/
def State.noteCheck (s : State) (img : List Byte) (code : Option Nat) : State :=
  let reached := match code with | some c => decide (4 ≤ c) | none => true
  let s := if reached then s.noteRevoked (imgKeyIdx img) else s
  match code with
  | some 4 => s.sigFail
  | some _ => s
  | none => s.unlive (srcSEC 0)

/-- A canvas image checked, and a failure recorded in ERR and ERRSECT. -/
def State.tryImage (s : State) (img : List Byte) (limit : Nat) (push : Option PushSt) : Bool × State :=
  let e := s.imageCheck img limit push
  let s := s.noteCheck (img.take (imgLength img)) (e.map (fun x => x.1))
  match e with
  | none => (true, s)
  | some (c, i) => (false, (s.set CNV.STAT.ERR c).set CNV.ERRSECT.INDEX i)

/-! ## Firmware images -/

def fwKind (img : List Byte) : Nat := byteAt img 6
def fwCores (img : List Byte) : Nat := byteAt img 7 % 16

/-- Checks 1 to 6 of R45 on a firmware image (R448); `kind`: the KIND wanted, none for either. -/
def State.fwCheck (s : State) (img : List Byte) (limit : Nat) (push : Option PushSt) (kind : Option Nat) : Option Nat :=
  let len := imgLength img
  if imgWord img 0 4 ≠ 0x0D16F1A0 then some 0x01
  else if imgWord img 4 2 ≠ 1 then some 0x02
  else if 0x80000 < len ∨ limit < len ∨ len < 0x40 + 72 then some 0x03
  else
    let img := img.take len
    match kind with
    | some k => if fwKind img ≠ k then some 0x07 else s.keyCheck img push (k + 1) s.minFw (imgWord img 0xC 4)
    | none => if 1 < fwKind img then some 0x07 else s.keyCheck img push (fwKind img + 1) s.minFw (imgWord img 0xC 4)

/-- The bytes of an image in system SRAM or flash, from its own LENGTH. -/
def State.sramImage (s : State) (a : Nat) : List Byte :=
  let len := leAt (s.sramGet (a + 8) 4) 0 4
  s.sramGet a (if len ≤ 0x80000 then len else 0)
def State.flashImage (s : State) (a : Nat) : List Byte :=
  let len := leAt (s.flashGet (a + 8) 4) 0 4
  s.flashGet a (if len ≤ 0x80000 then (if len < 0x40 then 0x40 else len) else 0x40)

/-- The vendor image `img` runs: copied to its place, recorded, its cores started (R449, R479). `src`: FWSRC. -/
def State.startFirmware (s : State) (img : List Byte) (src : Nat) : State :=
  let h := sha256 img
  let s := s.sramPut fwArea img
  let s := ((s.set SEC.BOOTSTAT.FWSRC src).set SEC.BOOTSTAT.FWOK 1).set SEC.BOOTSTAT.FWKEY (imgKeyIdx img)
  let s := (s.set SEC.FWID.ID (imgWord img 0x10 4)).set SEC.FWSECVER.SECVER (imgWord img 0xC 4)
  let s := (List.range 8).foldl (fun s i => s.set (SEC.FWHASH.HASH i) (leAt h (4 * i) 4)) s
  let s := (s.set SER.CORESTAT.VENDOR (fwCores img)).set SER.CORESTAT.RUN (fwCores img)
  if src = 3 then s else s.cairn 0x09 loaderOrigin (imgWord img 0x10 4) (imgWord img 0xC 4) (fwKind img)

/-- Flash firmware slots in the order of R448: address and FWSRC. -/
def fwSlots (boot : Nat) : List (Nat × Nat) :=
  if boot = 0 then [(0x110000, 0), (0x190000, 1)] else if boot = 2 then [(0x190000, 1), (0x110000, 0)] else []

/-- The first valid firmware slot starts (R448). -/
def State.flashFirmware (s : State) : List (Nat × Nat) → State
  | [] => s
  | (a, src) :: rest =>
    let img := s.flashImage a
    let e := s.fwCheck img 0x80000 none (some 0)
    let s := s.noteCheck img e
    match e with
    | none => s.startFirmware img src
    | some c => (s.set SEC.BOOTSTAT.FWERR c).flashFirmware rest

/-- The vendor firmware obtained (R448, R449, R479): a verified staged image, the SRAM copy where its hash still equals FWHASH, the flash. -/
def State.bootFirmware (s : State) : State :=
  let boot := s.get RST.STRAPS.BOOT
  if s.mgt.push.good && s.mgt.push.kind == 0 then
    let img := s.sramImage fwStaging
    let s := s.startFirmware img 2
    { s with mgt := { s.mgt with push := { s.mgt.push with good := false } } }
  else
    let img := s.sramImage fwArea
    if boot ≠ 3 ∧ img ≠ [] ∧ sha256 img = hashRegs s SEC.FWHASH.HASH then s.startFirmware img 3 else s.flashFirmware (fwSlots boot)

/-! ## Customer images (R487) -/

/-- The cores that a customer image may not take: vendor cores and those that run another image. -/
def State.coresTaken (s : State) : Nat := s.get SER.CORESTAT.VENDOR ||| s.get SER.CORESTAT.CUSTOMER

/-- A core starts its customer image, where CUSTEN allows. -/
def State.startCustomer (s : State) (c : Nat) : State := (s.setBit SER.CORESTAT.CUSTOMER c true).setBit SER.CORESTAT.RUN c (s.getBit SER.CUSTEN.EN c)

/-- A verified customer image in the staging area is loaded, or IMGFAIL (R487). The bytes from 0x40 stand at LOADADDR; their SHA-256 is IMGHASH. -/
def State.loadCustomer (s : State) : State :=
  let img := s.sramImage fwStaging
  let a := imgWord img 0x14 4
  let cores := fwCores img
  let code := img.drop 0x40
  if a < 0x20300000 ∨ 0x20380000 < a + imgLength img ∨ cores = 0 ∨ (cores &&& s.coresTaken) ≠ 0 then s.raise (srcSER 1)
  else
    let h := sha256 code
    let s := (s.unlive (srcSER 1)).sramPut a code
    let s := s.cairn 0x09 loaderOrigin (imgWord img 0x10 4) (imgWord img 0xC 4) 1
    (List.range 4).foldl (fun (s : State) (c : Nat) =>
      if cores.testBit c then
        let s := s.set (SER.IMGID.ID c) (imgWord img 0x10 4)
        let s := (List.range 8).foldl (fun s i => s.set (SER.IMGHASH.HASH c i) (leAt h (4 * i) 4)) s
        let s : State := { s with ser := { s.ser with images := SMap.set (0, 0) s.ser.images c (a, code.length) } }
        s.startCustomer c
      else s) s

/-- After a reset each customer image whose region still hashes to IMGHASH starts again (R487). -/
def State.restartCustomers (s : State) : State :=
  (List.range 4).foldl (fun (s : State) (c : Nat) =>
    let r := SMap.get (0, 0) s.ser.images c
    if r.2 ≠ 0 ∧ s.getBit SER.CORESTAT.VENDOR c = false ∧ sha256 (s.sramGet r.1 r.2) = hashRegs s (SER.IMGHASH.HASH c) then s.startCustomer c
    else s) s

/-! ## The role taken -/

/-- The address of a role: cells keep the one they hold, or none yet (R24, R27). -/
def State.takeAddress (s : State) (role member segment : Nat) : State :=
  let a := if role = 1 then 0x7C00 + 2 * segment + member else if role = 2 then 0x7E00 + member
    else if isCellAddr s.address then s.address else addrUnjoined
  if a = s.address then s else (s.set SYS.DEVADDR.ADDR a).set SYS.DEVADDR.POS 0xFF

def State.takeRole (s : State) (role member segment : Nat) : State :=
  let s := ((s.set CNV.ROLE.ROLE role).set CNV.ROLE.MEMBER member).set CNV.ROLE.SEGMENT segment
  ({ s with link := { s.link with role := role, member := member } }).takeAddress role member segment

/-- The cell's output stage once PWM is configured: Blocked, or Bypassed, dead times at their ceiling (R49, R204, R205). -/
def State.pwmReady (s : State) : State := { s with pwm := { s.pwm with configured := true } }.dtToCeil

/-- Contexts take their programs, bank 0 and routes (R264, R293). -/
def State.loadProgs (s : State) (ps : List LoopProg) : State :=
  -- the bytes over which PROGCRC runs are those of the sections' own layout, which the spec leaves open
  let s := ([0, 1, 2, 3].filter (fun e => ps.any (fun p => engineOf p.ctx == e))).foldl (fun (s : State) (e : Nat) =>
    let d := s.draw 32
    d.2.set (LPE.PROGCRC.CRC e) d.1) s
  ps.foldl (fun (s : State) (p : LoopProg) =>
    let x : CtxSt := { prog := p, coef := p.bank0.foldl (fun (m : Nat × SMap Nat) v => (m.1 + 1, SMap.set 0 m.2 m.1 v)) (0, []) |>.2 }
    (s.setCtx p.ctx x).engineStored (engineOf p.ctx) (fun w => (List.range 512).any (fun i => ctxWords p.ctx + i == w))) s

/-- The programs of LOOPS with the routes and destinations that ROUTING gives them. -/
def mergeProgs (loops routing : List LoopProg) : List LoopProg :=
  loops.map (fun p => (routing.filter (fun q => q.ctx == p.ctx)).foldl (fun p q => { p with routes := p.routes ++ q.routes, dests := p.dests ++ q.dests }) p)

/-! ## Application (R49) -/

/-- One write of the loader (R51): the window as if no lock stood. -/
def State.loaderWrite (s : State) (x : Nat × Nat × Nat) : State := s.regWrite loaderOrigin x.1 x.2.1 x.2.2

/-- LANES: each lane takes its mode, a lane not listed is Off (R20). -/
def State.applyLanes (s : State) (lanes : List (Nat × Nat)) : State :=
  (List.range 16).foldl (fun (s : State) (n : Nat) =>
    let m := ((lanes.find? (fun x => x.1 == n)).map (fun x => x.2)).getD 0
    s.loaderWrite ((LNK.CTRL.MODE n).addr, m, 3)) s

/-- Tick length and schedule offsets in force (R32, R33, R148). -/
def State.applySchedule (s : State) (x : Schedule) : State :=
  let s := (s.set TB.TICKLEN.TU (2 * x.tick)).set TB.SCHED0.TT x.tt
  ((s.set TB.SCHED0.TD x.td).set TB.SCHED1.TO x.to_).set TB.SCHED1.D x.apply

/-- What the device keeps of the canvas, and ENV and LPE as their sections configure them. -/
def State.applyOther (s : State) (img : List Byte) (bodies : List (SectHead × SectionBody)) : State :=
  let s := (bodies.filter (fun x => !([0x4, 0x3, 0x5, 0x2, 0xE, 0xF].contains x.1.typ))).foldl (fun s x => x.2.writes.foldl State.loaderWrite s) s
  let sys := bodyAt bodies 0x1
  let sysBytes := ((imgDir img).find? (fun h => h.typ == 0x1)).map (sectBytes img) |>.getD []
  let given := (bodyAt bodies 0xB).rings
  let rings := (List.range 12).map (fun r => ((given.find? (fun x => x.1 == r)).map (fun x => x.2)).getD 0)
  let progs := mergeProgs (bodyAt bodies 0x7).progs (bodyAt bodies 0x6).progs
  let c : CanvasSt :=
    { writes := imgWrites bodies, progs := progs, missed := sys.missed, noCentral := sys.noCentral, ptpDomain := sys.ptpDomain,
      ptpTimeout := if 2 ≤ sys.ptpTimeout ∧ sys.ptpTimeout ≤ 10 then sys.ptpTimeout else 3,
      security := sysBytes.drop (sysBytes.length - 224), rings := rings, ringEn := maskOf (fun r => decide (rings.getD r 0 ≠ 0)) 12,
      arms := imgArms bodies, bipole := imgBipole bodies, vpc := (bodyAt bodies 0x7).vpc, cNom := (bodyAt bodies 0x7).cNom,
      push := s.cnv.push }
  let s := (({ s with cnv := c } : State).applySchedule sys.sched).loadProgs progs
  if s.isCell then { s with sense := { s.sense with softActive := true } } else s

/-- A valid canvas applied (R49); `src`: CNV.STAT.SRC. -/
def State.applyCanvas (s : State) (img : List Byte) (src : Nat) : State :=
  let bodies := imgBodies img
  let h := sha256 img
  let oldver := s.get CNV.SECVER.SECVER
  let inst := (bodyAt bodies 0x3).blocks ||| fixedBlocks
  let s := (List.range 8).foldl (fun s i => s.set (CNV.HASH.HASH i) (leAt h (4 * i) 4)) (s.sramPut cnvActive img)
  let s := (bodyAt bodies 0x4).writes.foldl State.loaderWrite s
  let s := (bodyAt bodies 0x3).writes.foldl State.loaderWrite (s.set CNV.INST.INST inst)
  let s := (bodyAt bodies 0x5).writes.foldl State.loaderWrite s
  let s : State := { s with pin := { s.pin with released := true } }
  let s := s.takeRole (imgRole img) (if imgMember img = 1 then 1 else 0) (if imgRole img = 1 then imgSegment img else 0)
  let s := (bodyAt bodies 0x2).writes.foldl State.loaderWrite (s.applyLanes (bodyAt bodies 0x2).lanes)
  let s := s.applyOther img bodies
  let s := (bodyAt bodies 0xE).writes.foldl State.loaderWrite s
  let s := if s.isCell then s.pwmReady else s
  let s := s.set CNV.LOCK.LOCK ((bodyAt bodies 0xF).locks ||| (inst &&& (2 ^ bENV + 2 ^ bSAF)))
  let s := ((s.set CNV.ID.CANVAS_ID (imgWord img 0x14 4)).set CNV.SECVER.SECVER (imgWord img 0x10 4)).set CNV.PAIRTAG.PAIRTAG (imgWord img 0x1C 4)
  let s := (s.set CNV.STAT.SRC src).set SEC.BOOTSTAT.CNVKEY (imgKeyIdx img)
  let s := s.set CNV.SKIPPED.COUNT (((imgDir img).filter (fun h => !knownType h.typ && !h.critical)).length)
  let t := s.draw 32
  let s := (((t.2.set CNV.LOADTIME.US t.1).set CNV.STAT.LOADING 0).set CNV.STAT.PENDING 0).set CNV.STAT.ACTIVE 1
  let s := s.cairn 0x02 loaderOrigin (imgWord img 0x14 4) oldver (imgWord img 0x10 4)
  let s := (s.cairnCont 0x02 loaderOrigin h).closeAll.dropKeys.restartCustomers
  if s.flag GEO.CFG.AUTOARM then s.geoArm else s

/-- The fixed lane assignment of R20 in Basecamp: the lanes of the role on, the others Off; the lane that CLKM selects stays on, and L15 as it was
(DESIGN CHOICE, log entry 159). -/
def State.basecampLanes (s : State) : State :=
  (List.range 15).foldl (fun (s : State) (n : Nat) =>
    let on := if s.isCell then decide (n < 2) else if s.isHub then true else decide (n < 8)
    let m := if on then 1 else if n = clkmLane (s.get CLK.STAT.CLKM) then s.get (LNK.CTRL.MODE n) else 0
    if s.get (LNK.CTRL.MODE n) = m then s else (s.set (LNK.CTRL.MODE n) m).laneMode n) s

/-- The device runs Basecamp (R63, R64): its role from fuses, the default tick and schedule, the lanes of R20, nothing of an earlier canvas. CNV.LOCK
stays 0, for no LOCKS section is loaded (DESIGN CHOICE beside R55, log entry 160). -/
def State.enterBasecamp (s : State) : State :=
  let r := s.baseRole
  let seg := s.fuseBits 0x27 3 5
  let s : State := { s with cnv := { push := s.cnv.push } }
  let s := s.set CNV.INST.INST (fixedBlocks ||| blocksMust r.1 ||| 2 ^ bGEO)
  let s := ((s.set CNV.STAT.BASECAMP 1).set CNV.STAT.LOADING 0).set CNV.STAT.PENDING 0
  let s := ((s.takeRole r.1 r.2 (if r.1 = 1 ∧ seg ≤ 23 then seg else 0)).applySchedule {}).basecampLanes
  let s := s.set SER.CORESTAT.RUN (s.get SER.CORESTAT.RUN ||| 1)
  { s with pin := { s.pin with released := true } }

/-- The flash slots of a canvas in the order of R43: address and SRC. -/
def cnvSlots (boot : Nat) : List (Nat × Nat) := if boot = 0 then [(slotA, 0), (slotB, 1)] else if boot = 2 then [(slotB, 1), (slotA, 0)] else []

/-- The first valid slot applied, else Basecamp (R43). -/
def State.flashCanvas (s : State) : List (Nat × Nat) → State
  | [] => s.enterBasecamp
  | (a, src) :: rest =>
    let img := s.flashImage a
    let r := s.tryImage img 0x80000 none
    if r.1 then r.2.applyCanvas img src else r.2.flashCanvas rest

/-- The active copy in SRAM still has the hash of the canvas last applied (R61). -/
def State.activeGood (s : State) : Bool :=
  let img := s.sramImage cnvActive
  img != [] && sha256 img == hashRegs s CNV.HASH.HASH

/-- The loader's run (R43, R45, R60, R61, R448): firmware first, then a canvas, else Basecamp. It starts once the start-up is over and the root
has its clock (R411). -/
def State.load (s : State) : State :=
  if !s.flag CNV.STAT.LOADING || s.rst.overlap.isSome || !(s.flag CLK.STAT.LOCKED || s.flag CLK.STAT.HOLDOVER) then s
  else
    let s := { s with rst := { s.rst with starting := none } }.bootFirmware
    let boot := s.get RST.STRAPS.BOOT
    if boot = 3 then (s.set CNV.STAT.ERR 0x12).enterBasecamp
    else if !s.flag SEC.BOOTSTAT.FWOK then s.enterBasecamp
    else if s.flag CNV.STAT.PENDING then
      let img := s.sramGet cnvStaging s.cnv.push.len
      let r := s.tryImage img s.cnv.push.len (some s.cnv.push)
      -- the activation uses up the presented key (R478)
      let s : State := { r.2 with cnv := { r.2.cnv with push := {} } }
      if r.1 then s.applyCanvas (img.take (imgLength img)) 2
      else if s.activeGood then (s.set CNV.STAT.FALLBACK 1).applyCanvas (s.sramImage cnvActive) 3
      else s.enterBasecamp
    else if s.activeGood then s.applyCanvas (s.sramImage cnvActive) 3
    else s.flashCanvas (cnvSlots boot)

/-! ## After a block reset (R54) -/

/-- CNV writes the canvas values of the blocks again, presets included, before it releases them. -/
def State.rewriteBlocks (s : State) (blocks : Nat) : State :=
  if !s.active then s
  else
    let s := (s.cnv.writes.filter (fun x => blocks.testBit (blockOf x.1))).foldl State.loaderWrite s
    let s := if blocks.testBit bLPE then s.loadProgs s.cnv.progs else s
    let s := if blocks.testBit bPWM && s.isCell then s.pwmReady else s
    let s : State := if blocks.testBit bENV && s.isCell then { s with sense := { s.sense with softActive := true } } else s
    let s := if blocks.testBit bSER then
        let s := s.set SER.CORESTAT.RUN (s.get SER.CORESTAT.VENDOR)
        (List.range 4).foldl (fun (s : State) (c : Nat) => if s.getBit SER.CORESTAT.CUSTOMER c then s.startCustomer c else s) s
      else s
    if blocks.testBit bGEO && s.flag GEO.CFG.AUTOARM then s.geoArm else s

/-! ## Completed pushes -/

/-- The checks on a completed canvas push finish (R58). -/
def State.stageCheckDone (s : State) : State :=
  if !s.flag CNV.STAT.CHECKING then s
  else
    let p := s.cnv.push
    let img := s.sramGet cnvStaging p.len
    let r := s.tryImage img p.len (some p)
    let s := r.2.set CNV.STAT.CHECKING 0
    if r.1 then { s.set CNV.STAT.STAGED 1 with cnv := { s.cnv with push := { p with good := true, checking := false } } }
    else { s with cnv := { s.cnv with push := { p with good := false, checking := false } } }

/-- The checks on a completed firmware push finish (R448); a verified customer image loads (R487). -/
def State.fwStageCheckDone (s : State) : State :=
  let p := s.mgt.push
  if !p.checking then s
  else
    let img := s.sramGet fwStaging p.len
    let e := s.fwCheck img p.len (some p) none
    let s := s.noteCheck (img.take (imgLength img)) e
    match e with
    | some c => { s.set MGT.FWSTAT.ERR c with mgt := { s.mgt with push := { p with good := false, checking := false } } }
    | none =>
      let k := fwKind img
      let s := (s.set MGT.FWSTAT.STAGED 1).set MGT.FWSTAT.KIND k
      let s : State := { s with mgt := { s.mgt with push := { p with good := true, checking := false, kind := k } } }
      if k = 1 then s.loadCustomer else s

end Sys2Proof.Machine
end

