-- ==== Sys2Proof/Machine/Resets.lean ====
section
/-!
DEFINITION. Machine/Resets.lean: the reset sources at the pins and on the lanes, and the start-up at the end of an overlap (R403 to R412, R205,
R517).
-/

namespace Sys2Proof.Machine

/-! ## Pins and supplies -/

/-- A supply leaves its band, which asserts POR, or all are back inside (R403). -/
def State.supplyBand (s : State) (inBand : Bool) : State :=
  let s : State := { s with rst := { s.rst with supplyBad := !inBand } }
  if inBand then s else s.assertReset 0 3 0

/-- TESTEN takes a level; 1 holds POR asserted (R517). -/
def State.testenLevel (s : State) (high : Bool) : State :=
  let s : State := { s with rst := { s.rst with testen := high } }
  if high then s.assertReset 0 3 0 else s

/-- A filtered low level on nRESET (R406). -/
def State.nresetLow (s : State) : State :=
  if s.rst.pinLow then s
  else
    let s : State := { s with rst := { s.rst with pinLow := true, pinLowAt := s.time.cycles } }
    (s.inc RST.PINCNT.COUNT).assertReset 1 3 0

/-- nRESET has been high for `high` cycles: once for 2 µs (R406), and the time for which it was held low is stored in whole milliseconds (R408). -/
def State.nresetHigh (s : State) (high : Nat) : State :=
  if !s.rst.pinLow || decide (high < 400) then s
  else
    let held := s.time.cycles - high - s.rst.pinLowAt
    let ms := held / 200000
    let s : State := { s with rst := { s.rst with pinLow := false } }
    let s := s.set RST.LASTHELD.MS (if ms < 2 ^ 32 then ms else 2 ^ 32 - 1)
    if 200000000 < held then s.raise (srcRST 2) else s.unlive (srcRST 2)

/-! ## The link reset command (R409) -/

/-- The tag of a link reset command under key `k`. -/
def linkTag (k : List Byte) (dst src : Nat) (pay : List Byte) : List Byte := hmac256 k (toLE 2 dst ++ toLE 2 src ++ pay.take 12)

/-- Every check but KIND: PLEN, REACH, RCOUNT, TAG where a key is held. -/
def State.linkGood (s : State) (t : Txn) : Bool :=
  let reach := byteAt t.pay 1
  t.pay.length == 44 && decide (1 ≤ reach) && decide (reach ≤ 3) && decide (s.get RST.RCOUNT.COUNT < leAt t.pay 8 4) &&
    (match s.sec.rstKey with
     | some k => sliceB t.pay 12 32 == linkTag k t.dst t.src t.pay
     | none => true)

/-- A link reset command reaches the always-on forwarder; in Struck no lane runs. -/
def State.linkReset (s : State) (n : Nat) (f : Frame) : State :=
  if s.power = 3 then s
  else
    let a := s.mgmtTake n f
    let s := a.2
    let t := txnOf n f
    if !a.1 || byteAt t.pay 0 != 0xF0 then s
    else if s.linkGood t then
      let s := ((s.set RST.RCOUNT.COUNT (leAt t.pay 8 4)).inc RST.LINKCNT.COUNT).unlive (srcRST 0)
      s.assertReset 2 (byteAt t.pay 1) (leAt t.pay 2 3 % 2 ^ 23)
    else (s.inc RST.LINKREJ.COUNT).raise (srcRST 0)

/-! ## Start-up (R411) -/

/-- RST.STRAPS as one word. -/
def strapWord (x : Straps) : Nat := x.boot % 4 + 4 * (x.clkm % 4) + 16 * (x.lockdly % 4) + 64 * bit x.pairsen

/-- The straps sampled (R412): STRAPCHG when they differ from the sampling before. -/
def State.sampleStraps (s : State) (x : Straps) : State :=
  let w := strapWord x
  let changed := match s.rst.lastStraps with | some v => v != w | none => false
  let s := s.setReg RST.STRAPS.BOOT.addr (BitVec.ofNat 32 w)
  let s : State := { s with rst := { s.rst with lastStraps := some w } }
  if changed then s.raise (srcRST 1) else s.unlive (srcRST 1)

/-- BYP_RB read at a reset (R205): closed enters Bypassed; a cold reset that finds it open leaves it. -/
def State.bypRead (s : State) (closed cold : Bool) : State :=
  let s : State := { s.setFlag SAF.STAT.BYPCLOSED closed with saf := { s.saf with bypRb := closed, wasClosed := s.saf.wasClosed || closed } }
  if closed then (if s.saf.bypassed then s else s.enterBypassed)
  else if cold then
    let s : State := { s with saf := { s.saf with bypassed := false, wasClosed := false }, pwm := { s.pwm with full := 0 } }
    s.set PWM.STAT.STATE 0
  else s

/-- The reset entry of the Cairn log (R411, R460). -/
def State.logReset (s : State) (o : Origin) : State :=
  s.cairn 0x05 o (s.reg RST.CAUSE.CAUSE.addr).toNat ((s.reg RST.LAST.REACH.addr).toNat % 8 + 512 * s.get RST.LASTBLK.MASK)
    (s.reg SYS.RSTSRC.BLOCK.addr).toNat

/-- No source holds the device in reset. -/
def State.released (s : State) : Bool := !s.rst.supplyBad && !s.rst.testen && !s.rst.pinLow

/-- The clock after a reset of reach C (R355, R382, R404): its straps go into use, the CLKM lane runs, and the root locks to it again where it is
READY. -/
def State.relock (s : State) (x : Straps) : State :=
  let n := clkmLane (x.clkm % 4)
  let s := (s.set CLK.STAT.CLKM (x.clkm % 4)).set CLK.STAT.LOCKDLY (x.lockdly % 4)
  let s := (s.setFlag RED.STAT.SENIOR x.pairsen).set CLK.STAT.REF n
  let s := if s.get (LNK.CTRL.MODE n) = 0 then s.set (LNK.CTRL.MODE n) 1 else s
  if s.flag (LNK.STAT.READY n) then s.rootLock n else s.set CLK.STAT.LOCKED 0

/-- The end of an overlap (R407, R411). -/
def State.startUp (s : State) (x : Straps) : State :=
  match s.rst.overlap with
  | none => s
  | some o =>
    if !s.released then s
    else
      let s : State := { s with rst := { s.rst with overlap := none } }
      let s := (s.set RST.LAST.REACH o.reach).setFlag RST.LAST.PORFLAG o.por
      if o.reach = 1 then
        let s := (s.set RST.LASTBLK.MASK o.blocks).inc RST.BLKCNT.COUNT
        let s := if o.blocks.testBit bPWM || o.blocks.testBit bSAF then s.bypRead x.bypRb false else s
        (s.rewriteBlocks o.blocks).enables.logReset hwOrigin
      else
        let s := { s with rst := { s.rst with starting := some o } }.sampleStraps x
        let s := if o.reach = 3 then s.relock x else s
        let s := s.bypRead x.bypRb (o.reach == 3)
        let s := ((s.setFlag PIN.STAT.VIOA33 x.vioa33).setFlag PIN.STAT.VIOB33 x.viob33).showBanks
        let s := s.set SEC.STAT.RNGOK 1
        s.logReset loaderOrigin

end Sys2Proof.Machine
end

