-- ==== Sys2Proof/Machine/Service.lean ====
section
/-!
DEFINITION. Machine/Service.lean: the operations of R471 that serve remote accesses, pushes, flash, the log, captures and discovery; relaying
(R106, R371, R372); replies, retries and replays (R372, R477); the firmware services of R66, R298, R462 and R488; service calls (R486).
-/

namespace Sys2Proof.Machine

/-! ## READ, WRITE, TWRITE (R299, R471 to R473, R524) -/

/-- Bits of a word at `a`: 32 in the register windows, 64 in memory. -/
def wordBits (a : Nat) : Nat := if isWindow a then 32 else 64

/-- The registers whose writes need PERM bit 4, and those that need bit 5 (R457). -/
def fuseRegs : List Nat := [FUSE.PROGADDR.WORD.addr, FUSE.PROGDATA.MASK.addr, FUSE.PROGCMD.GO.addr]
def authorityRegs : List Nat := [PWR.CMD.SEQ.addr, SCR.ARMCTL.BLOCK.addr, TB.DOMSW.SEQ.addr, RED.YIELD.SEQ.addr]

/-- The PERM bits that a write of `n` bytes from `a` needs. -/
def writeMask (a n : Nat) : Nat :=
  let hits (l : List Nat) : Bool := l.any (fun r => decide (a < r + 4) && decide (r < a + n))
  2 + 16 * bit (hits fuseRegs) + 32 * bit (hits authorityRegs)

def readNeed (_ : Txn) : Need := .perm 1
def writeNeed (t : Txn) : Need := .perm (writeMask (t.at 0 4) (t.at 4 2 * (wordBits (t.at 0 4) / 8)))
def twriteNeed (t : Txn) : Need := .perm (writeMask (t.at 4 4) 4)

def readLen (t : Txn) : Bool :=
  let n := t.at 4 2
  decide (6 ≤ t.body.length) && decide (1 ≤ n) && decide (n ≤ 112) && decide (n * (wordBits (t.at 0 4) / 8) ≤ 456)

def writeLen (t : Txn) : Bool :=
  let n := t.at 4 2
  decide (8 ≤ t.body.length) && decide (1 ≤ n) && decide (n ≤ 112) && decide (8 + n * (wordBits (t.at 0 4) / 8) ≤ t.body.length)

/-- `n` words of `width` bits from `a`; false: a bus error ended the access, and the words before it are done. -/
def State.readWords (s : State) (o : Origin) (a width : Nat) : Nat → List Byte × Bool × State
  | 0 => ([], true, s)
  | n + 1 =>
    let r := s.busRead o a width
    match r.1 with
    | none => ([], false, r.2)
    | some v =>
      let rest := r.2.readWords o (a + width / 8) width n
      (toLE (width / 8) v ++ rest.1, rest.2)

/-- Words written one by one; false: a bus error ended the access. -/
def State.writeWords (s : State) (o : Origin) (a width : Nat) (bs : List Byte) : Nat → Bool × State
  | 0 => (true, s)
  | n + 1 =>
    let r := s.busWrite o a width (leAt bs 0 (width / 8)) allOnes false
    if r.1 then r.2.writeWords o (a + width / 8) width (bs.drop (width / 8)) n else r

def runRead (t : Txn) (_ : Nat) (s : State) : Answer × State :=
  let a := t.at 0 4
  let n := t.at 4 2
  let width := wordBits a
  if t.broadcast then (.status stOk, s)
  else if a < 0x20300000 ∧ 0x20280000 < a + n * (width / 8) then (.status stDenied, s)
  else
    let r := s.readWords (s.remoteOrigin t) a width n
    (.now (if r.2.1 then stOk else stBuserr) [r.1], r.2.2)

def runWrite (t : Txn) (_ : Nat) (s : State) : Answer × State :=
  let a := t.at 0 4
  let n := t.at 4 2
  let width := wordBits a
  if (List.range n).any (fun i => s.hostinDirect (a + i * (width / 8))) then (.status stDenied, s)
  else
    let r := s.writeWords (s.remoteOrigin t) a width (t.body.drop 8) n
    (.status (if r.1 then stOk else stBuserr), r.2)

/-- The HOSTIN registers that belong to a hub's segment sums (R299). -/
def State.sumRegs (s : State) (a : Nat) : Bool := s.isHub && (a == (LPE.HOSTIN.VALUE 30).addr || a == (LPE.HOSTIN.VALUE 31).addr)

def runTwrite (t : Txn) (_ : Nat) (s : State) : Answer × State :=
  let a := t.at 4 4
  let seq := t.at 0 2
  if !farEnough s.tick seq || !s.flag TB.STAT.ALIGNED || s.sumRegs a then (.status stDenied, s)
  else if s.timedFull then (.status stBusy, s)
  else (.status stOk, s.timedArm (namedTick s.tick seq) a (t.at 8 4) (t.at 12 4) (s.remoteOrigin t))

/-! ## Pushes (R58, R478) -/

/-- Which of the two pushes: canvas or firmware. -/
def State.push (s : State) (fw : Bool) : PushSt := if fw then s.mgt.push else s.cnv.push
def State.setPush (s : State) (fw : Bool) (p : PushSt) : State :=
  if fw then { s with mgt := { s.mgt with push := p } } else { s with cnv := { s.cnv with push := p } }

def stageLen (fw : Bool) : Fld := if fw then MGT.FWSTAGELEN.BYTES else CNV.STAGELEN.BYTES
def pushOpen (fw : Bool) : Fld := if fw then MGT.STAT.FWOPEN else MGT.STAT.PUSHOPEN
def staged (fw : Bool) : Fld := if fw then MGT.FWSTAT.STAGED else CNV.STAT.STAGED
def stagingBase (fw : Bool) : Nat := if fw then fwStaging else cnvStaging

/-- A completed push closes and its checks run (R58, R478). -/
def State.pushClose (s : State) (fw : Bool) (p : PushSt) : State :=
  let s := (s.set (pushOpen fw) 0).setPush fw { p with openNow := false, checking := true }
  if fw then s else s.set CNV.STAT.CHECKING 1

/-- Bytes appended at STAGELEN. -/
def State.pushAppend (s : State) (fw : Bool) (p : PushSt) (bs : List Byte) : State :=
  let len := p.len + bs.length
  let p := { p with len := len, lastTick := s.tick }
  let s := ((s.sramPut (stagingBase fw + p.len - bs.length) bs).set (stageLen fw) len).setPush fw p
  if len = p.total then s.pushClose fw p else s

/-- A push opens: what the area held is no longer staged, and checks of it are abandoned. -/
def State.pushStart (s : State) (fw : Bool) (src total : Nat) : PushSt × State :=
  let s := ((s.set (staged fw) 0).set (pushOpen fw) 1).set (stageLen fw) 0
  let s := if fw then s else s.set CNV.STAT.CHECKING 0
  let p : PushSt := { openNow := true, total := total, src := src, lastTick := s.tick }
  (p, s.setPush fw p)

def pushBytes (t : Txn) : List Byte := t.body.drop 8
def pushLen (t : Txn) : Bool := decide (8 ≤ t.body.length) && decide (t.at 0 4 + (pushBytes t).length ≤ 0x80000)

/-- OK with STAGELEN. -/
def State.pushOk (s : State) (fw : Bool) : Answer × State := (.now stOk [toLE 4 (s.get (stageLen fw))], s)

/-- A fragment of a push, canvas or firmware. -/
def runPush (fw : Bool) (t : Txn) (_ : Nat) (s : State) : Answer × State :=
  let off := t.at 0 4
  let total := t.at 4 4
  let bs := pushBytes t
  let p := s.push fw
  let fragment : Answer × State :=
    if off = p.len then
      (if p.total < off + bs.length then (.status stLenerr, s) else (s.pushAppend fw p bs).pushOk fw)
    else if off < p.len then s.pushOk fw
    else (.status stDenied, s)
  if s.flag CNV.STAT.LOADING then (.status stBusy, s)
  else if p.openNow then
    if off = 0 ∧ ¬(t.src = p.src ∧ total = p.total) then (.status stBusy, s) else fragment
  else if off = 0 then
    if 0x80000 < total ∨ total < bs.length then (.status stLenerr, s)
    else
      let q := s.pushStart fw t.src total
      (q.2.pushAppend fw q.1 bs).pushOk fw
  else if off < s.get (stageLen fw) then s.pushOk fw
  else (.status stDenied, s)

/-- A push without a fragment for 2^20 ticks closes without checks. -/
def State.pushTimeout (s : State) (fw : Bool) : State :=
  let p := s.push fw
  if p.openNow && decide (p.lastTick + 2 ^ 20 ≤ s.tick) then (s.set (pushOpen fw) 0).setPush fw { p with openNow := false } else s

/-- A public key for an open push (R446, R478): AREA, KEYIDX, key. -/
def runKeypres (t : Txn) (_ : Nat) (s : State) : Answer × State :=
  let fw := byteAt t.body 0 == 1
  let p := s.push fw
  if byteAt t.body 0 ≤ 1 ∧ p.openNow = true then (.status stOk, s.setPush fw { p with key := some (sliceB t.body 4 64) })
  else (.status stDenied, s)

def areaNeed (t : Txn) : Need := .perm (if byteAt t.body 0 = 1 then 8 else 4)

/-! ## Flash (R480) -/

/-- Flash offset of a slot: A, B, FA, FB. -/
def flashSlot (area slot : Nat) : Nat := if area = 0 then (if slot = 0 then slotA else slotB) else (if slot = 0 then 0x110000 else 0x190000)

def runFlashwr (t : Txn) (_ : Nat) (s : State) : Answer × State :=
  let area := byteAt t.body 0
  let slot := byteAt t.body 1
  let p := s.push (area == 1)
  if 1 < area ∨ 1 < slot ∨ p.good = false ∨ p.openNow = true then (.status stDenied, s)
  else if s.mgt.flashJob.isSome then (.status stBusy, s)
  else (.status stOk, { s.set MGT.STAT.FLASHBUSY 1 with mgt := { s.mgt with flashJob := some (area, slot) } })

/-- The copy has been written and verified; `bad`: the write or its verification failed, and the slot holds these bytes. -/
def State.flashDone (s : State) (bad : Option (List Byte)) : State :=
  match s.mgt.flashJob with
  | none => s
  | some (area, slot) =>
    let a := flashSlot area slot
    let s := match bad with
      | none => s.flashPut a (s.sramGet (stagingBase (area == 1)) (s.push (area == 1)).len)
      | some bs => s.flashPut a (bs.take 0x80000)
    let s : State := { s with mgt := { s.mgt with flashJob := none } }
    (((s.set MGT.STAT.FLASHBUSY 0).set MGT.FLASHSTAT.RESULT (if bad.isNone then 0 else 7)).set MGT.FLASHSTAT.SLOT slot).set MGT.FLASHSTAT.AREA area

/-- CACT: answered before the warm reset that it starts; refused under R59 it is answered with DENIED. -/
def runCact (t : Txn) (entry : Nat) (s : State) : Answer × State :=
  if s.activateCode = 0 then
    (.later, ((if t.broadcast then s.jDone entry [] else s.answerAll t entry stOk [[]] true).showContexts).canvasActivate)
  else (.status stDenied, s.canvasActivate)

/-! ## The log (R462) -/

def drainLen (t : Txn) : Bool :=
  let n := t.at 8 2
  decide (10 ≤ t.body.length) && (n == 0xFFFF || (decide (1 ≤ n) && decide (n ≤ 14)))

/-- Entries from START, as far as they still stand in the ring. -/
def runLogdrain (t : Txn) (_ : Nat) (s : State) : Answer × State :=
  let start := if t.at 0 8 = 2 ^ 64 - 1 then s.rdseq else t.at 0 8
  let n := if t.at 8 2 = 0xFFFF then 14 else t.at 8 2
  let first := if start + logEntries < s.wrseq then s.wrseq - logEntries else start
  let k := if s.wrseq ≤ first then 0 else if s.wrseq - first < n then s.wrseq - first else n
  (.now stOk [toLE 8 first ++ (List.range k).flatMap (fun i => s.logAt (first + i))], s)

/-- LOGACK: acts as a write of LOG.ACKSEQ; a refused one is answered with DENIED. -/
def runLogack (t : Txn) (_ : Nat) (s : State) : Answer × State :=
  let n := t.at 0 8
  (.status (if n < s.rdseq ∨ s.wrseq < n then stDenied else stOk), s.logAck (s.remoteOrigin t) n)

/-- The vendor firmware copies `n` entries from RDSEQ into the drain ring in flash. -/
def State.logFlashDrain (s : State) (n : Nat) (ok : Bool) : State :=
  if s.forwarderOnly || s.get SER.CORESTAT.VENDOR == 0 || !s.flag LOG.CTRL.FLASHEN then s
  else if !ok then s.raise (srcLOG 2)
  else
    let n := if s.wrseq - s.rdseq < n then s.wrseq - s.rdseq else n
    let size := s.get LOG.FLASHSIZE.BYTES
    let base := s.get LOG.FLASHBASE.ADDR
    let first := s.rdseq
    let s := (List.range n).foldl (fun s i =>
      if size = 0 then s else s.flashPut (base + 32 * (first + i) % size) (s.logAt (first + i))) s
    let s : State := { s with log := { s.log with flashed := s.log.flashed + n } }
    if n = 0 then s else s.logAck ⟨1, 0, 0xFF, 0xFF⟩ (first + n)

/-! ## Capture upload (R349) -/

/-- Bytes of slot `i` in use: the header and every region up to the end of its last held row. -/
def State.slotUsed (s : State) (i : Nat) : Nat :=
  let a := s.slotAddr i
  (List.range 4).foldl (fun m k =>
    let d := s.capGet (a + 0x80 + 32 * k) 32
    let cap := leAt d 4 4
    let first := leAt d 8 4
    let rows := leAt d 12 4
    let endRow := if cap < first + rows then cap else first + rows
    let e := leAt d 0 4 + endRow * leAt d 24 2
    if byteAt d 26 = 1 ∧ rows ≠ 0 ∧ m < e then e else m) 0x200

/-- A list cut into pieces of `n` bytes. -/
def pieces (n : Nat) (bs : List Byte) : List (List Byte) :=
  if bs.isEmpty then [[]] else (List.range ((bs.length + n - 1) / n)).map (fun i => sliceB bs (n * i) n)

/-- The upload locks its slot from its first served request; it ends with the request that reaches the end of the used part (R349). -/
def runCapup (t : Txn) (_ : Nat) (s : State) : Answer × State :=
  let i := byteAt t.body 0
  let off := t.at 4 4
  let used := s.slotUsed i
  let len := if t.at 8 4 = 0xFFFFFFFF then used - off else t.at 8 4
  if s.nrec ≤ i ∨ s.slotState i = 0 then (.status stDenied, s)
  else if s.slotSize < off + len then (.status stLenerr, s)
  else if s.slotState i = 1 then (.status stBusy, s)
  else
    let c := s.checkRange 1 (s.slotAddr i + off) len 0
    let s := c.2
    let bs := s.capGet (s.slotAddr i + off) len
    let bodies := (pieces 448 bs).zipIdx.map (fun p => toLE 4 (off + 448 * p.2) ++ p.1)
    let ended := decide (used ≤ off + len)
    let s := s.setSlotBit GEO.RECLOCK_LO.LOCK GEO.RECLOCK_HI.LOCK i (!ended)
    let s : State := { s with geo := { s.geo with upload := SMap.set 0 s.geo.upload i (if ended then 0 else s.tick + 1) } }
    (.now stOk bodies, if ended then s.stallRearm else s)

/-! ## Discovery (R21, R22, R26 to R28, R108, R482, R530) -/

/-- The body of a discovery reply: `lane` of arrival. R86 gives STATUS for cells; a hub shows PRESENT and BASECAMP (DESIGN CHOICE, log entry 193). -/
def State.discoverBody (s : State) (lane : Nat) : List Byte :=
  toLE 2 s.address ++ toLE 1 s.position ++ toLE 1 (s.get (LNK.STAT.HOPIN lane)) ++ toLE 1 ((s.reg CNV.ROLE.ROLE.addr).toNat % 256) ++
    toLE 1 s.pitchStage ++ s.serial ++ toLE 4 (s.get CNV.ID.CANVAS_ID) ++ toLE 4 (s.get SEC.FWID.ID) ++ toLE 2 (s.get SYS.SENIOR.ADDR) ++
    toLE 1 (if s.isCell then s.statusByte else 1 + 128 * bit s.basecamp) ++ [0]

/-- A cell takes address and position. -/
def State.takePos (s : State) (addr pos : Nat) : State := (s.set SYS.DEVADDR.ADDR addr).set SYS.DEVADDR.POS pos

/-- A discovery from the A end, or from the B end, has given the position: it stands against the other end for 65 536 ticks (R26; DESIGN CHOICE, log
entry 136). -/
def State.positionFrom (s : State) (endA : Bool) : State :=
  { s with link := if endA then { s.link with fromA := s.tick + 1 } else { s.link with fromB := s.tick + 1 } }
def State.lately (s : State) (mark : Nat) : Bool := mark != 0 && decide (s.tick < mark + 65536)

/-- A discovery from a hub reaches a cell on `lane` after `hop` devices (R21, R22, R26, R28). -/
def State.discoverCell (s : State) (lane hop : Nat) (t : Txn) : State :=
  let seg := byteAt t.body 0
  let ring := byteAt t.body 1
  let n := byteAt t.body 2
  let member := byteAt t.body 3 % 2
  let s := s.set SYS.SENIOR.ADDR (t.at 4 2)
  let at_ (p : Nat) : Nat := seg * 2 ^ 10 + ring * 2 ^ 6 + p
  if 23 < seg ∨ 11 < ring then s
  else if lane ≠ member then (if member = 0 then s.takePos addrUnjoined 0xFF else s)
  else if member = 0 then
    (if hop < 64 then (s.takePos (at_ hop) hop).positionFrom true
     else if s.lately s.link.fromB then s
     else s.takePos addrUnjoined 0xFF)
  else if s.lately s.link.fromA || n == 0 || decide (n < hop + 1) || decide (64 < n) then s
  else (s.takePos (at_ (n - (hop + 1))) (n - (hop + 1))).positionFrom false

/-- A trunk discovery from a central, or the host, reaches a hub. -/
def State.discoverHub (s : State) (lane hop : Nat) (t : Txn) : State :=
  let n := byteAt t.body 2
  let s := s.set SYS.SENIOR.ADDR (t.at 4 2)
  let pos (p : Nat) (a : Bool) : State := (s.set SYS.DEVADDR.POS p).positionFrom a
  if lane = 12 then pos hop true
  else if s.lately s.link.fromA then s
  else if n = 0 ∨ n < hop + 1 then pos 0xFF false
  else pos (n - (hop + 1)) false

/-- The discovery comes from where this device takes one: a cell from a hub, a hub from a central or the host on its trunk. -/
def State.discoverMine (s : State) (t : Txn) : Bool :=
  if s.isCell then isHubAddr t.src else s.isHub && s.isTrunkLane t.lane && (isCentralAddr t.src || t.src == addrHost)


/-- Hubs that the canvas of a central places on trunk ring `i`. -/
def State.trunkHubs (s : State) (i : Nat) : Nat := 2 * ((s.trunkArms i).filter (· < 12)).foldl (fun n a => n + (s.armSegments a).length) 0

/-- A mask with bit `n` cleared. -/
def dropBit (m n : Nat) : Nat := if m.testBit n then m - 2 ^ n else m

/-- Devices found on lane `n`, and the number that the canvas states for its ring (R26, R28): a difference is reported. -/
def State.foundOn (s : State) (n : Nat) : Nat := (s.mgt.cells.filter (fun e => e.1 / 128 == n)).length
def State.noteLength (s : State) (n : Nat) : State :=
  let want := s.cnv.rings.getD n 0
  let others := dropBit s.mgt.wrongLength n
  let bad := s.isHub && s.active && want != 0 && s.foundOn n != want
  { s with mgt := { s.mgt with wrongLength := others + 2 ^ n * bit bad } }

/-- A hub or central launches discovery into the ring or trunk ring of lane `n` (R26, R482, R530); what it had found there is found anew. -/
def State.discoverLaunch (s : State) (n : Nat) : State :=
  let senior := if s.senior then s.address else s.partner
  let go (body : List Byte) (s : State) : State :=
    let q := s.request opDiscover addrAll (body ++ toLE 1 s.member ++ toLE 2 senior) true
    q.2.2.sendOn n addrAll q.1
  if s.forwarderOnly || !s.hasRole then s
  else if (s.isHub && s.isRingLane n) || (s.isCentral && s.isTrunkLane n) then
    let s : State := { s with
      link := { s.link with launched := s.link.launched ||| 2 ^ n }
      mgt := { s.mgt with cells := s.mgt.cells.filter (fun e => e.1 / 128 != n), reversed := s.mgt.reversed.filter (fun k => k / 128 != n)
                          overLength := dropBit s.mgt.overLength n } }
    let s := s.noteLength n
    if s.isHub then go (toLE 1 s.segment ++ toLE 1 n ++ toLE 1 (if s.basecamp then 0 else s.cnv.rings.getD n 0)) s
    else go (toLE 1 0xFF ++ toLE 1 (n - 2) ++ toLE 1 (if s.basecamp then 0 else s.trunkHubs (n - 2))) s
  else s

/-- The discovery of a ring or trunk ring that Pitch makes (R26, R27, R416): once since the device's latest reset of reach W or wider, when its lane is UP. -/
def State.discoverOnce (s : State) (n : Nat) : State :=
  if s.laneUp n && !s.link.launched.testBit n && (!s.isHub || s.rings.contains n || decide (12 ≤ n)) then s.discoverLaunch n else s

/-- Discovery of every lane that is UP already as the load ends. -/
def State.discoverAll (s : State) : State := (List.range 12).foldl State.discoverOnce s

/-- The host commands the rediscovery of a ring (R27): a DISCOVER sent to the hub itself, whose RING names it (DESIGN CHOICE, log entry 175). -/
def State.rediscovers (s : State) (t : Txn) : Bool :=
  s.isHub && !t.broadcast && t.src == addrHost && t.dst == s.address && s.rings.contains (byteAt t.body 1)

def runDiscover (hop : Nat) (t : Txn) (entry : Nat) (s : State) : Answer × State :=
  if s.rediscovers t then (.now stOk [s.discoverBody t.lane], s.discoverLaunch (ringLane (byteAt t.body 1)))
  else if !s.discoverMine t then (.later, s.jDone entry [])
  else
    let s := if s.isCell then s.discoverCell t.lane hop t else s.discoverHub t.lane hop t
    (.now stOk [s.discoverBody t.lane], s)

/-- DISCOVER received: HOPIN of the lane is recorded when the frame is good (R83, R108), the rest as a request. -/
def State.discover (s : State) (n : Nat) (f : Frame) : State :=
  let t := txnOf n f
  let s := if t.op = opDiscover ∧ t.reply = false ∧ f.ftype = ftMgmt ∧ (s.rxFrame n f).1 = true then s.set (LNK.STAT.HOPIN n) f.hop else s
  s.serve n f opDiscover (fun _ => .free) (fun t => decide (6 ≤ t.body.length)) (runDiscover f.hop)

/-- A discovery reply reaches the device that launched it: it lists the cell, or a central the hub (R28, R66, R67); RINGLEN counts the cells found
(R171). A cell that has not joined is reported at its hop count: to member A as reversed (R21), and from hop 64 on its ring as over-length (R22). -/
def State.discovered (s : State) (t : Txn) : State :=
  let n := t.lane
  let addr := t.at 0 2
  let pos := byteAt t.body 2
  let hop := byteAt t.body 3
  let status := byteAt t.body 24
  if (s.isHub && s.isRingLane n) || (s.isCentral && s.isTrunkLane n) then
    let apart := addr == addrUnjoined || pos == 0xFF
    let key := if apart then 128 * n + 64 + hop % 64 else 128 * n + pos % 64
    let m := s.mgt
    let far := apart && decide (64 ≤ hop)
    let turned := s.isHub && apart && !far && s.member == 0
    let m := { m with
      cells := SMap.set 0 m.cells key (2 ^ 24 + addr + 2 ^ 16 * status)
      reversed := if turned then (128 * n + hop) :: m.reversed.filter (· != 128 * n + hop) else m.reversed
      overLength := if s.isHub && far then m.overLength ||| 2 ^ n else m.overLength }
    let s := ({ s with mgt := m } : State).noteLength n
    if s.isHub then s.set (ringLenFld n) (if s.foundOn n ≤ 64 then s.foundOn n else 64) else s
  else s

/-! ## Unlisted operations (R472) -/

def runBadop (_ : Txn) (_ : Nat) (s : State) : Answer × State := (.status stBadop, s)

/-! ## The journal query (R471, R481) -/

/-- The entry of a transaction executed here, by SRC, SESSID and CTR. -/
def State.jLook (s : State) (src sess ctr : Nat) : Option Nat :=
  (List.range 256).find? (fun i => decide (2 ≤ s.jState i) && s.jGet i 1 1 == 0 && s.jGet i 2 2 == src && s.jGet i 8 1 == sess &&
    s.jGet i 4 4 == ctr)

def runJquery (t : Txn) (_ : Nat) (s : State) : Answer × State :=
  match s.jLook (t.at 0 2) (byteAt t.body 2) (t.at 4 4) with
  | some i => (.now stOk (pieces 456 (s.jReply i)), s)
  | none => (.status stNotfound, s)

/-- 65 536 ticks after its reply a journal entry becomes acknowledged (R481). -/
def State.journalExpire (s : State) (i : Nat) : State :=
  let k := SMap.get 0 s.mgt.replied i
  if i < 256 ∧ s.jState i = 2 ∧ k ≠ 0 ∧ k + 65536 ≤ s.tick + 1 then (s.jSetState i 3).jCount else s

/-! ## Relaying (R25, R106, R371, R372, R474) -/

/-- The journal entry of a relayed request to which a reply belongs: the reply's session counter is its own (R454). -/
def State.relayEntry (s : State) (t : Txn) : Option Nat :=
  s.jOrder.find? (fun i => s.jState i == 1 && s.jGet i 1 1 == 1 && s.jGet i 2 2 == t.dst && s.jGet i 8 1 == t.sess &&
    s.jGet i 10 2 == t.src && s.jGet i 9 1 == t.op && (t.inSession || s.jGet i 4 4 == t.ctr))

/-- A reply passes: its journal entry is complete and its context free. -/
def State.replyPasses (s : State) (t : Txn) : State :=
  match s.relayEntry t with
  | none => s
  | some i =>
    let ctr := s.jGet i 4 4
    let s := s.jDone i t.pay
    if t.more then s
    else
      let s : State := { s with mgt := { s.mgt with relayed := s.mgt.relayed.filter (fun r =>
        !(r.src == t.dst && r.sess == t.sess && r.target == t.src && r.ctr == ctr)) } }
      s.showContexts

/-- The device relays unicast frames downwards: the primary (R371); in Basecamp and before its pair forms member A of a hub pair, and every central. -/
def State.relaysDown (s : State) : Bool :=
  s.redState == rsPrimary || ((s.basecamp || s.redState == rsForming) && (s.isCentral || s.member == 0))

/-- A request passes a member of a pair: journalled (R372), and, where this member relays it, given a context (R474). False: refused. -/
def State.journalRelay (s : State) (t : Txn) (relays : Bool) : Bool × State :=
  if t.reply then (true, s.replyPasses t)
  else if (s.jFind t 1).isSome then (true, s)
  else if relays && !s.ctxFree then (false, s.refuse t stBusy)
  else
    match s.jNew t 1 with
    | none => if relays then (false, (s.refuse t stBusy).raise (srcMGT 3)) else (true, s)
    | some (_, s) =>
      if relays then
        let x : RelayedSt := ⟨t.src, t.sess, t.ctr, t.dst, s.tick⟩
        let s : State := { s with mgt := { s.mgt with relayed := s.mgt.relayed ++ [x] } }
        (true, s.showContexts)
      else (true, s)

/-- The frame as it leaves after a relay; RELAYED is set on the cross-link (R101). -/
def State.relayOut (s : State) (lane : Nat) (f : Frame) (crossed : Bool) : State :=
  let f := passOn f false
  let f := { f with dir := s.launchDir lane }
  s.originate lane (if crossed then f.put 1 5 1 (f.field 1 5 1 % 256 ||| 1) else f)

/-- A hub routes a unicast Mgmt frame that is not its own. -/
def State.relayHub (s : State) (n : Nat) (f : Frame) : State :=
  let t := txnOf n f
  let crossed := t.mflags.testBit 0
  let mine := isCellAddr f.dst && decide (cellSegment f.dst = s.segment)
  if s.isTrunkLane n then
    if !mine then (s.journalRelay t false).2
    else
      let r := s.journalRelay t s.relaysDown
      if !s.relaysDown || !r.1 then r.2
      else if r.2.beyondWrap f.dst then r.2.relayOut 14 f true
      else r.2.relayOut (ringLane (cellRing f.dst)) f false
  else if n = 14 then
    if mine && crossed then
      let r := s.journalRelay t true
      if r.1 then r.2.relayOut (ringLane (cellRing f.dst)) f false else r.2
    else s
  else if f.dst = s.partner then (s.journalRelay t false).2.relayOut 14 f true
  else if mine then
    let r := s.journalRelay t true
    if !r.1 then r.2
    else if r.2.beyondWrap f.dst then r.2.relayOut 14 f true
    else r.2.relayOut (ringLane (cellRing f.dst)) f false
  else
    let r := s.journalRelay t (!t.reply)
    if r.1 then r.2.relayOut (if r.2.laneUp 12 then 12 else 13) f false else r.2

/-- The segment that an address lies in. -/
def addrSegment (a : Nat) : Nat := if isHubAddr a then (a - 0x7C00) / 2 else cellSegment a

/-- A central routes a unicast Mgmt frame that is not its own. -/
def State.relayCentral (s : State) (n : Nat) (f : Frame) : State :=
  let t := txnOf n f
  let crossed := t.mflags.testBit 0
  let host := n == 0 || n == 8
  let down (s : State) : State :=
    if f.dst = s.partner then s.relayOut 1 f true
    else if isCellAddr f.dst || isHubAddr f.dst then
      match s.segmentLane (addrSegment f.dst) with
      | some l => if l = n then s else s.relayOut l f false
      | none => if s.basecamp then [2, 3, 4, 5, 6, 7].foldl (fun s l => if l = n then s else s.relayOut l f false) s else s
    else s
  if host then
    -- the copy on the other host lane is discarded (R19)
    let c := s.takeCopy n 0 t.src (f.field 1 2 2) 1024
    if !c.1 then c.2
    else
      let r := c.2.journalRelay t c.2.relaysDown
      if c.2.relaysDown && r.1 then down r.2 else r.2
  else if f.dst = addrHost then
    let r := s.journalRelay t (!t.reply)
    if !r.1 then r.2
    else
      let s := r.2.relayOut 0 f false
      if s.get (LNK.CTRL.MODE 8) = 1 then s.relayOut 8 f false else s
  else if s.isTrunkLane n || crossed then
    let r := s.journalRelay t (s.relaysDown || crossed)
    if (s.relaysDown || crossed) && r.1 then down r.2 else r.2
  else s

/-- A Mgmt frame not addressed to this device (R25, R106). -/
def State.mgmtRelay (s : State) (n : Nat) (f : Frame) : State :=
  if s.isCell || f.dst == addrAll || f.dst == s.address then (s.mgmtTake n f).2
  else
    let r := s.rxFrame n f
    let s := r.2.forward n f (!r.1)
    if !(r.1 && decide (f.ftype = ftMgmt)) || s.forwarderOnly then s
    else
      let s := s.noteRoute n (f.field 1 0 2)
      if isReservedAddr f.dst then (if s.isHub && s.isTrunkLane n then s else s.inc (LNK.UNROUTE.COUNT n))
      else if s.isHub then s.relayHub n f
      else s.relayCentral n f

/-- The reply of a relayed request has not passed in time (R474). -/
def State.relayTimeout (s : State) (src sess ctr : Nat) : State :=
  let limit := s.get MGT.CTRL.TIMEOUT * (s.get MGT.CTRL.RETRIES + 1)
  let s : State := { s with mgt := { s.mgt with relayed := s.mgt.relayed.filter (fun r =>
    !(r.src == src && r.sess == sess && r.ctr == ctr && decide (r.tick + limit ≤ s.tick))) } }
  s.showContexts

/-! ## Requests of this device and their replies (R477) -/

/-- A frame with the payload `pay` to `dst`, of source `src`, and with TGTHOP `hop`. -/
def State.sendAs (s : State) (src dst hop : Nat) (pay : List Byte) : State :=
  let m := s.nextMseq
  let n := m.2.routeOwn dst
  let f := m.2.mgmtFrame n dst m.1 hop (m.2.ownFlags n dst) pay
  m.2.originate n (f.put 1 0 2 src)

/-- A READ of `n` words at `a` sent to a device; `hop` for an unjoined cell on `lane`. -/
def State.sendRead (s : State) (dst a n : Nat) (place : Option (Nat × Nat)) : Nat × State :=
  let q := s.request opRead dst (toLE 4 a ++ toLE 2 n) false
  let s := q.2.2
  match place with
  | none => s.sendRequest dst q.1 none
  | some (lane, hop) =>
    let c := s.freeCtx
    let m := s.nextMseq
    let s := m.2.originate lane (m.2.mgmtFrame lane dst m.1 hop 0 q.1)
    let x : SendSt := { ctx := c, dst := dst, payload := q.1, since := s.tick, launches := 1, hop := hop }
    let s : State := { s with mgt := { s.mgt with sends := s.mgt.sends.filter (fun (y : SendSt) => y.ctx != c) ++ [x] } }
    (c, s.showContexts)

/-- The capture assembly goes on with its next device, or replies (R488). -/
def State.asmNext (s : State) : State :=
  match s.mgt.asm with
  | none => s
  | some x =>
    match x.todo with
    | d :: _ =>
      if 56 * 8 ≤ x.found.length then s
      else
        let r := s.sendRead d GEO.LASTMARK.ID.addr 2 none
        { r.2 with mgt := { r.2.mgt with asm := some { x with ctx := r.1 } } }
    | [] =>
      let s : State := { s with mgt := { s.mgt with asm := none } }
      let pay := s.jTxn x.entry
      let t : Txn := ⟨x.lane, s.jGet x.entry 2 2, s.address, 0, pay, pay.drop 32⟩
      (s.answerAll t x.entry stOk [x.found] true).showContexts

/-- A record that a device holds of the Mark asked for. -/
def asmRecord (addr slot recnum : Nat) : List Byte := toLE 2 addr ++ toLE 1 slot ++ [0] ++ toLE 4 recnum

/-- The devices that a capture assembly reads: the cells of a hub's segment, the hubs of a central's trunks. -/
def State.asmDevices (s : State) : List Nat :=
  if s.isHub then (s.mgt.cells.filter (fun e => e.1 % 128 < 64)).map (fun e => e.2 % 2 ^ 16)
  else s.scr.hubs.map (fun e => 0x7C00 + e.1)

def runCapasm (t : Txn) (entry : Nat) (s : State) : Answer × State :=
  if s.isCell then (.status stDenied, s)
  else if s.mgt.asm.isSome then (.status stBusy, s)
  else if t.broadcast then (.status stOk, s)
  else
    let own := s.get GEO.LASTMARK.ID == t.at 0 4 && s.get GEO.LASTORIG.ORIGIN == t.at 4 2
    let found := if own then asmRecord s.address (s.get GEO.LASTREC.SLOT) (s.get GEO.RECNUM.NUM) else []
    let x : AsmSt := { entry := entry, lane := t.lane, markid := t.at 0 4, origin := t.at 4 2, todo := s.asmDevices, found := found }
    (.later, ({ s with mgt := { s.mgt with asm := some x } }).asmNext)

/-- The answer of the device being read, none when it gave none: its Mark first, then its latest record. -/
def State.asmAnswer (s : State) (a : Nat) (body : Option (List Byte)) : State :=
  match s.mgt.asm with
  | none => s
  | some x =>
    let d := x.todo.headD 0
    let next (found : List Byte) : State :=
      ({ s with mgt := { s.mgt with asm := some { x with todo := if 56 * 8 ≤ found.length then [] else x.todo.drop 1, found := found } } }).asmNext
    match body with
    | none => next x.found
    | some b =>
      if a = GEO.LASTMARK.ID.addr then
        if leAt b 0 4 = x.markid ∧ leAt b 4 2 = x.origin then
          let r := s.sendRead d GEO.LASTREC.SLOT.addr 2 none
          { r.2 with mgt := { r.2.mgt with asm := some { x with ctx := r.1 } } }
        else next x.found
      else next (x.found ++ asmRecord d (leAt b 0 4 % 64) (leAt b 4 4))

/-- A Basecamp hub's reading of a cell (R66): VCAP or TEMP of the cell with this key. -/
def State.polled (s : State) (x : SendSt) (a : Nat) (body : List Byte) : State :=
  let key (e : Nat × Nat) : Bool :=
    if x.dst = addrUnjoined then decide (64 ≤ e.1 % 128) && e.1 % 64 == x.hop else e.2 % 2 ^ 16 == x.dst
  match s.mgt.cells.find? key with
  | none => s
  | some e =>
    let k := 2 * e.1 + bit (a == ADC.TEMP.CODE.addr)
    { s with mgt := { s.mgt with polled := SMap.set 0 s.mgt.polled k (leAt body 0 4 + 1) } }

/-- What the end of one of this device's own requests does: the reading of a poll, the capture assembly's next step. `body`: none when the
request failed. -/
def State.sendEnds (s : State) (x : SendSt) (body : Option (List Byte)) : State :=
  let a := leAt x.payload 32 4
  let asm := match s.mgt.asm with | some y => y.ctx == x.ctx | none => false
  if byteAt x.payload 0 ≠ opRead then s
  else if asm then s.asmAnswer a body
  else match body with
    | some b => if a = ADC.VCAP.CODE.addr ∨ a = ADC.TEMP.CODE.addr then s.polled x a b else s
    | none => s

/-- The answer to a replay's query (R372): the target's recorded reply goes to the originator; a transaction that the target has not executed
goes to it again. -/
def State.replayed (s : State) (entry : Nat) (t : Txn) : State :=
  let src := s.jGet entry 2 2
  let target := s.jGet entry 10 2
  if t.status = stOk then
    let s := s.jDone entry t.body
    if t.body.isEmpty then s else s.sendAs target src 0xFF t.body
  else if t.status = stNotfound then s.sendAs src target 0xFF (s.jTxn entry)
  else s

/-- The send that a reply answers. -/
def State.sendOf (s : State) (t : Txn) : Option SendSt :=
  s.mgt.sends.find? (fun x => x.ended.isNone && x.dst == t.src && byteAt x.payload 0 == t.op && leAt x.payload 4 4 == t.ctr)

/-- A reply ends its request: a service call's send keeps it for POLL, whose reply address is an open value. -/
def State.replyTakes (s : State) (x : SendSt) (t : Txn) : State :=
  let others := s.mgt.sends.filter (fun (y : SendSt) => y.ctx != x.ctx)
  let s := if t.more then s else s.unlive (srcMGT 4)
  if t.more then s
  else if x.customer then
    let d := s.draw 32
    let y := { x with ended := some t.status, reply := t.pay, replyAddr := d.1 }
    let s : State := { d.2 with mgt := { s.mgt with sends := others ++ [y] } }
    s.showContexts
  else
    let s : State := { s with mgt := { s.mgt with sends := others } }
    let s := s.showContexts
    match x.replay with
    | some i => s.replayed i t
    | none => s.sendEnds x (if t.status = stOk then some t.body else none)

/-- A reply frame on lane `n`. -/
def State.replyReceive (s : State) (n : Nat) (f : Frame) : State :=
  let a := s.mgmtArrive n f
  let t := txnOf n f
  let s := a.2
  if !(a.1 && t.reply) then s
  else if t.op = opDiscover then s.discovered t
  else
    match s.sendOf t with
    | some x => s.replyTakes x t
    | none => s

/-- No reply within TIMEOUT ticks: the request goes out again with the same CTR and bytes, or ends (R477). -/
def State.replyTimeout (s : State) (ctx : Nat) : State :=
  match s.mgt.sends.find? (fun x => x.ctx == ctx && x.ended.isNone) with
  | none => s
  | some x =>
    let others := s.mgt.sends.filter (fun (y : SendSt) => y.ctx != ctx)
    if s.tick < x.since + s.get MGT.CTRL.TIMEOUT then s
    else if x.launches ≤ s.get MGT.CTRL.RETRIES then
      let s := (s.sendAs s.address x.dst x.hop x.payload).inc MGT.RETRYCNT.COUNT
      { s with mgt := { s.mgt with sends := others ++ [{ x with since := s.tick, launches := x.launches + 1 }] } }
    else
      let s := s.raise (srcMGT 4)
      let kept := if x.customer then others ++ [{ x with ended := some stBusy }] else others
      let s : State := { s with mgt := { s.mgt with sends := kept } }
      (s.showContexts).sendEnds x none

/-! ## Services of the vendor firmware -/

/-- A Basecamp hub reads VCAP and TEMP of a discovered cell while no tick events fire (R66); `key`: its place in the list of cells. -/
def State.basecampPoll (s : State) (key : Nat) : State :=
  let e := SMap.get 0 s.mgt.cells key
  if !(s.isHub && s.basecamp && !s.tickEvents && !s.forwarderOnly) || e == 0 then s
  else
    let place := if key % 128 < 64 then none else some (key / 128, key % 64)
    ((s.sendRead (e % 2 ^ 16) ADC.VCAP.CODE.addr 1 place).2.sendRead (e % 2 ^ 16) ADC.TEMP.CODE.addr 1 place).2

/-- A mean times a scale, and half a capacitance times a sum of squares, as binary32 of the exact value. -/
def scaled (x n d : Nat) : Nat :=
  match fpToRat (f32 x) with
  | some (p, q) => fpOfRat fmt32 (p * (n : Int)) (q * d)
  | none => f32nan

/-- The segment sums at the end of a tick k with k mod 4 = 3 (R298): the mean voltage and the energy in MJ, as timed writes for tick k + 5. -/
def State.segmentSums (s : State) : State :=
  let k := s.tick - (s.tick + 1) % 4
  let w := s.sweep
  let s := if s.isHub && s.inRun && !s.forwarderOnly then w.2 else s
  let sums := w.1
  if !(s.isHub && s.inRun && !s.forwarderOnly) || sums.slots == 0 then s
  else
    let mean := scaled s.cnv.vpc sums.codes sums.slots
    let v2 := match fpToRat (f32 s.cnv.vpc), fpToRat (f32 s.cnv.cNom) with
      | some (p, q), some (c, d) => fpOfRat fmt32 (c * p * p * (sums.squares : Int)) (2 * d * q * q * 1000000)
      | _, _ => f32nan
    let o : Origin := ⟨1, 0, 0xFF, 0xFF⟩
    let arm (s : State) (i v : Nat) : State :=
      if !s.flag TB.STAT.ALIGNED || decide (k + 5 < s.tick + 2) then s.stick MGT.TWSEQ.LATE
      else if s.timedFull then s.stick MGT.TWSEQ.FULL
      else s.timedArm (k + 5) (LPE.HOSTIN.VALUE i).addr v allOnes o
    arm (arm s 30 mean) 31 v2

/-! ## Service calls (R486) -/

/-- The core runs a customer image. -/
def State.customerCore (s : State) (core : Nat) : Bool := decide (core < 4) && s.isCustomer ⟨core + 1, 0, 0xFF, 0xFF⟩ && !s.inReset

def coreOrigin (core : Nat) : Origin := ⟨core + 1, 0, 0xFF, 0xFF⟩

/-- SEND: a transaction without session and group tag; the header's CTR is the image's. -/
def State.ecallSend (s : State) (core : Nat) (pay : List Byte) (dst : Nat) : State :=
  if !s.customerCore core then s
  else if pay.length < 32 ∨ 488 < pay.length ∨ 32 + leAt pay 8 2 ≠ pay.length then s.emit (.ecall core (-2) 0)
  else if !s.ctxFree then s.emit (.ecall core (-1) 0)
  else
    let pay := putBytes pay 0 (toLE 1 (byteAt pay 0) ++ toLE 1 0 ++ [0xFF, 0])
    let pay := putBytes pay 12 (zeroB 16)
    let r := s.sendRequest dst pay none
    let s : State := { r.2 with mgt := { r.2.mgt with sends := r.2.mgt.sends.map (fun x =>
      if x.ctx = r.1 ∧ x.ended.isNone = true then { x with customer := true } else x) } }
    s.emit (.ecall core 0 r.1)

/-- POLL: the reply address of a context, 0 while it waits. -/
def State.ecallPoll (s : State) (core ctx : Nat) : State :=
  if !s.customerCore core then s
  else
    match s.mgt.sends.find? (fun x => x.ctx == ctx && x.customer) with
    | none => s.emit (.ecall core (-6) 0)
    | some x =>
      match x.ended with
      | none => s.emit (.ecall core 0 0)
      | some st => s.emit (.ecall core (-(st : Int)) x.replyAddr)

/-- IRQREG: a handler for a source of R485. -/
def State.ecallIrqreg (s : State) (core src handler : Nat) : State :=
  if !s.customerCore core then s
  else if 23 < src then s.emit (.ecall core (-3) 0)
  else
    let s : State := { s with ser := { s.ser with handlers := SMap.set 0 s.ser.handlers (32 * core + src) (handler + 1) } }
    s.emit (.ecall core 0 0)

/-- NOTE: a customer note (R464). -/
def State.ecallNote (s : State) (core typ addr old new : Nat) : State :=
  if !s.customerCore core then s
  else
    let r := s.appendNote (coreOrigin core) typ addr old new
    r.2.emit (.ecall core (if r.1 then 0 else -3) 0)

/-- TIME: a snapshot under R127. -/
def State.ecallTime (s : State) (core : Nat) : State :=
  if !s.customerCore core then s
  else
    let s := s.snapshot
    s.emit (.ecall core 0 (s.get TB.SNAP_SHORT.COUNT))

/-- A core has retired no instruction for 2^20 cycles (R491). -/
def State.coreLock (s : State) (core : Nat) : State :=
  if s.getBit SER.CORESTAT.RUN core && !s.getBit SER.CORESTAT.HALTED core then s.raise (srcSER 2) else s

end Sys2Proof.Machine
end

