-- ==== Sys2Proof/Machine/Command.lean ====
section
/-!
DEFINITION. Machine/Command.lean: how a command ends, register writes that a command names, and what commands are composed of when more than one
block has a share in them.
-/

namespace Sys2Proof.Machine

/-- Every command ends with the events that Geode saw during it, and answers a next state. -/
def done (s : State) : Host.Outcome State Fault Refusal := .next s.settle

/-- One cycle of the 200 MHz clock (R1, R122): local time moves on, outputs that are free take what waits, turn-ons whose dead time is over act, and the enables close
1 µs after Run (R398), ELx after EHx (R248); REFOK follows its monitor (R216), PIN its balls (R495, R505, R521). -/
def idle (s : State) : Host.Outcome State Fault Refusal := done (s.cycle.closeLow.gateTick.openAfterRun.showRef.showPins)

/-- A write of `v` by `o` to the register of `f`, with the action bit `f` set. -/
def State.act (s : State) (o : Origin) (f : Fld) (v : Nat) : State := s.coreWrite o f.addr (v ||| 2 ^ f.lo)

/-- The local address of CNTCLR of block `b`; `lane`: which window of LNK. -/
def cntclrAddr (b lane : Nat) : Nat :=
  windowBase + 0x10000 * b +
    (if b = bLNK then 0x1000 * lane + 0xFC
     else if [bETH, bRED, bCLK, bPWR, bRST, bMGT].contains b then 0xFC
     else if [bPWM, bADC, bSAF, bLPE, bSYS, bSEC].contains b then 0x1FC
     else if b = bGEO then 0x6FC else 0x2FC)

/-- A request answered whatever the session (R456), and one that needs PERM bits. -/
def freeNeed (_ : Txn) : Need := .free
def permNeed (mask : Nat) (_ : Txn) : Need := .perm mask
def groupNeed (_ : Txn) : Need := .group

/-- The body holds at least `n` bytes (R475). -/
def bodyLen (n : Nat) (t : Txn) : Bool := decide (n ≤ t.body.length)

/-- The lane has come UP: a hub or central discovers its ring or trunk ring, once in a Pitch (R26, R27, R488). -/
def State.afterUp (s before : State) (n : Nat) : State := if !before.laneUp n && s.laneUp n then s.discoverOnce n else s

/-- The loader's run, after which the lanes that are UP already are discovered (R416). -/
def State.loadAll (s : State) : State :=
  let t := s.load
  if s.flag CNV.STAT.LOADING && !t.flag CNV.STAT.LOADING then t.discoverAll else t

/-- A read of a local address by `o`: its value, or a bus error, goes out (R8, R9, R394). -/
def State.answerRead (s : State) (o : Origin) (a width : Nat) : State :=
  let r := s.busRead o a width
  match r.1 with
  | some v => r.2.emit (.data o a v)
  | none => r.2

/-- A frame passes (R102, R106): a Mgmt frame under the routing table, any other from lane to lane. -/
def State.passFrame (s : State) (n : Nat) (f : Frame) : State := if f.ftype = ftMgmt then (s.mgmtTake n f).2 else (s.arrive n f).2

/-- k·T (R142): a cell's class with the estimator's boundary, the latches of SDM and a hub's arm current (R296), the latch of ETH, the contexts whose start
offset is 0. -/
def State.sampleInstant (s : State) : State :=
  if !s.tickEvents then s
  else if s.forwarderOnly then { s with sense := { s.sense with sampleDone := false, sampleTick := none } }
  else
    let k := s.tick
    let s : State := { s with sense := { s.sense with sampleDone := false, sampleTick := some k } }
    let s := if s.runs bADC then s.set ADC.TEMP.CODE s.tempCode else s
    let s := s.testTick
    let s := if s.isCell && s.runs bSCR then s.sampleCell k else s
    let s := if s.isCell && s.runs bENV then s.estimatorSample k else s
    let s := if s.runs bSDM then s.sdmLatch else s
    let s := if s.isHub && s.runs bSCR then s.sampleHub else s
    let s := if s.runs bETH then s.svLatch k else s
    let s := s.noteSample k
    if s.runs bLPE then
      (List.range 128).foldl (fun s c => if s.get (LPE.CTX_TIME.STARTOFF c) = 0 then s.startOrJoin c else s) s
    else s

/-- t_D: items of a state transfer that name this tick, the decision, the primary's items, the values that Geode keeps of it. -/
def State.decisionInstant (s : State) : State :=
  let k := s.tickAt s.offD
  let s := s.takeItems
  let t := s.screeDecision
  let t := t.serveScree k
  if s.isHub && s.runs bSCR && s.tickEvents && !s.basecamp && !s.forwarderOnly then t.noteDecision k else t

/-- t_O. -/
def State.orderInstant (s : State) (cmds : List (Nat × Nat × Nat × Nat)) : State :=
  let k := s.tickAt s.offO
  let s := s.takeItems.orderLaunch cmds
  if s.isHub && s.inst bGEO then s.noteTick k 0x0A 0 0 s.scr.iarm else s

/-- An Order at a cell, and the arm current that Geode keeps of the tick (R326). -/
def State.cellOrder (s : State) (n : Nat) (f : Frame) : State :=
  let s := s.orderReceive n f
  match s.scr.orders.head?, seqTick s.tick f.seq with
  | some o, some k => if o.tick = k ∧ s.inst bGEO = true then s.noteTick k 0x0A 0 0 s.pwm.iarm else s
  | _, _ => s

/-- The apply instant and the tick word that Geode keeps of it (R181, R326). -/
def State.applyTick (s : State) : State := (s.applyInstant).noteApply s (s.tickAt s.offApply)

/-- A conversion at a sample instant is the VCAP value of its tick (R326). -/
def State.noteVcap (s : State) (kind : ConvKind) : State :=
  if kind = .sample ∧ s.inst bGEO = true then s.noteTick s.tick 0x01 0 0 (s.get ADC.VCAPSI.CODE) else s

/-- A debug halt (R202): cores 0 to 3 service cores, 4 and 5 the safety pair, 6 to 9 loop engines. Refused while the fuses
lock debug. A halted safety pair opens the series enables (R248). A halted member of a pair enters FORMING (R374). -/
def State.debugHalt (s : State) (core : Nat) : State :=
  if s.dbgLock || decide (9 < core) || s.pwm.halted.testBit core then s
  else
    let s : State := { s with pwm := { s.pwm with halted := s.pwm.halted + 2 ^ core } }
    let s := if core < 4 then s.setBit SER.CORESTAT.HALTED core true
      else if 6 ≤ core then s.setBit LPE.STAT.HALTED (core - 6) true else s
    let s := if s.isCell || !s.runs bRED || s.forwarderOnly then s
      else { s.enterState rsForming with red := { s.red with formTick := none, formingSince := s.tick } }
    s.haltPwm.enables

/-- Every core has resumed: the cell waits for an Order accepted from now on (R202). -/
def State.debugResume (s : State) : State :=
  let s : State := { s with pwm := { s.pwm with halted := 0, releaseTick := if s.pwm.halted = 0 then s.pwm.releaseTick else none } }
  ((s.set SER.CORESTAT.HALTED 0).set LPE.STAT.HALTED 0).enables

/-- A compare unit fires and signals its consumer (R143, R218, R336); a pulse lasts 8 cycles. -/
def State.compareFire (s : State) (n : Nat) : State :=
  if !(s.flag (TB.CMP_CTRL.EN n) && (s.cmpReached n || s.time.lateFire.contains n)) then s
  else
    let dest := s.get (TB.CMP_CTRL.DEST n)
    let s := s.cmpFire n
    if dest = 1 then s.event 7 0 0
    else if dest = 2 then s.auxFire
    else if dest = 3 then { s with pin := { s.pin with pulse := SMap.set 0 s.pin.pulse n (s.time.cycles + 8) } }
    else s

/-- CLOCK_RETURN: once the safe state has ended, a record that was running is cut off and Geode is idle (R350). -/
def State.clockBack (s : State) : State :=
  let t := s.clockReturn
  if s.flag CLK.STAT.SAFE && !t.flag CLK.STAT.SAFE && s.geo.cur.isSome then (t.truncRecord).setGeo gIdle else t

/-- CALNOW with what the calibration of the spare line finds: the rest of the word is written, then the calibration runs (R191). -/
def State.calNow (s : State) (o : Origin) (v : Nat) (ok : Bool) (dev : Nat) : State :=
  let s := s.coreWrite o PWM.CTRL.CALNOW.addr (v &&& (allOnes - 2 ^ PWM.CTRL.CALNOW.lo))
  if s.answers bPWM then s.calibrate ok dev else s

/-- A write to CLK.GATE; `busy`: blocks whose bus port stays busy for 256 cycles (R392). -/
def State.gateCommand (s : State) (o : Origin) (v busy : Nat) : State :=
  if !s.answers bCLK then s else s.regStore o CLK.GATE.RUN.addr v allOnes busy

/-- FUSE.PROGCMD.GO with VFUSE in its band or not (R445). -/
def State.fuseCommand (s : State) (o : Origin) (v : Nat) (vfuse : Bool) : State :=
  let s : State := { s with fuse := { s.fuse with vfuse := vfuse } }
  s.act o FUSE.PROGCMD.GO v

/-- Bit `c` of SWAPREQn, or CTXc_CTL.SWAP (R286). -/
def State.swapCommand (s : State) (o : Origin) (c : Nat) (bulk : Bool) : State :=
  if bulk then s.coreWrite o (LPE.SWAPREQ.MASK (c / 32)).addr (2 ^ (c % 32)) else s.act o (LPE.CTX_CTL.SWAP c) 0

/-- A compare unit written: TARGET, else CTRL (R125, R143). -/
def State.compareWrite (s : State) (o : Origin) (n : Nat) (target : Bool) (v : Nat) : State :=
  s.coreWrite o (if target then (TB.CMP_TARGET.TARGET n).addr else (TB.CMP_CTRL.EN n).addr) v

/-- An operation that R471 does not list (R472); the link reset command is no such operation (R409). -/
def State.badop (s : State) (n : Nat) (f : Frame) : State :=
  let op := (txnOf n f).op
  if listedOps.contains op || op == 0xF0 then (s.mgmtArrive n f).2 else s.serve n f op freeNeed (fun _ => true) runBadop

end Sys2Proof.Machine
end

