-- ==== Sys2Proof/Machine/ResetCommands.lean ====
section
/-!
DEFINITION. Machine/ResetCommands.lean: the meanings of the commands of one family: resets (R403 to R411).
-/

namespace Sys2Proof.Machine

/-- POWER_ON_RESET (R403). A supply leaves or re-enters its band. -/
def execPowerOnReset (inBand : Bool) (s : State) : Host.Outcome State Fault Refusal := done (s.supplyBand inBand)

/-- NRESET_ASSERT (R406). A filtered low level on nRESET. -/
def execNresetAssert (s : State) : Host.Outcome State Fault Refusal := done (s.nresetLow)

/-- NRESET_RELEASE (R408). nRESET has been high for `high` cycles of 5 ns. -/
def execNresetRelease (high : Nat) (s : State) : Host.Outcome State Fault Refusal := done (s.nresetHigh high)

/-- TESTEN_HIGH (R517). TESTEN takes a level; 1 holds POR asserted. -/
def execTestenHigh (high : Bool) (s : State) : Host.Outcome State Fault Refusal := done (s.testenLevel high)

/-- LINK_RESET_COMMAND (R409). A link reset frame on lane `n`. -/
def execLinkResetCommand (n : Nat) (f : Frame) (s : State) : Host.Outcome State Fault Refusal := done (s.linkReset n f)

/-- SOFT_RESET (R403). RST.SWCMD written. -/
def execSoftReset (o : Origin) (reach : Nat) (s : State) : Host.Outcome State Fault Refusal := done (s.coreWrite o RST.SWCMD.REACH.addr reach)

/-- RESET_START_UP (R411). The start-up at the end of an overlap, with what the straps and the bypass read-back show. -/
def execResetStartUp (straps : Straps) (s : State) : Host.Outcome State Fault Refusal := done (s.startUp straps)

end Sys2Proof.Machine
end

