-- ==== Sys2Proof/Machine/CanvasCommands.lean ====
section
/-!
DEFINITION. Machine/CanvasCommands.lean: the meanings of the commands of one family: the canvas, pushes and flash (R43 to R61, R446 to R449, R478 to R480).
-/

namespace Sys2Proof.Machine

/-- CANVAS_LOAD (R49). The loader obtains, checks and applies a canvas. -/
def execCanvasLoad (s : State) : Host.Outcome State Fault Refusal := done (s.loadAll)

/-- CPUSH (R478). A canvas push fragment. -/
def execCpush (n : Nat) (f : Frame) (s : State) : Host.Outcome State Fault Refusal :=
  done (s.serve n f opCpush (permNeed 4) pushLen (runPush false))

/-- FWPUSH (R478). A firmware push fragment. -/
def execFwpush (n : Nat) (f : Frame) (s : State) : Host.Outcome State Fault Refusal :=
  done (s.serve n f opFwpush (permNeed 8) pushLen (runPush true))

/-- PUSH_TIMEOUT (R478). A push has received nothing for 2^20 ticks. -/
def execPushTimeout (firmware : Bool) (s : State) : Host.Outcome State Fault Refusal := done (s.pushTimeout firmware)

/-- STAGE_CHECK_DONE (R58). The checks on a completed canvas push finish. -/
def execStageCheckDone (s : State) : Host.Outcome State Fault Refusal := done (s.stageCheckDone)

/-- FW_STAGE_CHECK_DONE (R448). The checks on a completed firmware push finish. -/
def execFwStageCheckDone (s : State) : Host.Outcome State Fault Refusal := done (s.fwStageCheckDone)

/-- CANVAS_ACTIVATE (R59). CNV.CMD.ACTIVATE written, or CACT. -/
def execCanvasActivate (via : Via) (s : State) : Host.Outcome State Fault Refusal :=
  match via with
    | .write o v => done (s.act o CNV.CMD.ACTIVATE v)
    | .frame n f => done (s.serve n f opCact (permNeed 4) (bodyLen 0) runCact)

/-- CANVAS_DISCARD (R58). CNV.CMD.DISCARD written. -/
def execCanvasDiscard (o : Origin) (v : Nat) (s : State) : Host.Outcome State Fault Refusal := done (s.act o CNV.CMD.DISCARD v)

/-- KEYPRES (R446). A public key for an open push. -/
def execKeypres (n : Nat) (f : Frame) (s : State) : Host.Outcome State Fault Refusal :=
  done (s.serve n f opKeypres areaNeed (bodyLen 68) runKeypres)

/-- FLASHWR (R480). A flash write requested. -/
def execFlashwr (n : Nat) (f : Frame) (s : State) : Host.Outcome State Fault Refusal := done (s.serve n f opFlashwr areaNeed (bodyLen 2) runFlashwr)

/-- FLASH_WRITE_DONE (R480). The flash write ends; `bad`: it failed, and the slot holds these bytes. -/
def execFlashWriteDone (bad : Option (List Byte)) (s : State) : Host.Outcome State Fault Refusal := done (s.flashDone bad)

end Sys2Proof.Machine
end

