-- ==== Sys2Proof/Machine/AccessCommands.lean ====
section
/-!
DEFINITION. Machine/AccessCommands.lean: the meanings of the commands of one family: register and memory accesses without a row of their own (R3 to R9, R51, R56, R394, R522).
-/

namespace Sys2Proof.Machine

/-- REGISTER_WRITE (R3). A write of `width` bits at a local address. -/
def execRegisterWrite (o : Origin) (addr : Nat) (width : Nat) (value : Nat) (s : State) : Host.Outcome State Fault Refusal :=
  done ((s.busWrite o addr width value allOnes false).2)

/-- CNTCLR (R119). CNTCLR of a block, or of a lane, written. -/
def execCntclr (o : Origin) (block : Nat) (lane : Nat) (s : State) : Host.Outcome State Fault Refusal :=
  done (s.coreWrite o (cntclrAddr block lane) 1)

/-- LOW_WORD_READ (R394). A read of a local address; of the low word of a wide value it latches the upper word. -/
def execLowWordRead (o : Origin) (addr : Nat) (width : Nat) (s : State) : Host.Outcome State Fault Refusal := done (s.answerRead o addr width)

end Sys2Proof.Machine
end

