-- ==== Sys2Proof/Machine/LaneCommands.lean ====
section
/-!
DEFINITION. Machine/LaneCommands.lean: the meanings of the commands of one family: lanes, forwarding, Echo (R71 to R120, R477, R495).
-/

namespace Sys2Proof.Machine

/-- LANE_UP (R76). Block lock on lane `n`; a reference lane after a rate switch relocks the root (R388). -/
def execLaneUp (n : Nat) (s : State) : Host.Outcome State Fault Refusal := done (((s.laneLock n).rateRelock n).afterUp s n)

/-- LANE_DOWN (R76). Lane `n` loses block lock, or has seen 16 IDLE blocks with RXOK = 0. -/
def execLaneDown (n : Nat) (lostLock : Bool) (s : State) : Host.Outcome State Fault Refusal := done (s.laneGoesDown n lostLock)

/-- LANE_READY (R383). Lane `n` has held lock for the lock delay, or holds it no more. -/
def execLaneReady (n : Nat) (ready : Bool) (s : State) : Host.Outcome State Fault Refusal := done (s.laneReady n ready)

/-- LOS_ASSERT (R495). LOSn takes a level. -/
def execLosAssert (n : Nat) (level : Bool) (s : State) : Host.Outcome State Fault Refusal := done (s.losLevel n level)

/-- IDLE_FRAME (R75). An IDLE block on lane `n`: three bits of LSTAT, and what else it says of its sender. -/
def execIdleFrame (n : Nat) (rxok : Bool) (beacon : Bool) (inreset : Bool) (peer : IdlePeer) (s : State) : Host.Outcome State Fault Refusal :=
  done ((s.idleFrame n ⟨rxok, beacon, inreset, peer.wrap, peer.sender⟩).afterUp s n)

/-- FORWARD_FRAME (R102). A frame passes. -/
def execForwardFrame (n : Nat) (f : Frame) (s : State) : Host.Outcome State Fault Refusal := done (s.passFrame n f)

/-- FRAME_RELAUNCH (R477). The next opportunity of output `n`: what waits there goes out, an aborted frame again. -/
def execFrameRelaunch (n : Nat) (s : State) : Host.Outcome State Fault Refusal :=
  done ((s.drainLane n ((s.lane n).buffer.length + (s.lane n).waiting.length)).replyContexts s)

/-- RATECMD_ARM (R77). LNK.RATECMD.ARM of lane `n` written. -/
def execRatecmdArm (o : Origin) (n : Nat) (v : Nat) (s : State) : Host.Outcome State Fault Refusal := done (s.act o (LNK.RATECMD.ARM n) v)

/-- RATE_SWITCH (R77). RATEAT of lane `n` is reached. -/
def execRateSwitch (n : Nat) (s : State) : Host.Outcome State Fault Refusal := done (s.rateSwitch n)

/-- UNWRAP_ARM (R112). LNK.UNWRAP.ARM of lane `n` written. -/
def execUnwrapArm (o : Origin) (n : Nat) (v : Nat) (s : State) : Host.Outcome State Fault Refusal := done (s.act o (LNK.UNWRAP.ARM n) v)

/-- UNWRAP_TAKE_EFFECT (R112). The tick that UNWRAP of lane `n` names. -/
def execUnwrapTakeEffect (n : Nat) (s : State) : Host.Outcome State Fault Refusal := done (s.unwrapEffect n)

/-- ECHO_START (R114). LNK.ECHOCMD.START of lane `n` written. -/
def execEchoStart (o : Origin) (n : Nat) (v : Nat) (s : State) : Host.Outcome State Fault Refusal := done (s.act o (LNK.ECHOCMD.START n) v)

/-- ECHO_AUTO (R114). A multiple of 65 536 ticks, or the first UP at the full rate. -/
def execEchoAuto (n : Nat) (s : State) : Host.Outcome State Fault Refusal := done (s.echoAuto n)

/-- ECHO_REQUEST_SEND (R115). The request of this tick. -/
def execEchoRequestSend (n : Nat) (s : State) : Host.Outcome State Fault Refusal := done (s.echoRequestSend n)

/-- ECHO_REQUEST (R100). An Echo request, whose SOF arrived `age` time units ago. -/
def execEchoRequest (n : Nat) (f : Frame) (age : Nat) (s : State) : Host.Outcome State Fault Refusal := done (s.echoRequest n f age)

/-- ECHO_RESPONSE (R115). An Echo response. -/
def execEchoResponse (n : Nat) (f : Frame) (age : Nat) (s : State) : Host.Outcome State Fault Refusal := done (s.echoResponse n f age)

/-- ECHO_RESULT (R116). An Echo result. -/
def execEchoResult (n : Nat) (f : Frame) (s : State) : Host.Outcome State Fault Refusal := done (s.echoResult n f)

/-- ECHO_ABANDON (R115). 32 ticks without 8 exchanges. -/
def execEchoAbandon (n : Nat) (s : State) : Host.Outcome State Fault Refusal := done (s.echoAbandon n)

end Sys2Proof.Machine
end

