-- ==== Sys2Proof/Machine/ScreeCommands.lean ====
section
/-!
DEFINITION. Machine/ScreeCommands.lean: the meanings of the commands of one family: the tick: Tallies, decision, Orders (R23, R85 to R97, R110, R111, R149 to R176, R206, R364).
-/

namespace Sys2Proof.Machine

/-- SAMPLE_INSTANT (R142). k·T. -/
def execSampleInstant (s : State) : Host.Outcome State Fault Refusal := done (s.sampleInstant)

/-- TALLY_LAUNCH (R85). t_T. -/
def execTallyLaunch (s : State) : Host.Outcome State Fault Refusal := done (s.tallyLaunch)

/-- TALLY_PASS (R87). A ring Tally at a cell. -/
def execTallyPass (n : Nat) (f : Frame) (s : State) : Host.Outcome State Fault Refusal := done (s.tallyPass n f)

/-- RING_TALLY_ARRIVE (R96). A ring Tally at a hub member. -/
def execRingTallyArrive (n : Nat) (f : Frame) (s : State) : Host.Outcome State Fault Refusal := done (s.ringTallyArrive n f)

/-- CROSS_LINK_TALLY_RECEIVE (R111). The partner's cross-link Tally. -/
def execCrossLinkTallyReceive (f : Frame) (s : State) : Host.Outcome State Fault Refusal := done (s.crossTallyReceive f)

/-- TRUNK_TALLY_PASS (R91). A trunk Tally at a hub. -/
def execTrunkTallyPass (n : Nat) (f : Frame) (s : State) : Host.Outcome State Fault Refusal := done (s.trunkTallyHub n f)

/-- TRUNK_TALLY_ARRIVE (R176). A trunk Tally at a central. -/
def execTrunkTallyArrive (n : Nat) (f : Frame) (s : State) : Host.Outcome State Fault Refusal := done (s.trunkTallyArrive n f)

/-- SCREE_DECISION (R160). t_D. -/
def execScreeDecision (s : State) : Host.Outcome State Fault Refusal := done (s.decisionInstant)

/-- REFERENCE_LOSS_BLOCK (R307). REFBLOCK references in a row have been missed. -/
def execReferenceLossBlock (s : State) : Host.Outcome State Fault Refusal := done (s.referenceBlock)

/-- ORDER_LAUNCH (R162). t_O; `cmds`: Order commands by ring, as CMDPOS, CMD, CMDARG. -/
def execOrderLaunch (cmds : List (Nat × Nat × Nat × Nat)) (s : State) : Host.Outcome State Fault Refusal := done (s.orderInstant cmds)

/-- ORDER_RECEIVE (R90). A ring Order at a cell. -/
def execOrderReceive (n : Nat) (f : Frame) (s : State) : Host.Outcome State Fault Refusal := done (s.cellOrder n f)

/-- TRUNK_ORDER_RECEIVE (R364). A trunk Order at a hub. -/
def execTrunkOrderReceive (n : Nat) (f : Frame) (s : State) : Host.Outcome State Fault Refusal := done (s.trunkOrderReceive n f)

/-- CROSS_LINK_ORDER_RECEIVE (R359). The partner's cross-link Order. -/
def execCrossLinkOrderReceive (f : Frame) (s : State) : Host.Outcome State Fault Refusal := done (s.crossOrderReceive f)

/-- ORDER_MISSED (R167). The limit of R35 has passed without an Order that the cell can obey. -/
def execOrderMissed (s : State) : Host.Outcome State Fault Refusal := done (s.orderMissed)

/-- MISSED_ORDER_BLOCK (R23). MISSRUN has reached the missed-order count. -/
def execMissedOrderBlock (s : State) : Host.Outcome State Fault Refusal := done (s.missedOrderBlock)

/-- EXCLUDE (R175). Order command 0x10. -/
def execExclude (f : Frame) (s : State) : Host.Outcome State Fault Refusal := done (s.exclude f true)

/-- INCLUDE (R175). Order command 0x11. -/
def execInclude (f : Frame) (s : State) : Host.Outcome State Fault Refusal := done (s.exclude f false)

/-- SNAPREC (R175). Order command 0x12. -/
def execSnaprec (f : Frame) (s : State) : Host.Outcome State Fault Refusal := done (s.snaprec f)

/-- CLRCNT (R175). Order command 0x13. -/
def execClrcnt (f : Frame) (s : State) : Host.Outcome State Fault Refusal := done (s.clrcnt f)

/-- LOCALGRANT (R206). Order command 0x20. -/
def execLocalgrant (f : Frame) (s : State) : Host.Outcome State Fault Refusal := done (s.localGrant f)

/-- LOCALEND (R206). Order command 0x21. -/
def execLocalend (f : Frame) (s : State) : Host.Outcome State Fault Refusal := done (s.localEnd f)

/-- DTRESET (R189). Order command 0x22, or PWM.CTRL.DTRESET written. -/
def execDtreset (via : Via) (s : State) : Host.Outcome State Fault Refusal :=
  match via with
    | .write o v => done (s.act o PWM.CTRL.DTRESET v)
    | .frame _ f => done (if s.commanded f 0x22 then s.dtReset else s)

/-- BYPASS (R206). Order command 0x23. -/
def execBypass (f : Frame) (s : State) : Host.Outcome State Fault Refusal := done (s.bypassCmd f)

/-- ARMCTL_BLOCK_WRITE (R174). SCR.ARMCTL written. -/
def execArmctlBlockWrite (o : Origin) (v : Nat) (s : State) : Host.Outcome State Fault Refusal := done (s.coreWrite o SCR.ARMCTL.BLOCK.addr v)

/-- SEGMENT_SUM_SWEEP (R298). The end of a tick k with k mod 4 = 3. -/
def execSegmentSumSweep (s : State) : Host.Outcome State Fault Refusal := done (s.segmentSums)

end Sys2Proof.Machine
end

