-- ==== Sys2Proof/Machine/PwmCommands.lean ====
section
/-!
DEFINITION. Machine/PwmCommands.lean: the meanings of the commands of one family: cell switching (R178 to R208).
-/

namespace Sys2Proof.Machine

/-- APPLY_INSTANT (R181). k·T + D. -/
def execApplyInstant (s : State) : Host.Outcome State Fault Refusal := done (s.applyTick)

/-- TRIM_END (R184). The apply instant plus L′. -/
def execTrimEnd (s : State) : Host.Outcome State Fault Refusal := done (s.trimEndNow)

/-- SWING_CHECK (R188). The swing window of the edge with dead-time index `idx` ends; the VSW sample at its turn-off, and those after it, one each 2.5 ns, in 2^−20 codes. -/
def execSwingCheck (idx : Nat) (v0 : Int) (vsw : List Int) (s : State) : Host.Outcome State Fault Refusal := done (s.swingCheck idx (v0 :: vsw))

/-- LOCAL_DUTY_END (R194). The on-interval of the local generator ends. -/
def execLocalDutyEnd (s : State) : Host.Outcome State Fault Refusal := done (s.localDutyEnd)

/-- LOCAL_PERIOD_END (R194). A period of the local generator ends. -/
def execLocalPeriodEnd (s : State) : Host.Outcome State Fault Refusal := done (s.localPeriodEnd)

/-- GRANT_EXPIRE (R195). The ticks of a grant run out. -/
def execGrantExpire (s : State) : Host.Outcome State Fault Refusal := done (s.grantExpire)

/-- PWM_COMMIT (R196). PWM.CTRL.COMMIT written. -/
def execPwmCommit (o : Origin) (v : Nat) (s : State) : Host.Outcome State Fault Refusal := done (s.act o PWM.CTRL.COMMIT v)

/-- CALNOW (R191). PWM.CTRL.CALNOW written; the spare line is within its limits or not, with this deviation. -/
def execCalnow (o : Origin) (v : Nat) (ok : Bool) (dev : Nat) (s : State) : Host.Outcome State Fault Refusal := done (s.calNow o v ok dev)

/-- DELAY_LINE_CALIBRATION (R191). A multiple of 256 ticks: the spare line has been calibrated. -/
def execDelayLineCalibration (ok : Bool) (dev : Nat) (s : State) : Host.Outcome State Fault Refusal := done (s.calibrate ok dev)

/-- FORCE_WRITE (R199). PWM.FORCE written. -/
def execForceWrite (o : Origin) (v : Nat) (s : State) : Host.Outcome State Fault Refusal := done (s.coreWrite o PWM.FORCE.EN.addr v)

/-- SNAPAT_ARM (R208). PWM.SNAPAT.ARM written. -/
def execSnapatArm (o : Origin) (v : Nat) (s : State) : Host.Outcome State Fault Refusal := done (s.act o PWM.SNAPAT.ARM v)

/-- COUNTER_SNAPSHOT (R208). The apply instant that SNAPAT names. -/
def execCounterSnapshot (s : State) : Host.Outcome State Fault Refusal := done (s.counterSnapshot)

/-- DEBUG_HALT (R202). A core halts for debug. -/
def execDebugHalt (core : Nat) (s : State) : Host.Outcome State Fault Refusal := done (s.debugHalt core)

/-- DEBUG_RESUME (R202). Every core has resumed. -/
def execDebugResume (s : State) : Host.Outcome State Fault Refusal := done (s.debugResume)

end Sys2Proof.Machine
end

