-- ==== Sys2Proof/Machine/SensingCommands.lean ====
section
/-!
DEFINITION. Machine/SensingCommands.lean: the meanings of the commands of one family: converters, ledger, sigma-delta channels, capacitance (R211 to R238).
-/

namespace Sys2Proof.Machine

/-- VCAP_CONVERSION (R213). A VCAP conversion ends; its ideal result is r · 2^−20 codes. -/
def execVcapConversion (kind : ConvKind) (r : Int) (s : State) : Host.Outcome State Fault Refusal := done ((s.vcapConversion kind r).noteVcap kind)

/-- VCAP_CONVERSION_FAIL (R214). A VCAP conversion fails. -/
def execVcapConversionFail (kind : ConvKind) (s : State) : Host.Outcome State Fault Refusal := done ((s.convFails kind).noteVcap kind)

/-- SLE_TRIP (R238). ENERGY has been at or above ETRIP in ETRIPN conversions. -/
def execSleTrip (s : State) : Host.Outcome State Fault Refusal := done (s.sleTrip)

/-- VREF_OUT_OF_BAND (R216). VREFADC leaves or re-enters its band. -/
def execVrefOutOfBand (ok : Bool) (s : State) : Host.Outcome State Fault Refusal := done (s.vrefBand ok)

/-- AUX_CONVERSION (R219). AUX channel `n` has a result. -/
def execAuxConversion (n : Nat) (raw : Nat) (s : State) : Host.Outcome State Fault Refusal := done (s.auxConversion n raw)

/-- DIE_TEMP_CONVERSION (R211). The die sensor has a result. -/
def execDieTempConversion (code : Nat) (s : State) : Host.Outcome State Fault Refusal := done (s.dieTemp code)

/-- SDM_OUTPUT (R222). The sinc3 filter of channel `n` has an output; the bits sampled since the previous command of the channel, oldest first. -/
def execSdmOutput (n : Nat) (bits : List Bool) (s : State) : Host.Outcome State Fault Refusal := done (s.sdmOutput n bits)

/-- SDM_FAST_OUTPUT (R224). The fast filter of channel `n` has an output; the bits as above. -/
def execSdmFastOutput (n : Nat) (bits : List Bool) (s : State) : Host.Outcome State Fault Refusal := done (s.sdmFast n bits)

/-- SDM_STUCK (R223). Bits of channel `n` after which its stream has not changed for 64 clocks, or changes again. -/
def execSdmStuck (n : Nat) (bits : List Bool) (s : State) : Host.Outcome State Fault Refusal := done (s.sdmBits n bits)

/-- CAP_WINDOW_CLOSE (R232). 2^WLOG ticks have passed. -/
def execCapWindowClose (s : State) : Host.Outcome State Fault Refusal := done (s.windowClose)

/-- CAP_RESTART (R233). ENV.CCTL.RESTART written. -/
def execCapRestart (o : Origin) (v : Nat) (s : State) : Host.Outcome State Fault Refusal := done (s.act o ENV.CCTL.RESTART v)

/-- EPEAK_CLEAR (R228). ENV.CCTL.PKCLR written. -/
def execEpeakClear (o : Origin) (v : Nat) (s : State) : Host.Outcome State Fault Refusal := done (s.act o ENV.CCTL.PKCLR v)

end Sys2Proof.Machine
end

