-- ==== Sys2Proof/Machine/SafetyCommands.lean ====
section
/-!
DEFINITION. Machine/SafetyCommands.lean: the meanings of the commands of one family: the safety path (R238 to R256).
-/

namespace Sys2Proof.Machine

/-- HARD_SLV_TRIP (R242). A hard comparator trips. -/
def execHardSlvTrip (s : State) : Host.Outcome State Fault Refusal := done (s.hardTrip)

/-- DSAT_EVENT (R245). DSATn has been high for FILT while Gn is on. -/
def execDsatEvent (g : Nat) (s : State) : Host.Outcome State Fault Refusal := done (s.dsatEvent g)

/-- BYP_RB_CHANGE (R243). The filtered BYP_RB changes. -/
def execBypRbChange (closed : Bool) (s : State) : Host.Outcome State Fault Refusal := done (s.bypRbChange closed)

/-- BYPASS_CLOSURE_CHECK (R243). BYPTIME after the edge of BYP. -/
def execBypassClosureCheck (s : State) : Host.Outcome State Fault Refusal := done (s.bypClosureCheck)

/-- WATCHDOG_SERVICE (R247). SAF.WDOG written. -/
def execWatchdogService (o : Origin) (key : Nat) (s : State) : Host.Outcome State Fault Refusal := done (s.coreWrite o SAF.WDOG.KEY.addr key)

/-- WATCHDOG_EXPIRE (R246). The watchdog has not been serviced in time. -/
def execWatchdogExpire (s : State) : Host.Outcome State Fault Refusal := done (s.watchdogExpire)

/-- PAIR_MISMATCH (R254). The safety cores differ. -/
def execPairMismatch (s : State) : Host.Outcome State Fault Refusal := done (s.pairMismatch)

/-- ENABLE_READBACK_MISMATCH (R249). Filtered enable read-backs that differ from their commands. -/
def execEnableReadbackMismatch (rb : Nat) (s : State) : Host.Outcome State Fault Refusal := done (s.readbacks rb)

/-- COMPARATOR_SELF_TEST (R244). The test of one comparator; how it answered above and below its threshold. -/
def execComparatorSelfTest (above : Bool) (below : Bool) (s : State) : Host.Outcome State Fault Refusal := done (s.comparatorTest above below)

/-- TEST_PULSE_START (R250). A test falls due, or W is reached. -/
def execTestPulseStart (s : State) : Host.Outcome State Fault Refusal := done (s.testStart)

/-- TEST_PULSE_OPEN_CHECK (R251). TPDET after opening. -/
def execTestPulseOpenCheck (isOpen : Bool) (s : State) : Host.Outcome State Fault Refusal := done (s.testOpenCheck isOpen)

/-- TEST_PULSE_CLOSE (R251). TPLEN. -/
def execTestPulseClose (s : State) : Host.Outcome State Fault Refusal := done (s.testClose)

/-- TEST_PULSE_CLOSE_CHECK (R251). TPDET after closing. -/
def execTestPulseCloseCheck (closed : Bool) (s : State) : Host.Outcome State Fault Refusal := done (s.testCloseCheck closed)

/-- TEST_INCOMPLETE_TIMEOUT (R253). 65 536 ticks without a complete test of switch `n`. -/
def execTestIncompleteTimeout (n : Nat) (s : State) : Host.Outcome State Fault Refusal := done (s.testTimeout n)

/-- DISCHARGE_START (R255). ENV.DISCMD.START written. -/
def execDischargeStart (o : Origin) (v : Nat) (s : State) : Host.Outcome State Fault Refusal := done (s.act o ENV.DISCMD.START v)

/-- DISCHARGE_STOP (R255). ENV.DISCMD.STOP written. -/
def execDischargeStop (o : Origin) (v : Nat) (s : State) : Host.Outcome State Fault Refusal := done (s.act o ENV.DISCMD.STOP v)

/-- DISCHARGE_COMPARE (R255). A millisecond of the check has passed. -/
def execDischargeCompare (s : State) : Host.Outcome State Fault Refusal := done (s.dischargeCompare)

/-- DISCHARGE_TIMEOUT (R255). DISTIME has passed. -/
def execDischargeTimeout (s : State) : Host.Outcome State Fault Refusal := done (s.dischargeTimeout)

/-- BYPASS_PULSE_END (R243). The one-shot ends its pulse. -/
def execBypassPulseEnd (s : State) : Host.Outcome State Fault Refusal := done (s.bypPulseEnd)

/-- DSAT_RISE (R245). DSATn takes a level. -/
def execDsatRise (g : Nat) (high : Bool) (s : State) : Host.Outcome State Fault Refusal := done (s.dsatLevel g high)

end Sys2Proof.Machine
end

