-- ==== Sys2Proof/Machine/LoopCommands.lean ====
section
/-!
DEFINITION. Machine/LoopCommands.lean: the meanings of the commands of one family: loop engines (R264 to R293).
-/

namespace Sys2Proof.Machine

/-- CONTEXT_START (R266). The start instant of context `c`. -/
def execContextStart (c : Nat) (s : State) : Host.Outcome State Fault Refusal := done (s.startOrJoin c)

/-- CONTEXT_RUN (R268). Engine `e` is free. -/
def execContextRun (e : Nat) (s : State) : Host.Outcome State Fault Refusal := done (s.ctxRun e)

/-- CONTEXT_COMMIT (R283). The commit cycle of engine `e`. -/
def execContextCommit (e : Nat) (s : State) : Host.Outcome State Fault Refusal := done (s.commitServe e)

/-- CONTEXT_DEADLINE (R269). The deadline of a run of context `c`. -/
def execContextDeadline (c : Nat) (s : State) : Host.Outcome State Fault Refusal := done (s.ctxDeadline c)

/-- SWAP_REQUEST (R286). CTXc_CTL.SWAP, or with `bulk` bit c of SWAPREQn, written. -/
def execSwapRequest (o : Origin) (c : Nat) (bulk : Bool) (s : State) : Host.Outcome State Fault Refusal := done (s.swapCommand o c bulk)

/-- RESETST (R289). CTXc_CTL.RESETST written. -/
def execResetst (o : Origin) (c : Nat) (s : State) : Host.Outcome State Fault Refusal := done (s.act o (LPE.CTX_CTL.RESETST c) 0)

/-- COEF_APERTURE_WRITE (R285). Word `w` of the coefficient aperture written. -/
def execCoefApertureWrite (o : Origin) (w : Nat) (v : Nat) (s : State) : Host.Outcome State Fault Refusal :=
  done (s.coreWrite o (0x400F8000 + 4 * (w % 256)) v)

end Sys2Proof.Machine
end

