-- ==== Sys2Proof/Machine/TimeCommands.lean ====
section
/-!
DEFINITION. Machine/TimeCommands.lean: the meanings of the commands of one family: the time base (R122 to R144, R319).
-/

namespace Sys2Proof.Machine

/-- TIME_FRAME_LAUNCH (R131). A tick k with k mod 256 = 0. -/
def execTimeFrameLaunch (s : State) : Host.Outcome State Fault Refusal := done (s.launchTime)

/-- TIME_FRAME_RECEIVE (R132). A Time frame, whose SOF arrived `age` time units ago. -/
def execTimeFrameReceive (n : Nat) (f : Frame) (age : Nat) (s : State) : Host.Outcome State Fault Refusal := done (s.timeFrame n f age)

/-- DOMAIN_VALIDITY_EXPIRE (R138). 768 tick lengths without a frame of domain `x`. -/
def execDomainValidityExpire (x : Nat) (s : State) : Host.Outcome State Fault Refusal := done (s.expireDomain x)

/-- DOMSW_ARM (R139). TB.DOMSW.ARM written. -/
def execDomswArm (o : Origin) (v : Nat) (s : State) : Host.Outcome State Fault Refusal := done (s.act o TB.DOMSW.ARM v)

/-- DOMAIN_SWITCH (R140). The switch instant. -/
def execDomainSwitch (s : State) : Host.Outcome State Fault Refusal := done (s.domainInstant)

/-- TB_INCR_COMMIT (R129). TB.INCR_HI written. -/
def execTbIncrCommit (o : Origin) (hi : Nat) (s : State) : Host.Outcome State Fault Refusal := done (s.coreWrite o TB.INCR_HI.NS.addr hi)

/-- TB_STEP (R135). TB.SETCMD.STEP written. -/
def execTbStep (o : Origin) (v : Nat) (s : State) : Host.Outcome State Fault Refusal := done (s.act o TB.SETCMD.STEP v)

/-- TB_SNAPSHOT (R127). TB.SNAP.CAPTURE written. -/
def execTbSnapshot (o : Origin) (v : Nat) (s : State) : Host.Outcome State Fault Refusal := done (s.act o TB.SNAP.CAPTURE v)

/-- COMPARE_ARM (R143). TB.CMPn_TARGET, else TB.CMPn_CTRL, written. -/
def execCompareArm (o : Origin) (n : Nat) (target : Bool) (v : Nat) (s : State) : Host.Outcome State Fault Refusal :=
  done (s.compareWrite o n target v)

/-- COMPARE_FIRE (R143). Unit `n` reaches its target. -/
def execCompareFire (n : Nat) (s : State) : Host.Outcome State Fault Refusal := done (s.compareFire n)

end Sys2Proof.Machine
end

