-- ==== Sys2Proof/Machine/EthernetCommands.lean ====
section
/-!
DEFINITION. Machine/EthernetCommands.lean: the meanings of the commands of one family: PTP, sampled values, the Ethernet link (R72, R146, R147, R313 to R321).
-/

namespace Sys2Proof.Machine

/-- PTP_SYNC (R146). A Sync. -/
def execPtpSync (h : EthHead) (m : PtpMsg) (age : Nat) (s : State) : Host.Outcome State Fault Refusal := done (s.ptpSync h m age)

/-- PTP_ANNOUNCE (R146). An Announce. -/
def execPtpAnnounce (h : EthHead) (m : PtpMsg) (s : State) : Host.Outcome State Fault Refusal := done (s.ptpAnnounce h m)

/-- PTP_ANNOUNCE_TIMEOUT (R147). The announce receipt timeout. -/
def execPtpAnnounceTimeout (s : State) : Host.Outcome State Fault Refusal := done (s.ptpTimeout)

/-- PTP_PDELAY_REQ (R146). A Pdelay_Req. -/
def execPtpPdelayReq (h : EthHead) (m : PtpMsg) (age : Nat) (s : State) : Host.Outcome State Fault Refusal := done (s.pdelayReq h m age)

/-- PTP_PDELAY_INTERVAL (R146). The peer-delay interval. -/
def execPtpPdelayInterval (s : State) : Host.Outcome State Fault Refusal := done (s.pdelayInterval)

/-- PTP_PDELAY_RESP (R146). A Pdelay_Resp. -/
def execPtpPdelayResp (h : EthHead) (m : PtpMsg) (age : Nat) (s : State) : Host.Outcome State Fault Refusal := done (s.pdelayResp h m age)

/-- PAUSE_FRAME (R72). A PAUSE frame: counted, and discarded. -/
def execPauseFrame (h : EthHead) (s : State) : Host.Outcome State Fault Refusal := done ((s.ethRx h).2)

/-- SV_FRAME_RECEIVE (R314). A sampled-value frame. -/
def execSvFrameReceive (h : EthHead) (f : SvFrame) (age : Nat) (s : State) : Host.Outcome State Fault Refusal := done (s.svReceive h f age)

/-- SV_LOST (R316). Sample instants over 4 intervals of a stream without a pair. -/
def execSvLost (stream : Nat) (s : State) : Host.Outcome State Fault Refusal := done (s.svLost stream)

/-- ETH_LINK_CHANGE (R321). The L15 link comes up or goes down. -/
def execEthLinkChange (up : Bool) (speed : Nat) (andone : Bool) (s : State) : Host.Outcome State Fault Refusal := done (s.ethLink up speed andone)

end Sys2Proof.Machine
end

