-- ==== Sys2Proof/Machine/GeodeCommands.lean ====
section
/-!
DEFINITION. Machine/GeodeCommands.lean: the meanings of the commands of one family: captures (R322 to R350, R488).
-/

namespace Sys2Proof.Machine

/-- MARK_RECEIVE (R339). A Mark. -/
def execMarkReceive (n : Nat) (f : Frame) (s : State) : Host.Outcome State Fault Refusal := done (s.markReceive n f)

/-- MARK_TAT_REACHED (R340). The TAT of an accepted Mark. -/
def execMarkTatReached (s : State) : Host.Outcome State Fault Refusal := done (s.markFires)

/-- GEO_ROW_LATCH (R325). A base row; VSW sample, in 2^−20 codes, and half of a tick for the bases that take them. -/
def execGeoRowLatch (vsw : Int) (half : Bool) (s : State) : Host.Outcome State Fault Refusal := done (s.rowLatch vsw half)

/-- RECORD_PROCESSING_DONE (R344). Measurement and mask testing of a record finish. -/
def execRecordProcessingDone (s : State) : Host.Outcome State Fault Refusal := done (s.processDone)

/-- GEO_ARM (R331). GEO.CMD.ARM written. -/
def execGeoArm (o : Origin) (v : Nat) (s : State) : Host.Outcome State Fault Refusal := done (s.act o GEO.CMD.ARM v)

/-- GEO_STOP (R335). GEO.CMD.STOP written. -/
def execGeoStop (o : Origin) (v : Nat) (s : State) : Host.Outcome State Fault Refusal := done (s.act o GEO.CMD.STOP v)

/-- GEO_TRIG (R336). GEO.CMD.TRIG written. -/
def execGeoTrig (o : Origin) (v : Nat) (s : State) : Host.Outcome State Fault Refusal := done (s.act o GEO.CMD.TRIG v)

/-- GEO_MARK (R341). GEO.CMD.MARK written. -/
def execGeoMark (o : Origin) (v : Nat) (s : State) : Host.Outcome State Fault Refusal := done (s.act o GEO.CMD.MARK v)

/-- GEO_FREE (R343). GEO.CMD.FREE written. -/
def execGeoFree (o : Origin) (v : Nat) (s : State) : Host.Outcome State Fault Refusal := done (s.act o GEO.CMD.FREE v)

/-- GEO_STALL_REARM (R342). A slot has been released. -/
def execGeoStallRearm (s : State) : Host.Outcome State Fault Refusal := done (s.stallRearm)

/-- CAPUP (R349). A capture upload. -/
def execCapup (n : Nat) (f : Frame) (s : State) : Host.Outcome State Fault Refusal :=
  done (s.serve n f opCapup (permNeed 128) (bodyLen 12) runCapup)

/-- RECLOCK_TIMEOUT (R349). 65 536 ticks without a request for the slot. -/
def execReclockTimeout (slot : Nat) (s : State) : Host.Outcome State Fault Refusal := done (s.reclockTimeout slot)

/-- CAPASM (R488). A capture assembly. -/
def execCapasm (n : Nat) (f : Frame) (s : State) : Host.Outcome State Fault Refusal :=
  done (s.serve n f opCapasm (permNeed 128) (bodyLen 6) runCapasm)

end Sys2Proof.Machine
end

