-- ==== Sys2Proof/Machine/PairCommands.lean ====
section
/-!
DEFINITION. Machine/PairCommands.lean: the meanings of the commands of one family: pairs and takeover (R353 to R377).
-/

namespace Sys2Proof.Machine

/-- HELLO (R357). A pair-hello. -/
def execHello (n : Nat) (f : Frame) (s : State) : Host.Outcome State Fault Refusal := done (s.hello n f)

/-- PAIR_HELLO_SEND (R356). 256 ticks have passed. -/
def execPairHelloSend (s : State) : Host.Outcome State Fault Refusal := done (s.helloSend)

/-- PAIR_FORM (R357). The tick that FORMSEQ names. -/
def execPairForm (s : State) : Host.Outcome State Fault Refusal := done (s.pairForm)

/-- FORM_WAIT_EXPIRE (R357). FORMWAIT × 256 ticks without a pair-hello. -/
def execFormWaitExpire (s : State) : Host.Outcome State Fault Refusal := done (s.formWait)

/-- HEARTBEAT_DEADLINE (R361). t_O of tick k + 1. -/
def execHeartbeatDeadline (s : State) : Host.Outcome State Fault Refusal := done (s.heartbeatDeadline)

/-- RED_YIELD_ARM (R369). RED.YIELD.ARM written. -/
def execRedYieldArm (o : Origin) (v : Nat) (s : State) : Host.Outcome State Fault Refusal := done (s.act o RED.YIELD.ARM v)

/-- YIELD_TAKE_EFFECT (R369). t_O of the tick that a yield names. -/
def execYieldTakeEffect (s : State) : Host.Outcome State Fault Refusal := done (s.yieldEffect)

/-- RED_JOIN (R374). RED.CMD.JOIN written. -/
def execRedJoin (o : Origin) (v : Nat) (s : State) : Host.Outcome State Fault Refusal := done (s.act o RED.CMD.JOIN v)

/-- RED_RELEASE (R357). RED.CMD.RELEASE written. -/
def execRedRelease (o : Origin) (v : Nat) (s : State) : Host.Outcome State Fault Refusal := done (s.act o RED.CMD.RELEASE v)

/-- XFER (R375). A state-transfer notice and the item in it. -/
def execXfer (n : Nat) (f : Frame) (item : XferItem) (s : State) : Host.Outcome State Fault Refusal := done (s.xferNotice n f item)

/-- TRANSFER_ADMISSION_TIMEOUT (R375). 1024 runs of context `c` without admission. -/
def execTransferAdmissionTimeout (c : Nat) (s : State) : Host.Outcome State Fault Refusal := done (s.admissionTimeout c)

/-- JQUERY (R471). A journal query. -/
def execJquery (n : Nat) (f : Frame) (s : State) : Host.Outcome State Fault Refusal := done (s.serve n f opJquery groupNeed (bodyLen 8) runJquery)

/-- RING_ORDER_ARRIVE (R360). The partner's ring Order at this end. -/
def execRingOrderArrive (n : Nat) (f : Frame) (s : State) : Host.Outcome State Fault Refusal := done (s.ringOrderArrive n f)

/-- TRUNK_ORDER_ARRIVE (R360). The partner's trunk Order at this end. -/
def execTrunkOrderArrive (n : Nat) (f : Frame) (s : State) : Host.Outcome State Fault Refusal := done (s.trunkOrderArrive n f)

end Sys2Proof.Machine
end

