-- ==== Sys2Proof/Machine/ClockCommands.lean ====
section
/-!
DEFINITION. Machine/ClockCommands.lean: the meanings of the commands of one family: clocks and power (R382 to R398).
-/

namespace Sys2Proof.Machine

/-- REFERENCE_LOSS (R384). The reference lane is lost. -/
def execReferenceLoss (s : State) : Host.Outcome State Fault Refusal := done (s.referenceLoss)

/-- HOLDOVER_EXPIRE (R389). Holdover runs out. -/
def execHoldoverExpire (s : State) : Host.Outcome State Fault Refusal := done (s.holdoverExpire)

/-- CLOCK_STOP (R389). The root output has stopped. -/
def execClockStop (s : State) : Host.Outcome State Fault Refusal := done (s.clockStop)

/-- CLOCK_RETURN (R390). The clock lane is READY after a loss, or one lock delay has passed since the root relocked. -/
def execClockReturn (s : State) : Host.Outcome State Fault Refusal := done (s.clockBack)

/-- SRCSEL_GO (R385). CLK.SRCSEL.GO written. -/
def execSrcselGo (o : Origin) (v : Nat) (s : State) : Host.Outcome State Fault Refusal := done (s.act o CLK.SRCSEL.GO v)

/-- REFERENCE_SWITCH_DONE (R385). A reference switch completes. -/
def execReferenceSwitchDone (s : State) : Host.Outcome State Fault Refusal := done (s.switchDone)

/-- RING_CLOCK_SERVICE (R387). Ring or trunk ring `r` has entered BROKEN. -/
def execRingClockService (r : Nat) (s : State) : Host.Outcome State Fault Refusal := done (s.ringClockService r)

/-- FREQUENCY_METER_START (R391). CLK.FMCFG.START written. -/
def execFrequencyMeterStart (o : Origin) (v : Nat) (s : State) : Host.Outcome State Fault Refusal := done (s.act o CLK.FMCFG.START v)

/-- FREQUENCY_METER_DONE (R391). The meter has counted `count` edges. -/
def execFrequencyMeterDone (count : Nat) (s : State) : Host.Outcome State Fault Refusal := done (s.meterDone count)

/-- CLOCK_GATE_WRITE (R392). CLK.GATE written; `busy`: blocks whose port does not become idle. -/
def execClockGateWrite (o : Origin) (v : Nat) (busy : Nat) (s : State) : Host.Outcome State Fault Refusal := done (s.gateCommand o v busy)

/-- PWR_CMD_ARM (R397). PWR.CMD.ARM written. -/
def execPwrCmdArm (o : Origin) (v : Nat) (s : State) : Host.Outcome State Fault Refusal := done (s.act o PWR.CMD.ARM v)

/-- POWER_TRANSITION (R398). The instant of a power command. -/
def execPowerTransition (s : State) : Host.Outcome State Fault Refusal := done (s.powerInstant)

/-- POWER_TRANSITION_DONE (R398). A power transition completes. -/
def execPowerTransitionDone (s : State) : Host.Outcome State Fault Refusal := done (s.powerDone)

end Sys2Proof.Machine
end

