-- ==== Sys2Proof/Machine/FaultCommands.lean ====
section
/-!
DEFINITION. Machine/FaultCommands.lean: the meanings of the commands of one family: memory and register checks (R427 to R437).
-/

namespace Sys2Proof.Machine

/-- SCRUB_READ (R432). The scrubber of memory `mem` reads a word in which `struck` bits are wrong in truth. -/
def execScrubRead (mem : Nat) (struck : Nat) (s : State) : Host.Outcome State Fault Refusal := done (s.scrubRead mem struck)

/-- SCRUB_PASS_END (R432). A scrub pass ends. -/
def execScrubPassEnd (mem : Nat) (s : State) : Host.Outcome State Fault Refusal := done (s.scrubPassEnd mem)

/-- PARITY_SWEEP (R433). The sweep over critical registers; `struck`: those with a bit wrong in truth. -/
def execParitySweep (struck : List Nat) (s : State) : Host.Outcome State Fault Refusal := done (s.paritySweep struck)

/-- INJECTION_ARM (R436). SYS.INJCTL.ARM written. -/
def execInjectionArm (o : Origin) (v : Nat) (s : State) : Host.Outcome State Fault Refusal := done (s.act o SYS.INJCTL.ARM v)

/-- PENDING_TRAP_TAKEN (R427). A core returns from its trap handler. -/
def execPendingTrapTaken (core : Nat) (s : State) : Host.Outcome State Fault Refusal := done (s.trapReturn core)

end Sys2Proof.Machine
end

