-- ==== Sys2Proof/Machine/SecurityCommands.lean ====
section
/-!
DEFINITION. Machine/SecurityCommands.lean: the meanings of the commands of one family: fuses, attestation, sessions, keys (R443 to R466).
-/

namespace Sys2Proof.Machine

/-- FUSE_PROGRAM (R445). FUSE.PROGCMD.GO written, VFUSE in its band or not. -/
def execFuseProgram (o : Origin) (v : Nat) (vfuse : Bool) (s : State) : Host.Outcome State Fault Refusal := done (s.fuseCommand o v vfuse)

/-- FUSE_PROGRAM_DONE (R445). Programming ends; bits that blew in each copy. -/
def execFuseProgramDone (a : Word) (b : Word) (s : State) : Host.Outcome State Fault Refusal := done (s.fuseDone a b)

/-- ATTEST (R451). An attestation request. -/
def execAttest (n : Nat) (f : Frame) (s : State) : Host.Outcome State Fault Refusal := done (s.serve n f opAttest freeNeed (bodyLen 32) runAttest)

/-- SOPEN (R453). OPEN. -/
def execSopen (n : Nat) (f : Frame) (s : State) : Host.Outcome State Fault Refusal := done (s.serve n f opSopen freeNeed (bodyLen 145) runSopen)

/-- SCONF (R453). CONFIRM. -/
def execSconf (n : Nat) (f : Frame) (s : State) : Host.Outcome State Fault Refusal := done (s.serve n f opSconf freeNeed (bodyLen 64) runSconf)

/-- HANDSHAKE_TIMEOUT (R453). 2^18 ticks since CHALLENGE. -/
def execHandshakeTimeout (sess : Nat) (s : State) : Host.Outcome State Fault Refusal := done (s.shakeTimeout sess)

/-- BACKOFF_EXPIRE (R453). 2^20 ticks of backoff. -/
def execBackoffExpire (s : State) : Host.Outcome State Fault Refusal := done (s.backoffExpire)

/-- SCLOSE (R455). CLOSE. -/
def execSclose (n : Nat) (f : Frame) (s : State) : Host.Outcome State Fault Refusal :=
  done (s.serve n f opSclose (permNeed 0) (bodyLen 1) runSclose)

/-- SESSION_IDLE_TIMEOUT (R455). SESSIDLE ticks without a transaction. -/
def execSessionIdleTimeout (sess : Nat) (s : State) : Host.Outcome State Fault Refusal := done (s.sessIdleTimeout sess)

/-- KEYINST (R458). A key install. -/
def execKeyinst (n : Nat) (f : Frame) (s : State) : Host.Outcome State Fault Refusal :=
  done (s.serve n f opKeyinst (permNeed 64) (bodyLen 33) runKeyinst)

/-- RNG_HEALTH_FAIL (R466). The entropy source fails its test. -/
def execRngHealthFail (s : State) : Host.Outcome State Fault Refusal := done (s.rngFail)

/-- QUOTE_DONE (R451). The quote completes. -/
def execQuoteDone (s : State) : Host.Outcome State Fault Refusal := done (s.quoteDone)

end Sys2Proof.Machine
end

