-- ==== Sys2Proof/Machine/ServiceCommands.lean ====
section
/-!
DEFINITION. Machine/ServiceCommands.lean: the meanings of the commands of one family: transactions, the log, relaying, replies (R66, R106, R461 to R482, R524).
-/

namespace Sys2Proof.Machine

/-- DISCOVER (R482). A discovery. -/
def execDiscover (n : Nat) (f : Frame) (s : State) : Host.Outcome State Fault Refusal := done (s.discover n f)

/-- READ (R471). A remote read. -/
def execRead (n : Nat) (f : Frame) (s : State) : Host.Outcome State Fault Refusal := done (s.serve n f opRead readNeed readLen runRead)

/-- WRITE (R524). A remote write. -/
def execWrite (n : Nat) (f : Frame) (s : State) : Host.Outcome State Fault Refusal := done (s.serve n f opWrite writeNeed writeLen runWrite)

/-- TWRITE (R473). A remote timed write. -/
def execTwrite (n : Nat) (f : Frame) (s : State) : Host.Outcome State Fault Refusal := done (s.serve n f opTwrite twriteNeed (bodyLen 16) runTwrite)

/-- TIMED_WRITE_ARM_LOCAL (R473). MGT.TWSEQ.ARM written. -/
def execTimedWriteArmLocal (o : Origin) (v : Nat) (s : State) : Host.Outcome State Fault Refusal := done (s.act o MGT.TWSEQ.ARM v)

/-- TIMED_WRITE_FIRE (R473). k·T. -/
def execTimedWriteFire (s : State) : Host.Outcome State Fault Refusal := done (s.timedFire s.tick)

/-- LOGDRAIN (R462). A log drain. -/
def execLogdrain (n : Nat) (f : Frame) (s : State) : Host.Outcome State Fault Refusal :=
  done (s.serve n f opLogdrain (permNeed 128) drainLen runLogdrain)

/-- LOGACK (R462). LOGACK, or LOG.ACKSEQ_HI written. -/
def execLogack (via : Via) (s : State) : Host.Outcome State Fault Refusal :=
  match via with
    | .write o v => done (s.coreWrite o LOG.ACKSEQ_HI.SEQ.addr v)
    | .frame n f => done (s.serve n f opLogack (permNeed 128) (bodyLen 8) runLogack)

/-- LOG_ENTRY_WRITE (R461). The LOG unit writes its next entry. -/
def execLogEntryWrite (s : State) : Host.Outcome State Fault Refusal := done (s.logPop)

/-- LOG_FLASH_DRAIN (R462). The firmware copies entries to flash. -/
def execLogFlashDrain (count : Nat) (ok : Bool) (s : State) : Host.Outcome State Fault Refusal := done (s.logFlashDrain count ok)

/-- LOG_APPEND (R464). LOG.APPCMD with GO written. -/
def execLogAppend (o : Origin) (v : Nat) (s : State) : Host.Outcome State Fault Refusal := done (s.act o LOG.APPCMD.GO v)

/-- MGMT_RELAY (R106). A Mgmt frame for another device. -/
def execMgmtRelay (n : Nat) (f : Frame) (s : State) : Host.Outcome State Fault Refusal := done (s.mgmtRelay n f)

/-- ECHOREP (R471). An ECHOREP notice. -/
def execEchorep (n : Nat) (f : Frame) (s : State) : Host.Outcome State Fault Refusal := done (s.echorep n f)

/-- REPLY_RECEIVE (R477). A reply. -/
def execReplyReceive (n : Nat) (f : Frame) (s : State) : Host.Outcome State Fault Refusal := done (s.replyReceive n f)

/-- REPLY_TIMEOUT (R477). TIMEOUT ticks without a reply in context `ctx`. -/
def execReplyTimeout (ctx : Nat) (s : State) : Host.Outcome State Fault Refusal := done (s.replyTimeout ctx)

/-- BASECAMP_POLL (R66). The turn of a discovered cell; `key`: its place in the list. -/
def execBasecampPoll (key : Nat) (s : State) : Host.Outcome State Fault Refusal := done (s.basecampPoll key)

/-- JOURNAL_ENTRY_EXPIRE (R481). 65 536 ticks since the reply of the entry. -/
def execJournalEntryExpire (entry : Nat) (s : State) : Host.Outcome State Fault Refusal := done (s.journalExpire entry)

/-- RELAY_CONTEXT_TIMEOUT (R474). A relayed request has had no reply. -/
def execRelayContextTimeout (src : Nat) (sess : Nat) (ctr : Nat) (s : State) : Host.Outcome State Fault Refusal :=
  done (s.relayTimeout src sess ctr)

/-- BADOP_REQUEST (R472). A request of an operation that is not listed. -/
def execBadopRequest (n : Nat) (f : Frame) (s : State) : Host.Outcome State Fault Refusal := done (s.badop n f)

end Sys2Proof.Machine
end

