-- ==== Sys2Proof/Machine/CoreCommands.lean ====
section
/-!
DEFINITION. Machine/CoreCommands.lean: the meanings of the commands of one family: service cores (R485, R486, R491).
-/

namespace Sys2Proof.Machine

/-- ECALL_SEND (R486). Service 0x01. -/
def execEcallSend (core : Nat) (payload : List Byte) (dst : Nat) (s : State) : Host.Outcome State Fault Refusal :=
  done (s.ecallSend core payload dst)

/-- ECALL_POLL (R486). Service 0x02. -/
def execEcallPoll (core : Nat) (ctx : Nat) (s : State) : Host.Outcome State Fault Refusal := done (s.ecallPoll core ctx)

/-- ECALL_IRQREG (R486). Service 0x03. -/
def execEcallIrqreg (core : Nat) (src : Nat) (handler : Nat) (s : State) : Host.Outcome State Fault Refusal := done (s.ecallIrqreg core src handler)

/-- ECALL_NOTE (R486). Service 0x04. -/
def execEcallNote (core : Nat) (typ : Nat) (addr : Nat) (old : Nat) (new : Nat) (s : State) : Host.Outcome State Fault Refusal :=
  done (s.ecallNote core typ addr old new)

/-- ECALL_TIME (R486). Service 0x05. -/
def execEcallTime (core : Nat) (s : State) : Host.Outcome State Fault Refusal := done (s.ecallTime core)

/-- SOFTWARE_INTERRUPT_SET (R485). SER.SWISET written. -/
def execSoftwareInterruptSet (o : Origin) (v : Nat) (s : State) : Host.Outcome State Fault Refusal := done (s.coreWrite o SER.SWISET.SET.addr v)

/-- CORELOCK (R491). A core has retired nothing for 2^20 cycles. -/
def execCorelock (core : Nat) (s : State) : Host.Outcome State Fault Refusal := done (s.coreLock core)

end Sys2Proof.Machine
end

