-- ==== Sys2Proof/Machine/PinCommands.lean ====
section
/-!
DEFINITION. Machine/PinCommands.lean: the meanings of the commands of one family: pins (R495 to R521).
-/

namespace Sys2Proof.Machine

/-- DDM_READ (R499). The diagnostics of lane `n`; none: no transceiver answers. -/
def execDdmRead (n : Nat) (bytes : Option (List Byte)) (s : State) : Host.Outcome State Fault Refusal := done (s.ddmRead n bytes)

/-- GPIO_SET (R497). PIN.GPIOSET written. -/
def execGpioSet (o : Origin) (v : Nat) (s : State) : Host.Outcome State Fault Refusal := done (s.coreWrite o PIN.GPIOSET.SET.addr v)

/-- GPIO_CLR (R497). PIN.GPIOCLR written. -/
def execGpioClr (o : Origin) (v : Nat) (s : State) : Host.Outcome State Fault Refusal := done (s.coreWrite o PIN.GPIOCLR.CLR.addr v)

/-- BANK_SUPPLY_FAULT (R505). A bank supply leaves its range or level, or is good again. -/
def execBankSupplyFault (bank : Nat) (ok : Bool) (s : State) : Host.Outcome State Fault Refusal := done (s.bankSupply bank ok)

/-- NERR_READBACK_FAULT (R521). The nERR ball against the drive. -/
def execNerrReadbackFault (high : Bool) (s : State) : Host.Outcome State Fault Refusal := done (s.nerrFault high)

end Sys2Proof.Machine
end

