-- ==== Sys2Proof/Machine/Dispatch.lean ====
section
/-!
DEFINITION. Machine/Dispatch.lean: every command and its meaning, one arm each.
-/

namespace Sys2Proof.Machine

def exec (i : Instr) (s : State) : Host.Outcome State Fault Refusal :=
  match i with
  | .powerOnReset inBand => Sys2Proof.Machine.execPowerOnReset inBand s
  | .nresetAssert => Sys2Proof.Machine.execNresetAssert s
  | .nresetRelease high => Sys2Proof.Machine.execNresetRelease high s
  | .testenHigh high => Sys2Proof.Machine.execTestenHigh high s
  | .linkResetCommand n f => Sys2Proof.Machine.execLinkResetCommand n f s
  | .softReset o reach => Sys2Proof.Machine.execSoftReset o reach s
  | .resetStartUp straps => Sys2Proof.Machine.execResetStartUp straps s
  | .canvasLoad => Sys2Proof.Machine.execCanvasLoad s
  | .cpush n f => Sys2Proof.Machine.execCpush n f s
  | .fwpush n f => Sys2Proof.Machine.execFwpush n f s
  | .pushTimeout firmware => Sys2Proof.Machine.execPushTimeout firmware s
  | .stageCheckDone => Sys2Proof.Machine.execStageCheckDone s
  | .fwStageCheckDone => Sys2Proof.Machine.execFwStageCheckDone s
  | .canvasActivate via => Sys2Proof.Machine.execCanvasActivate via s
  | .canvasDiscard o v => Sys2Proof.Machine.execCanvasDiscard o v s
  | .keypres n f => Sys2Proof.Machine.execKeypres n f s
  | .flashwr n f => Sys2Proof.Machine.execFlashwr n f s
  | .flashWriteDone bad => Sys2Proof.Machine.execFlashWriteDone bad s
  | .registerWrite o addr width value => Sys2Proof.Machine.execRegisterWrite o addr width value s
  | .cntclr o block lane => Sys2Proof.Machine.execCntclr o block lane s
  | .laneUp n => Sys2Proof.Machine.execLaneUp n s
  | .laneDown n lostLock => Sys2Proof.Machine.execLaneDown n lostLock s
  | .laneReady n ready => Sys2Proof.Machine.execLaneReady n ready s
  | .losAssert n level => Sys2Proof.Machine.execLosAssert n level s
  | .idleFrame n rxok beacon inreset peer => Sys2Proof.Machine.execIdleFrame n rxok beacon inreset peer s
  | .forwardFrame n f => Sys2Proof.Machine.execForwardFrame n f s
  | .frameRelaunch n => Sys2Proof.Machine.execFrameRelaunch n s
  | .ratecmdArm o n v => Sys2Proof.Machine.execRatecmdArm o n v s
  | .rateSwitch n => Sys2Proof.Machine.execRateSwitch n s
  | .unwrapArm o n v => Sys2Proof.Machine.execUnwrapArm o n v s
  | .unwrapTakeEffect n => Sys2Proof.Machine.execUnwrapTakeEffect n s
  | .sampleInstant => Sys2Proof.Machine.execSampleInstant s
  | .tallyLaunch => Sys2Proof.Machine.execTallyLaunch s
  | .tallyPass n f => Sys2Proof.Machine.execTallyPass n f s
  | .ringTallyArrive n f => Sys2Proof.Machine.execRingTallyArrive n f s
  | .crossLinkTallyReceive f => Sys2Proof.Machine.execCrossLinkTallyReceive f s
  | .trunkTallyPass n f => Sys2Proof.Machine.execTrunkTallyPass n f s
  | .trunkTallyArrive n f => Sys2Proof.Machine.execTrunkTallyArrive n f s
  | .screeDecision => Sys2Proof.Machine.execScreeDecision s
  | .referenceLossBlock => Sys2Proof.Machine.execReferenceLossBlock s
  | .orderLaunch cmds => Sys2Proof.Machine.execOrderLaunch cmds s
  | .orderReceive n f => Sys2Proof.Machine.execOrderReceive n f s
  | .trunkOrderReceive n f => Sys2Proof.Machine.execTrunkOrderReceive n f s
  | .crossLinkOrderReceive f => Sys2Proof.Machine.execCrossLinkOrderReceive f s
  | .orderMissed => Sys2Proof.Machine.execOrderMissed s
  | .missedOrderBlock => Sys2Proof.Machine.execMissedOrderBlock s
  | .applyInstant => Sys2Proof.Machine.execApplyInstant s
  | .trimEnd => Sys2Proof.Machine.execTrimEnd s
  | .swingCheck idx v0 vsw => Sys2Proof.Machine.execSwingCheck idx v0 vsw s
  | .exclude f => Sys2Proof.Machine.execExclude f s
  | .include f => Sys2Proof.Machine.execInclude f s
  | .snaprec f => Sys2Proof.Machine.execSnaprec f s
  | .clrcnt f => Sys2Proof.Machine.execClrcnt f s
  | .localgrant f => Sys2Proof.Machine.execLocalgrant f s
  | .localend f => Sys2Proof.Machine.execLocalend f s
  | .dtreset via => Sys2Proof.Machine.execDtreset via s
  | .bypass f => Sys2Proof.Machine.execBypass f s
  | .localDutyEnd => Sys2Proof.Machine.execLocalDutyEnd s
  | .localPeriodEnd => Sys2Proof.Machine.execLocalPeriodEnd s
  | .grantExpire => Sys2Proof.Machine.execGrantExpire s
  | .pwmCommit o v => Sys2Proof.Machine.execPwmCommit o v s
  | .calnow o v ok dev => Sys2Proof.Machine.execCalnow o v ok dev s
  | .delayLineCalibration ok dev => Sys2Proof.Machine.execDelayLineCalibration ok dev s
  | .forceWrite o v => Sys2Proof.Machine.execForceWrite o v s
  | .snapatArm o v => Sys2Proof.Machine.execSnapatArm o v s
  | .counterSnapshot => Sys2Proof.Machine.execCounterSnapshot s
  | .debugHalt core => Sys2Proof.Machine.execDebugHalt core s
  | .debugResume => Sys2Proof.Machine.execDebugResume s
  | .vcapConversion kind r => Sys2Proof.Machine.execVcapConversion kind r s
  | .vcapConversionFail kind => Sys2Proof.Machine.execVcapConversionFail kind s
  | .sleTrip => Sys2Proof.Machine.execSleTrip s
  | .vrefOutOfBand ok => Sys2Proof.Machine.execVrefOutOfBand ok s
  | .auxConversion n raw => Sys2Proof.Machine.execAuxConversion n raw s
  | .dieTempConversion code => Sys2Proof.Machine.execDieTempConversion code s
  | .sdmOutput n bits => Sys2Proof.Machine.execSdmOutput n bits s
  | .sdmFastOutput n bits => Sys2Proof.Machine.execSdmFastOutput n bits s
  | .sdmStuck n bits => Sys2Proof.Machine.execSdmStuck n bits s
  | .capWindowClose => Sys2Proof.Machine.execCapWindowClose s
  | .capRestart o v => Sys2Proof.Machine.execCapRestart o v s
  | .epeakClear o v => Sys2Proof.Machine.execEpeakClear o v s
  | .hardSlvTrip => Sys2Proof.Machine.execHardSlvTrip s
  | .dsatEvent g => Sys2Proof.Machine.execDsatEvent g s
  | .bypRbChange closed => Sys2Proof.Machine.execBypRbChange closed s
  | .bypassClosureCheck => Sys2Proof.Machine.execBypassClosureCheck s
  | .watchdogService o key => Sys2Proof.Machine.execWatchdogService o key s
  | .watchdogExpire => Sys2Proof.Machine.execWatchdogExpire s
  | .pairMismatch => Sys2Proof.Machine.execPairMismatch s
  | .enableReadbackMismatch rb => Sys2Proof.Machine.execEnableReadbackMismatch rb s
  | .comparatorSelfTest above below => Sys2Proof.Machine.execComparatorSelfTest above below s
  | .testPulseStart => Sys2Proof.Machine.execTestPulseStart s
  | .testPulseOpenCheck isOpen => Sys2Proof.Machine.execTestPulseOpenCheck isOpen s
  | .testPulseClose => Sys2Proof.Machine.execTestPulseClose s
  | .testPulseCloseCheck closed => Sys2Proof.Machine.execTestPulseCloseCheck closed s
  | .testIncompleteTimeout n => Sys2Proof.Machine.execTestIncompleteTimeout n s
  | .dischargeStart o v => Sys2Proof.Machine.execDischargeStart o v s
  | .dischargeStop o v => Sys2Proof.Machine.execDischargeStop o v s
  | .dischargeCompare => Sys2Proof.Machine.execDischargeCompare s
  | .dischargeTimeout => Sys2Proof.Machine.execDischargeTimeout s
  | .contextStart c => Sys2Proof.Machine.execContextStart c s
  | .contextRun e => Sys2Proof.Machine.execContextRun e s
  | .contextCommit e => Sys2Proof.Machine.execContextCommit e s
  | .contextDeadline c => Sys2Proof.Machine.execContextDeadline c s
  | .swapRequest o c bulk => Sys2Proof.Machine.execSwapRequest o c bulk s
  | .resetst o c => Sys2Proof.Machine.execResetst o c s
  | .coefApertureWrite o w v => Sys2Proof.Machine.execCoefApertureWrite o w v s
  | .armctlBlockWrite o v => Sys2Proof.Machine.execArmctlBlockWrite o v s
  | .segmentSumSweep => Sys2Proof.Machine.execSegmentSumSweep s
  | .timeFrameLaunch => Sys2Proof.Machine.execTimeFrameLaunch s
  | .timeFrameReceive n f age => Sys2Proof.Machine.execTimeFrameReceive n f age s
  | .domainValidityExpire x => Sys2Proof.Machine.execDomainValidityExpire x s
  | .domswArm o v => Sys2Proof.Machine.execDomswArm o v s
  | .domainSwitch => Sys2Proof.Machine.execDomainSwitch s
  | .tbIncrCommit o hi => Sys2Proof.Machine.execTbIncrCommit o hi s
  | .tbStep o v => Sys2Proof.Machine.execTbStep o v s
  | .tbSnapshot o v => Sys2Proof.Machine.execTbSnapshot o v s
  | .compareArm o n target v => Sys2Proof.Machine.execCompareArm o n target v s
  | .compareFire n => Sys2Proof.Machine.execCompareFire n s
  | .ptpSync h m age => Sys2Proof.Machine.execPtpSync h m age s
  | .ptpAnnounce h m => Sys2Proof.Machine.execPtpAnnounce h m s
  | .ptpAnnounceTimeout => Sys2Proof.Machine.execPtpAnnounceTimeout s
  | .ptpPdelayReq h m age => Sys2Proof.Machine.execPtpPdelayReq h m age s
  | .ptpPdelayInterval => Sys2Proof.Machine.execPtpPdelayInterval s
  | .ptpPdelayResp h m age => Sys2Proof.Machine.execPtpPdelayResp h m age s
  | .pauseFrame h => Sys2Proof.Machine.execPauseFrame h s
  | .svFrameReceive h f age => Sys2Proof.Machine.execSvFrameReceive h f age s
  | .svLost stream => Sys2Proof.Machine.execSvLost stream s
  | .echoStart o n v => Sys2Proof.Machine.execEchoStart o n v s
  | .echoAuto n => Sys2Proof.Machine.execEchoAuto n s
  | .echoRequestSend n => Sys2Proof.Machine.execEchoRequestSend n s
  | .echoRequest n f age => Sys2Proof.Machine.execEchoRequest n f age s
  | .echoResponse n f age => Sys2Proof.Machine.execEchoResponse n f age s
  | .echoResult n f => Sys2Proof.Machine.execEchoResult n f s
  | .echoAbandon n => Sys2Proof.Machine.execEchoAbandon n s
  | .markReceive n f => Sys2Proof.Machine.execMarkReceive n f s
  | .markTatReached => Sys2Proof.Machine.execMarkTatReached s
  | .geoRowLatch vsw half => Sys2Proof.Machine.execGeoRowLatch vsw half s
  | .recordProcessingDone => Sys2Proof.Machine.execRecordProcessingDone s
  | .geoArm o v => Sys2Proof.Machine.execGeoArm o v s
  | .geoStop o v => Sys2Proof.Machine.execGeoStop o v s
  | .geoTrig o v => Sys2Proof.Machine.execGeoTrig o v s
  | .geoMark o v => Sys2Proof.Machine.execGeoMark o v s
  | .geoFree o v => Sys2Proof.Machine.execGeoFree o v s
  | .geoStallRearm => Sys2Proof.Machine.execGeoStallRearm s
  | .capup n f => Sys2Proof.Machine.execCapup n f s
  | .reclockTimeout slot => Sys2Proof.Machine.execReclockTimeout slot s
  | .capasm n f => Sys2Proof.Machine.execCapasm n f s
  | .hello n f => Sys2Proof.Machine.execHello n f s
  | .pairHelloSend => Sys2Proof.Machine.execPairHelloSend s
  | .pairForm => Sys2Proof.Machine.execPairForm s
  | .formWaitExpire => Sys2Proof.Machine.execFormWaitExpire s
  | .heartbeatDeadline => Sys2Proof.Machine.execHeartbeatDeadline s
  | .redYieldArm o v => Sys2Proof.Machine.execRedYieldArm o v s
  | .yieldTakeEffect => Sys2Proof.Machine.execYieldTakeEffect s
  | .redJoin o v => Sys2Proof.Machine.execRedJoin o v s
  | .redRelease o v => Sys2Proof.Machine.execRedRelease o v s
  | .xfer n f item => Sys2Proof.Machine.execXfer n f item s
  | .transferAdmissionTimeout c => Sys2Proof.Machine.execTransferAdmissionTimeout c s
  | .jquery n f => Sys2Proof.Machine.execJquery n f s
  | .referenceLoss => Sys2Proof.Machine.execReferenceLoss s
  | .holdoverExpire => Sys2Proof.Machine.execHoldoverExpire s
  | .clockStop => Sys2Proof.Machine.execClockStop s
  | .clockReturn => Sys2Proof.Machine.execClockReturn s
  | .srcselGo o v => Sys2Proof.Machine.execSrcselGo o v s
  | .referenceSwitchDone => Sys2Proof.Machine.execReferenceSwitchDone s
  | .ringClockService r => Sys2Proof.Machine.execRingClockService r s
  | .frequencyMeterStart o v => Sys2Proof.Machine.execFrequencyMeterStart o v s
  | .frequencyMeterDone count => Sys2Proof.Machine.execFrequencyMeterDone count s
  | .clockGateWrite o v busy => Sys2Proof.Machine.execClockGateWrite o v busy s
  | .pwrCmdArm o v => Sys2Proof.Machine.execPwrCmdArm o v s
  | .powerTransition => Sys2Proof.Machine.execPowerTransition s
  | .scrubRead mem struck => Sys2Proof.Machine.execScrubRead mem struck s
  | .scrubPassEnd mem => Sys2Proof.Machine.execScrubPassEnd mem s
  | .paritySweep struck => Sys2Proof.Machine.execParitySweep struck s
  | .injectionArm o v => Sys2Proof.Machine.execInjectionArm o v s
  | .pendingTrapTaken core => Sys2Proof.Machine.execPendingTrapTaken core s
  | .fuseProgram o v vfuse => Sys2Proof.Machine.execFuseProgram o v vfuse s
  | .fuseProgramDone a b => Sys2Proof.Machine.execFuseProgramDone a b s
  | .attest n f => Sys2Proof.Machine.execAttest n f s
  | .sopen n f => Sys2Proof.Machine.execSopen n f s
  | .sconf n f => Sys2Proof.Machine.execSconf n f s
  | .handshakeTimeout sess => Sys2Proof.Machine.execHandshakeTimeout sess s
  | .backoffExpire => Sys2Proof.Machine.execBackoffExpire s
  | .sclose n f => Sys2Proof.Machine.execSclose n f s
  | .sessionIdleTimeout sess => Sys2Proof.Machine.execSessionIdleTimeout sess s
  | .keyinst n f => Sys2Proof.Machine.execKeyinst n f s
  | .discover n f => Sys2Proof.Machine.execDiscover n f s
  | .read n f => Sys2Proof.Machine.execRead n f s
  | .write n f => Sys2Proof.Machine.execWrite n f s
  | .twrite n f => Sys2Proof.Machine.execTwrite n f s
  | .timedWriteArmLocal o v => Sys2Proof.Machine.execTimedWriteArmLocal o v s
  | .timedWriteFire => Sys2Proof.Machine.execTimedWriteFire s
  | .logdrain n f => Sys2Proof.Machine.execLogdrain n f s
  | .logack via => Sys2Proof.Machine.execLogack via s
  | .logEntryWrite => Sys2Proof.Machine.execLogEntryWrite s
  | .logFlashDrain count ok => Sys2Proof.Machine.execLogFlashDrain count ok s
  | .logAppend o v => Sys2Proof.Machine.execLogAppend o v s
  | .mgmtRelay n f => Sys2Proof.Machine.execMgmtRelay n f s
  | .echorep n f => Sys2Proof.Machine.execEchorep n f s
  | .replyReceive n f => Sys2Proof.Machine.execReplyReceive n f s
  | .replyTimeout ctx => Sys2Proof.Machine.execReplyTimeout ctx s
  | .ecallSend core payload dst => Sys2Proof.Machine.execEcallSend core payload dst s
  | .ecallPoll core ctx => Sys2Proof.Machine.execEcallPoll core ctx s
  | .ecallIrqreg core src handler => Sys2Proof.Machine.execEcallIrqreg core src handler s
  | .ecallNote core typ addr old new => Sys2Proof.Machine.execEcallNote core typ addr old new s
  | .ecallTime core => Sys2Proof.Machine.execEcallTime core s
  | .softwareInterruptSet o v => Sys2Proof.Machine.execSoftwareInterruptSet o v s
  | .corelock core => Sys2Proof.Machine.execCorelock core s
  | .ddmRead n bytes => Sys2Proof.Machine.execDdmRead n bytes s
  | .gpioSet o v => Sys2Proof.Machine.execGpioSet o v s
  | .gpioClr o v => Sys2Proof.Machine.execGpioClr o v s
  | .bankSupplyFault bank ok => Sys2Proof.Machine.execBankSupplyFault bank ok s
  | .nerrReadbackFault high => Sys2Proof.Machine.execNerrReadbackFault high s
  | .basecampPoll key => Sys2Proof.Machine.execBasecampPoll key s
  | .ringOrderArrive n f => Sys2Proof.Machine.execRingOrderArrive n f s
  | .trunkOrderArrive n f => Sys2Proof.Machine.execTrunkOrderArrive n f s
  | .bypassPulseEnd => Sys2Proof.Machine.execBypassPulseEnd s
  | .dsatRise g high => Sys2Proof.Machine.execDsatRise g high s
  | .ethLinkChange up speed andone => Sys2Proof.Machine.execEthLinkChange up speed andone s
  | .rngHealthFail => Sys2Proof.Machine.execRngHealthFail s
  | .quoteDone => Sys2Proof.Machine.execQuoteDone s
  | .powerTransitionDone => Sys2Proof.Machine.execPowerTransitionDone s
  | .journalEntryExpire entry => Sys2Proof.Machine.execJournalEntryExpire entry s
  | .relayContextTimeout src sess ctr => Sys2Proof.Machine.execRelayContextTimeout src sess ctr s
  | .lowWordRead o addr width => Sys2Proof.Machine.execLowWordRead o addr width s
  | .badopRequest n f => Sys2Proof.Machine.execBadopRequest n f s

end Sys2Proof.Machine
end

