-- ==== Sys2Proof/Safety.lean ====
section
/-!
DEFINITION. Safety.lean: the words in which claims about the block are stated: what a command yields, what stays as it was, who may write a
register, the canonical form of every memory.
-/

namespace Sys2Proof.Machine

/-- `c` completes in `s`: exec answers the next state that the end of a command (`State.settle`, which shows Geode the events of the command)
makes of a state with `P`. -/
def Yields (c : Instr) (s : State) (P : State → Prop) : Prop := ∃ u, exec c s = .next u.settle ∧ P u

/-- Every byte of system SRAM, capture SRAM and flash reads as before. -/
def MemKept (s t : State) : Prop :=
  (∀ a, memByte 0 t.sram a = memByte 0 s.sram a) ∧ (∀ a, memByte 0 t.cap a = memByte 0 s.cap a) ∧
    (∀ a, memByte 0xFF t.flash a = memByte 0xFF s.flash a)

/-- Every register word but those at `as` reads as before. -/
def RegsKept (as : List Nat) (s t : State) : Prop := ∀ a, a ∉ as → t.reg a = s.reg a

/-- A write by `o` reaches the register at `a`: its window answers (R48, R392), and a customer image may write there (R484). -/
def State.mayWrite (s : State) (o : Origin) (a : Nat) : Bool := s.answers (blockOf a) && !(s.isCustomer o && !customerWrites a)

/-- No lock of the canvas discards RWL fields that `o` writes in block `b` (R56). -/
def State.unlocked (s : State) (o : Origin) (b : Nat) : Bool := !s.getBit CNV.LOCK.LOCK b || o.agent == 0

/-- An occurrence of the source is recorded and starts neither a trap nor a reset (R421, R425). -/
def State.recordsOnly (s : State) (x : Src) : Bool := s.detects x.blk && s.action x == 0

/-- An occurrence of none of these sources starts a reset: it is recorded, or traps the cores too (R425, R427). -/
abbrev State.noReset (s : State) (f : Nat → Src) : Prop := ∀ i, i < 32 → s.action (f i) ≤ 1

/-- The counters that sending on the lanes `ns` may advance (R103, R105, R121), and CTXFREE, which follows a reply that leaves beside (R474). -/
def laneCounts (ns : List Nat) : List Nat :=
  MGT.STAT.CTXFREE.addr :: ns.flatMap (fun n => [(LNK.TXFRM_LO.COUNT n).addr, (LNK.TXFRM_HI.COUNT n).addr, (LNK.BRKDROP.COUNT n).addr, (LNK.PREEMPT.COUNT n).addr])

/-- An apply instant at a configured cell (R181). -/
def State.applies (s : State) : Bool := s.runs bPWM && s.isCell && s.tickEvents && s.pwm.configured

/-- An apply instant at which the order pipeline drives the cell (R201, rank 6) and no reload or dead-time reset waits. -/
def State.orderDrives (s : State) : Bool :=
  s.applies && s.inRun && !s.basecamp && !s.clockless && !s.saf.bypassed && !s.pwm.bypassNext && !s.halted && !s.pwm.waitOrder && s.get PWM.LGRANT.TICKS == 0 && s.pwm.grantNext.isNone &&
    !s.flag PWM.STAT.LOCAL && !s.flag PWM.STAT.PENDING && s.pwm.before.isNone && !s.pwm.dtReset &&
    s.pwm.releaseTick.isNone && !s.pwm.localLeft

/-- `f` is the Order that the cell obeys for its tick: a sound ring Order of its ring, of the copy that it has taken (R88, R90, R363). -/
def State.obeysOrder (s : State) (f : Frame) : Bool :=
  s.isCell && s.runs bSCR && !s.unjoined && decide (f.ftype = ftOrder) && crcGood f && !f.stomp && decide (f.field 1 5 1 % 16 = s.myRing) &&
    s.scr.orders.any (fun o => o.tick == (seqTick s.tick f.seq).getD 0 && o.epoch == f.field 1 2 2 && o.src == f.field 1 0 2)

/-- The command of the Order `f` is `code`, and addresses this cell (R88, R175). -/
def State.addressed (s : State) (f : Frame) (code : Nat) : Bool :=
  s.obeysOrder f && decide (f.field 4 0 1 = s.position) && decide (f.field 4 1 1 = code)

/-- The cell takes state `st` without a refusal (R166, R179, R240). -/
def State.takes (s : State) (st : Nat) : Bool := !s.refuses st && (s.fullBridge || st != 2)

/-- After a trip (R238): the latch is set, every gate is 0 and none waits, the series enables are commanded open, the cell is Bypassed. -/
def Tripped (t : State) : Prop :=
  t.flag SAF.STAT.TRIP = true ∧ t.pwm.gates = 0 ∧ t.pwm.due = [] ∧ t.get SAF.STAT.ENCMD = 0 ∧ t.saf.bypassed = true ∧ t.get PWM.STAT.STATE = 4

/-- Switch `n` is in a test pulse. -/
def State.inTest (s : State) (n : Nat) : Bool := s.saf.tpPhase != 0 && s.saf.tpPhase != 3 && n == s.saf.tpSwitch

/-- Test pulses may run (R250). -/
def State.testsRun (s : State) : Bool :=
  s.runs bSAF && s.flag SAF.CFG.TPEN && s.get SAF.STAT.ENCMD != 0 && !s.flag SAF.STAT.TRIP && !s.flag SAF.STAT.SAFESTATE

/-- Every memory has its canonical form: keys strictly rising, no entry equal to what an unlisted key reads as. -/
def State.canonical (s : State) : Bool :=
  SMap.wf regDefault s.regs && SMap.wf (fun _ => (0 : Byte)) s.sram && SMap.wf (fun _ => (0 : Byte)) s.cap && SMap.wf (fun _ => (0xFF : Byte)) s.flash

/-- A frame of this device with `P` has left on lane `n`, or waits there for its launch (R103). -/
def Sends (t : State) (n : Nat) (P : Frame → Prop) : Prop := (∃ g, P g ∧ Emit.frame n g ∈ t.out) ∨ ∃ w ∈ (t.lane n).waiting, P w.frame

/-- A saturating count of `w` bits after one more (R422). -/
def satNext (w n : Nat) : Nat := if n + 1 < 2 ^ w then n + 1 else 2 ^ w - 1

/-! ## Served requests -/

/-- A request frame of operation `op` that comes to its execution for the first time (R454, R456, R474 to R476): the journal entry it takes and the
state in which it runs; none where it is answered otherwise, or not at all. -/
def State.reaches (s : State) (n : Nat) (f : Frame) (op : Nat) (need : Txn → Need) (lenOk : Txn → Bool) : Option (Nat × State) :=
  let a := s.mgmtArrive n f
  let t := txnOf n f
  let m := (a.2.takeCtr t).jAck t
  let bare := t.broadcast && !t.inGroup && !(need t == .free) && a.2.grpHash != zeroB 32 && a.2.active
  if a.1 && t.op == op && !t.reply && a.2.servesMgmt t && !bare && a.2.tagGood t && (a.2.jFind t 0).isNone && a.2.ctrFresh t &&
      t.pay.length == 32 + t.blen && lenOk t && m.permitted t (need t) && m.ctxFree && decide (m.replyLane t < 16) then
    (m.jNew t 0).map (fun e =>
      (e.1, ((((e.2.unlive (srcMGT 0)).unlive (srcMGT 1)).unlive (srcMGT 2)).unlive (srcMGT 3)).inc MGT.RXREQ.COUNT))
  else none

/-- The same for a request to this device alone. Broadcasts, which are not answered, have statements of their own. -/
def State.executes (s : State) (n : Nat) (f : Frame) (op : Nat) (need : Txn → Need) (lenOk : Txn → Bool) : Option (Nat × State) :=
  if (txnOf n f).broadcast then none else s.reaches n f op need lenOk

/-- A notice of operation `op` on lane `n` that the device takes (R454, R456, R470): the state in which it acts. -/
def State.notes (s : State) (n : Nat) (f : Frame) (op : Nat) (need : Need) : Option State :=
  let a := s.mgmtArrive n f
  let t := txnOf n f
  if a.1 && t.op == op && !t.reply && decide (a.2.power ≤ 1) && a.2.tagGood t && a.2.ctrFresh t && a.2.permitted t need then some (a.2.takeCtr t) else none

/-- Registers that making and sending a reply may write: the free counts, the session's counter, the counters of the lane it leaves on, an injection
that names the journal. -/
def replyWrites (a : Nat) : Bool :=
  a == MGT.STAT.JFREE.addr || a == MGT.RELAUNCH.COUNT.addr || a == SYS.INJCTL.ARMED.addr || (List.range 8).any (fun n => a == (SEC.SESS_CTROUT.CTR n).addr) ||
    (List.range 16).any (fun n => [(LNK.TXFRM_LO.COUNT n).addr, (LNK.TXFRM_HI.COUNT n).addr, (LNK.BRKDROP.COUNT n).addr].contains a)

/-- The journal's bytes of system SRAM (R481, R483). -/
def inJournal (a : Nat) : Bool := decide (journalBase ≤ a) && decide (a < journalBase + 2 ^ 18)

/-- `m` has served a request whose entry is `i`: the entry holds a reply of STATUS `st` and body `body`; no register but those of `as` and those that a
reply writes, and no byte of memory outside the journal but those of `ms` in system SRAM, has changed. -/
def Served (m u : State) (i st : Nat) (body : List Byte) (as : List Nat) (ms : Nat → Bool) : Prop :=
  u.jState i = 2 ∧ byteAt (u.jReply i) 3 = st ∧ (u.jReply i).drop 32 = body ∧
    (∀ a, replyWrites a = false → a ∉ as → u.reg a = m.reg a) ∧
    (∀ a, inJournal a = false → ms a = false → memByte 0 u.sram a = memByte 0 m.sram a) ∧
    (∀ a, memByte 0 u.cap a = memByte 0 m.cap a) ∧ (∀ a, memByte 0xFF u.flash a = memByte 0xFF m.flash a)

/-- No byte. -/
def noByte (_ : Nat) : Bool := false

/-- The `n` bytes from `b`. -/
def bytesAt (b n a : Nat) : Bool := decide (b ≤ a) && decide (a < b + n)

end Sys2Proof.Machine
end

