-- ==== Sys2Proof/Certificates/Slice0/Obligations.lean ====
section
/-!
DEFINITION. Certificates/Slice0/Obligations.lean: the statements about the block, by family of commands. A statement about a command says under which
conditions on the state and the operands alone it completes, what its next state holds, and what it leaves unchanged. `Yields` is the state just
before the end of the command; SettleOnlyTriggers says what that end adds.
-/

open Sys2Proof Sys2Proof.Machine

/-! ## The machine -/

/-- A step takes the command at the front of the queue and is exec of it on the state with the queue's rest. -/
def Obligations.StepTakesFront : Prop :=
  ∀ (c : Instr) (rest : List Instr) (s : State), step { s with pending := c :: rest } = exec c { s with pending := rest }

/-- An empty queue lets one cycle of the 200 MHz clock pass (the model's choice, assumption 3): local time advances by TB.INCR and the slew
while the time base runs, or takes the value that a step command waits to set, and stands still otherwise (R122, R134, R135, R137); no slew acts in the
cycle of a domain switch (R140). -/
def Obligations.EmptyQueueIsACycle : Prop :=
  ∀ s : State, s.pending = [] → ∃ u : State, step s = .next u.settle ∧ u.time.cycles = s.time.cycles + 1 ∧
    (s.noReset srcADC → s.noReset srcPIN → u.time.scale =
      if s.timeRuns then (match s.time.stepNext with
        | some v => v
        | none => ((s.time.scale : Int) + s.incr + (if s.time.switched then 0 else s.time.slew)).toNat)
      else s.time.scale)

/-- Right after power-on every register reads its listed reset value, no byte of the SRAMs is other than 0, the flash reads erased, nothing waits.
That unlisted flash reads 0xFF is the model's (assumption 5). -/
def Obligations.ResetState : Prop :=
  (∀ a, State.reset.reg a = regDefault a) ∧
    (∀ a, memByte 0 State.reset.sram a = 0 ∧ memByte 0 State.reset.cap a = 0 ∧ memByte 0xFF State.reset.flash a = 0xFF) ∧
    State.reset.pending = [] ∧ State.reset.out = [] ∧ State.reset.rst.overlap = some ⟨3, true, 0⟩ ∧
    State.reset.get CNV.STAT.LOADING = 1 ∧ State.reset.get CNV.STAT.ACTIVE = 0 ∧ State.reset.get PWR.STAT.STATE = 1 ∧
    State.reset.get RST.CAUSE.CAUSE = 1 ∧ State.reset.get CLK.STAT.LOCKED = 0 ∧ State.reset.get TB.STAT.ALIGNED = 0

/-- The memories of the reset state have their canonical form. -/
def Obligations.ResetCanonical : Prop := State.reset.canonical = true

/-- Every step keeps the canonical form of the register file, the SRAMs and the flash, from every state that has it. -/
def Obligations.StepKeepsCanonical : Prop :=
  ∀ s t : State, s.canonical = true → step s = .next t → t.canonical = true

/-- Every command completes, in every state: the spec gives each one an effect, and the model has no fault and refuses nothing. No command touches the queue of
commands. -/
def Obligations.CommandsComplete : Prop :=
  ∀ (c : Instr) (s : State), ∃ t : State, exec c s = .next t ∧ t.pending = s.pending

/-- What the end of a command does (R336, R337): nothing at all when it had no event, nothing but forgetting its events when Geode does not run or none of
them meets a trigger; and after every step no event waits. -/
def Obligations.SettleOnlyTriggers : Prop :=
  (∀ s t : State, step s = .next t → t.geo.events = []) ∧
  (∀ s : State, s.geo.events = [] → s.settle = s) ∧
    (∀ s : State, s.runs bGEO = false → s.settle = { s with geo := { s.geo with events := [] } }) ∧
    (∀ s : State, (∀ e ∈ s.geo.events, ∀ n, n < 8 → s.eventMeets e n = false) → (∀ e ∈ s.geo.events, e.typ ≠ 8) →
      s.settle = { s with geo := { s.geo with events := [] } })

/-! ## Registers (R3, R4, R6, R7) -/

/-- A write meets each field by its access type: RO and WO fields keep, RW and RWA fields take the written bits under the mask, RWL fields too
unless the block is locked, a W1C bit clears where 1 is written and hardware has not set it in this cycle. -/
def Obligations.WriteByAccessType : Prop :=
  ∀ (fs : List FieldSpec) (f : FieldSpec) (locked : Bool) (kept v m old : Word), f ∈ fs → f.lo + f.w ≤ 32 →
    (∀ g ∈ fs, g ≠ f → g.lo + g.w ≤ f.lo ∨ f.lo + f.w ≤ g.lo) →
    let new := storeWord fs locked kept v m old
    let at_ : Fld := ⟨0, f.lo, f.w⟩
    (f.access = .ro ∨ f.access = .wo → wordGet new at_ = wordGet old at_) ∧
    (f.access = .rw ∨ f.access = .rwa ∨ (f.access = .rwl ∧ locked = false) →
      wordGet new at_ = wordGet ((old &&& ~~~ m) ||| (v &&& m)) at_) ∧
    (f.access = .rwl ∧ locked = true → wordGet new at_ = wordGet old at_) ∧
    (f.access = .w1c → wordGet new at_ = wordGet (old &&& ~~~ (v &&& m &&& ~~~ kept)) at_)

/-- A register after a reset of rank `r` over a set of blocks: a field of a reached block whose reach is as narrow as the reset takes its
listed value, every other field and every register of other blocks keeps what it holds. -/
def Obligations.ResetByReach : Prop :=
  ∀ (r blocks : Nat) (m : SMap Word) (a : Nat), SMap.wf regDefault m = true →
    (blocks.testBit (blockOf a) = false → SMap.get (regDefault a) (restoreRegs r blocks m) a = SMap.get (regDefault a) m a) ∧
    (blocks.testBit (blockOf a) = true → ∀ f ∈ fieldsAt a, f.lo + f.w ≤ 32 →
      (∀ g ∈ fieldsAt a, g ≠ f → g.lo + g.w ≤ f.lo ∨ f.lo + f.w ≤ g.lo) →
      wordGet (SMap.get (regDefault a) (restoreRegs r blocks m) a) ⟨0, f.lo, f.w⟩ =
        if f.reach.rank ≤ r then f.reset % 2 ^ f.w else wordGet (SMap.get (regDefault a) m a) ⟨0, f.lo, f.w⟩)

/-! ## Pins -/

/-- GPIOSET and GPIOCLR (R497): the named OUT bits are set or cleared, except that a bit which both name in one cycle is 0; the other bits and
every other register stay. -/
def Obligations.GpioSetAndClear : Prop :=
  ∀ (s : State) (o : Origin) (v : Nat),
    (s.mayWrite o PIN.GPIOSET.SET.addr = true → Yields (.gpioSet o v) s (fun t =>
      (∀ j, j < 24 → t.flag (PIN.PAD.OUT j) = (s.flag (PIN.PAD.OUT j) || (v.testBit j && !(s.pin.clr.1 == s.time.cycles && s.pin.clr.2.testBit j)))) ∧
      RegsKept ((List.range 24).map (fun j => (PIN.PAD.OUT j).addr)) s t ∧ MemKept s t ∧ t.pin = s.pin)) ∧
    (s.mayWrite o PIN.GPIOCLR.CLR.addr = true → Yields (.gpioClr o v) s (fun t =>
      (∀ j, j < 24 → t.flag (PIN.PAD.OUT j) = (s.flag (PIN.PAD.OUT j) && !v.testBit j)) ∧ t.pin.clr.1 = s.time.cycles ∧
      (∀ j, j < 24 → v.testBit j = true → t.pin.clr.2.testBit j = true) ∧
      RegsKept ((List.range 24).map (fun j => (PIN.PAD.OUT j).addr)) s t ∧ MemKept s t))

/-- The diagnostics service reads an enabled lane (R499): the values come from bytes 96 to 105 and the time of reading with them, VALID shows
whether the read succeeded. Bank supplies and nERR (R505, R521): the supply shows in STAT; while a bank is out of its range or has another voltage
than BANKCFG names, or the nERR ball reads high while the device drives it low, the source is live, and a new occurrence is recorded. -/
def Obligations.PinMonitors : Prop :=
  (∀ (s : State) (n : Nat) (b : List Byte), n < 16 → s.getBit PIN.I2CCFG.DDMEN n = true → s.runs bPIN = true → s.forwarderOnly = false →
    s.power ≤ 1 →
    Yields (.ddmRead n (some b)) s (fun t => t.get (PIN.DDM_RX.VALID n) = 1 ∧ t.get (PIN.DDM_TV.TEMP n) = fromBE (sliceB b 1 2) ∧
      t.get (PIN.DDM_TV.VCC n) = fromBE (sliceB b 3 2) ∧ t.get (PIN.DDM_TX.BIAS n) = fromBE (sliceB b 5 2) ∧
      t.get (PIN.DDM_TX.TXPWR n) = fromBE (sliceB b 7 2) ∧ t.get (PIN.DDM_RX.RXPWR n) = fromBE (sliceB b 9 2) ∧
      t.flag (PIN.DDM_RX.EXTCAL n) = (byteAt b 0).testBit 4 ∧ t.get (PIN.DDM_TIME.SEC n) = s.secNow % 2 ^ 32 ∧
      RegsKept [(PIN.DDM_TV.TEMP n).addr, (PIN.DDM_TX.BIAS n).addr, (PIN.DDM_RX.VALID n).addr, (PIN.DDM_TIME.SEC n).addr] s t ∧ MemKept s t) ∧
    Yields (.ddmRead n none) s (fun t => t.get (PIN.DDM_RX.VALID n) = 0 ∧ RegsKept [(PIN.DDM_RX.VALID n).addr] s t ∧ MemKept s t)) ∧
  (∀ (s : State) (ok : Bool), s.recordsOnly (srcPIN 0) = true → s.runs bPIN = true →
    let wrong (want : Nat) (is33 : Bool) : Bool := (want == 1 && is33) || (want == 2 && !is33)
    let wrongA := wrong (s.get PIN.BANKCFG.VIOA) (s.flag PIN.STAT.VIOA33)
    let wrongB := wrong (s.get PIN.BANKCFG.VIOB) (s.flag PIN.STAT.VIOB33)
    Yields (.bankSupplyFault 0 ok) s (fun t => t.flag PIN.STAT.VIOAOK = ok ∧ t.flag PIN.STAT.VIOBOK = s.pin.banks.testBit 1 ∧
      t.flag (srcPIN 0).live = (!ok || wrongA || !s.pin.banks.testBit 1 || wrongB) ∧
      (t.flag (srcPIN 0).live = true → s.flag (srcPIN 0).live = false → t.flag (srcPIN 0).stat = true) ∧
      RegsKept [PIN.STAT.VIOAOK.addr, (srcPIN 0).stat.addr, (srcPIN 0).live.addr] s t ∧ MemKept s t) ∧
    Yields (.bankSupplyFault 1 ok) s (fun t => t.flag PIN.STAT.VIOBOK = ok ∧ t.flag PIN.STAT.VIOAOK = s.pin.banks.testBit 0 ∧
      t.flag (srcPIN 0).live = (!s.pin.banks.testBit 0 || wrongA || !ok || wrongB) ∧
      (t.flag (srcPIN 0).live = true → s.flag (srcPIN 0).live = false → t.flag (srcPIN 0).stat = true) ∧
      RegsKept [PIN.STAT.VIOAOK.addr, (srcPIN 0).stat.addr, (srcPIN 0).live.addr] s t ∧ MemKept s t)) ∧
  (∀ (s : State) (high : Bool), s.recordsOnly (srcPIN 1) = true →
    Yields (.nerrReadbackFault high) s (fun t => t.flag (srcPIN 1).live = (high && s.nerrLow) ∧
      (high = true → s.nerrLow = true → s.flag (srcPIN 1).live = false → t.flag (srcPIN 1).stat = true) ∧
      RegsKept [(srcPIN 1).stat.addr, (srcPIN 1).live.addr] s t ∧ MemKept s t))

/-! ## Fault handling -/

/-- The scrubber reads a word (R432, R430, R431): a clean word moves the pointer on and ends the live condition of the two sources, a single wrong
bit is counted as CE and corrected, two wrong bits in a word outside critical state are counted as UE and stay. The errors are outside the handling
window of an earlier one (R439). -/
def Obligations.ScrubberRead : Prop :=
  ∀ (s : State) (mem : Nat), s.scrubs mem = true → s.scrubDue mem = true → s.marks mem = [] →
    let w := s.scrubPtr mem
    let k := if mem < 2 then mem else 2
    let key := markKey mem w
    (Yields (.scrubRead mem 0) s (fun t => t.scrubPtr mem = (w + 1) % scrubWords mem ∧ t.marks mem = [] ∧ t.out = s.out ∧
      (s.detects bSYS = true → t.flag (srcSYS 0).live = false ∧ t.flag (srcSYS 1).live = false) ∧
      RegsKept [(srcSYS 0).live.addr] s t ∧ MemKept s t)) ∧
    ((s.errorLost k (s.checkerRoot mem) false).1 = false → s.recordsOnly (srcSYS 0) = true → Yields (.scrubRead mem 1) s (fun t =>
      t.scrubPtr mem = (w + 1) % scrubWords mem ∧ t.marks mem = [] ∧ t.passCe mem = s.passCe mem + 1 ∧
      t.get (SYS.ECC_CECNT.COUNT k) = satNext 32 (s.get (SYS.ECC_CECNT.COUNT k)) ∧ t.flag (SYS.ECC_INFO.UE k) = false ∧
      t.get (SYS.ECC_INFO.AGENT k) = 1 ∧ t.get (SYS.ECC_ADDR.ADDR k) = captureAddr mem w % 2 ^ 32 ∧ t.flag (srcSYS 0).stat = true ∧ MemKept s t)) ∧
    (∀ b, 2 ≤ b → criticalWord mem w = false → (s.errorLost k (s.checkerRoot mem) false).1 = false → s.recordsOnly (srcSYS 1) = true → Yields (.scrubRead mem b) s (fun t =>
      t.scrubPtr mem = (w + 1) % scrubWords mem ∧ SMap.get (⟨0, 0⟩ : EccMark) (t.marks mem) key = ⟨0, b⟩ ∧
      t.get (SYS.ECC_UECNT.COUNT k) = satNext 32 (s.get (SYS.ECC_UECNT.COUNT k)) ∧ t.flag (SYS.ECC_INFO.UE k) = true ∧
      t.flag (srcSYS 1).stat = true ∧ MemKept s t))

/-- The end of a scrub pass (R432), the parity sweep (R433, R434), the arming of an injection (R436) and the return from a trap handler (R427). -/
def Obligations.FaultMachinery : Prop :=
  (∀ (s : State) (mem : Nat), s.scrubs mem = true → s.sys.passOver.testBit mem = true → s.recordsOnly (srcSYS 2) = true →
    Yields (.scrubPassEnd mem) s (fun t => t.passCe mem = 0 ∧ t.sys.passOver.testBit mem = false ∧ t.flag (srcSYS 2).live = decide (s.get SYS.CETHRESH.CE < s.passCe mem) ∧
      (mem = 0 → t.get SYS.SCRUBPASS.SYSRAM = (s.get SYS.SCRUBPASS.SYSRAM + 1) % 2 ^ 16) ∧
      (mem = 1 → t.get SYS.SCRUBPASS.CAPRAM = (s.get SYS.SCRUBPASS.CAPRAM + 1) % 2 ^ 16) ∧
      (s.get SYS.CETHRESH.CE < s.passCe mem → t.flag (srcSYS 2).stat = true) ∧
      RegsKept [SYS.SCRUBPASS.SYSRAM.addr, (srcSYS 2).stat.addr, (srcSYS 2).live.addr] s t ∧ MemKept s t)) ∧
  (∀ (s : State) (a : Nat), s.power ≤ 1 → s.sys.parity = [] → criticalReg a = true → a < 2 ^ 32 → s.flag RST.CFG.CRITEN = false →
    s.busCyclesGone s.sys.sweepAt 1024 = true → (s.errorLost 3 (s.get CLK.DIV.BUSDIV) true).1 = false → s.recordsOnly (srcSYS 3) = true →
    Yields (.paritySweep [a]) s (fun t => t.get SYS.PARADDR.ADDR = a ∧ t.get SYS.PARCNT.COUNT = satNext 32 (s.get SYS.PARCNT.COUNT) ∧
      t.flag (srcSYS 3).stat = true ∧ t.flag (srcSYS 3).live = true ∧ MemKept s t) ∧
    Yields (.paritySweep []) s (fun t => RegsKept [(srcSYS 3).live.addr] s t ∧ t.flag (srcSYS 3).live = false ∧ t.sys.parity = [] ∧ MemKept s t)) ∧
  (∀ (s : State) (o : Origin) (v : Nat), s.mayWrite o SYS.INJCTL.ARM.addr = true → s.log.queue.length < queuePlaces o → o.agent ≠ 0 → v < 2 ^ 32 →
    s.flag SYS.INJCTL.ARMED = false →
    Yields (.injectionArm o v) s (fun t => t.get SYS.INJCTL.TARGET = v % 16 ∧
      t.flag SYS.INJCTL.ARMED = !(decide (2 ≤ v % 16) && decide (v % 16 ≤ 6) && s.inRun) ∧
      ((decide (2 ≤ v % 16) && decide (v % 16 ≤ 6) && s.inRun) = true → t.flag SYS.INJCTL.DENIED = true) ∧ MemKept s t)) ∧
  (∀ (s : State) (core : Nat), s.sys.inTrap.testBit core = true →
    Yields (.pendingTrapTaken core) s (fun t =>
      (∀ j, t.sys.trapPend.testBit j = (s.sys.trapPend.testBit j && !(j == core))) ∧
      (∀ j, t.sys.inTrap.testBit j = (s.sys.inTrap.testBit j && !(j == core && !s.sys.trapPend.testBit core))) ∧
      RegsKept [] s t ∧ MemKept s t))

/-! ## Resets -/

/-- Power-on reset (R403, R404, R517): a supply out of its band or TESTEN high resets everything: the SRAMs are initialised, the registers of all reaches
restored, CAUSE names POR and the overlap is of reach C with POR; the flash lasts. A supply back in band, or TESTEN low, only ends that source. -/
def Obligations.PowerOnSources : Prop :=
  ∀ s : State,
    (Yields (.powerOnReset false) s (fun t => t.sram = [] ∧ t.cap = [] ∧ t.flash = s.flash ∧ t.rst.supplyBad = true ∧
      t.get RST.CAUSE.CAUSE = 1 ∧ t.get CNV.STAT.LOADING = 1 ∧ t.get CNV.STAT.ACTIVE = 0 ∧
      (∃ o, t.rst.overlap = some o ∧ o.por = true ∧ 3 ≤ o.reach) ∧ t.pending = s.pending)) ∧
    (Yields (.testenHigh true) s (fun t => t.sram = [] ∧ t.cap = [] ∧ t.flash = s.flash ∧ t.rst.testen = true ∧
      t.get RST.CAUSE.CAUSE = 1 ∧ (∃ o, t.rst.overlap = some o ∧ o.por = true ∧ 3 ≤ o.reach))) ∧
    (Yields (.powerOnReset true) s (fun t => t = { s with rst := { s.rst with supplyBad := false } })) ∧
    (Yields (.testenHigh false) s (fun t => t = { s with rst := { s.rst with testen := false } }))

/-- nRESET, the link reset command and the software reset (R403, R406, R408, R409): each joins the overlap with its reach, records its bit in CAUSE, and
counts; a link reset command that fails its checks is counted and resets nothing. -/
def Obligations.ResetCommands : Prop :=
  (∀ s : State, s.rst.pinLow = false → Yields .nresetAssert s (fun t => t.rst.pinLow = true ∧ t.sram = [] ∧ t.cap = [] ∧ t.flash = s.flash ∧
    t.get RST.PINCNT.COUNT = satNext 32 (s.get RST.PINCNT.COUNT) ∧ (t.get RST.CAUSE.CAUSE).testBit 1 = true ∧
    (∃ o, t.rst.overlap = some o ∧ 3 ≤ o.reach))) ∧
  (∀ (s : State) (high : Nat), s.rst.pinLow = true → s.recordsOnly (srcRST 2) = true →
    let held := s.time.cycles - high - s.rst.pinLowAt
    (high < 400 → Yields (.nresetRelease high) s (fun t => t = s)) ∧
    (400 ≤ high → Yields (.nresetRelease high) s (fun t =>
    t.rst.pinLow = false ∧ t.get RST.LASTHELD.MS = (if held / 200000 < 2 ^ 32 then held / 200000 else 2 ^ 32 - 1) ∧
    t.flag (srcRST 2).live = decide (200000000 < held) ∧ (200000000 < held → t.flag (srcRST 2).stat = true) ∧
    RegsKept [RST.LASTHELD.MS.addr, (srcRST 2).stat.addr, (srcRST 2).live.addr] s t ∧ MemKept s t))) ∧
  (∀ (s : State) (n : Nat) (f : Frame), s.power ≠ 3 → (s.mgmtTake n f).1 = true → byteAt (txnOf n f).pay 0 = 0xF0 →
    let m := (s.mgmtTake n f).2
    (m.linkGood (txnOf n f) = true → 2 ≤ byteAt (txnOf n f).pay 1 → Yields (.linkResetCommand n f) s (fun t =>
      t.get RST.RCOUNT.COUNT = leAt (txnOf n f).pay 8 4 ∧ t.get RST.LINKCNT.COUNT = satNext 32 (m.get RST.LINKCNT.COUNT) ∧
      (t.get RST.CAUSE.CAUSE).testBit 2 = true ∧ (∃ o, t.rst.overlap = some o ∧ byteAt (txnOf n f).pay 1 ≤ o.reach))) ∧
    (m.linkGood (txnOf n f) = false → m.recordsOnly (srcRST 0) = true → Yields (.linkResetCommand n f) s (fun t =>
      t.get RST.LINKREJ.COUNT = satNext 32 (m.get RST.LINKREJ.COUNT) ∧ t.rst.overlap = m.rst.overlap ∧ MemKept m t))) ∧
  (∀ (s : State) (o : Origin), s.mayWrite o RST.SWCMD.REACH.addr = true → s.log.queue.length < queuePlaces o → o.agent ≠ 0 →
    Yields (.softReset o 2) s (fun t => (t.get RST.CAUSE.CAUSE).testBit 9 = true ∧ t.get CNV.STAT.ACTIVE = 0 ∧ t.get CNV.STAT.LOADING = 1 ∧
      (∃ x, t.rst.overlap = some x ∧ 2 ≤ x.reach) ∧ t.flash = s.flash) ∧
    Yields (.softReset o 3) s (fun t => (t.get RST.CAUSE.CAUSE).testBit 9 = true ∧ t.sram = [] ∧ t.cap = [] ∧ t.flash = s.flash ∧
      (∃ x, t.rst.overlap = some x ∧ 3 ≤ x.reach)) ∧
    Yields (.softReset o 0) s (fun t => t.rst = s.rst ∧ t.flash = s.flash ∧ t.cap = s.cap))

/-- The start-up that ends an overlap of reach W (R407, R411, R412): no reset holds the device any more, LAST and STRAPS show what was, and the entry of
type 0x05 is queued. -/
def Obligations.StartUpEndsOverlap : Prop :=
  ∀ (s : State) (x : Straps) (o : OverlapSt), s.rst.overlap = some o → o.reach = 2 → s.released = true → s.log.queue.length < 12 →
    (s.rst.lastStraps = none ∨ s.rst.lastStraps = some (strapWord x)) → x.bypRb = false → s.noReset srcPIN →
    Yields (.resetStartUp x) s (fun t => t.rst.overlap = none ∧ t.get RST.LAST.REACH = 2 ∧ t.flag RST.LAST.PORFLAG = o.por ∧
      (t.reg RST.STRAPS.BOOT.addr).toNat = strapWord x ∧ t.rst.lastStraps = some (strapWord x) ∧ t.flag SAF.STAT.BYPCLOSED = false ∧
      t.log.queue.length = s.log.queue.length + 1 ∧ (t.log.queue.getLast?.map (fun e => byteAt e 0)) = some 0x05 ∧ MemKept s t)

/-! ## Clock and power -/

/-- Loss and choice of the reference (R384 to R386): holdover begins and counts, automatic switching takes the first READY lane of ALTLIST; SRCSEL switches
to a READY lane and refuses any other; a completed switch locks the root and ends holdover. -/
def Obligations.ReferenceCommands : Prop :=
  (∀ s : State, s.flag CLK.STAT.LOCKED = true → s.flag CLK.STAT.HOLDOVER = false → s.recordsOnly (srcCLK 0) = true → s.clk.switching = none →
    Yields .referenceLoss s (fun t => t.flag CLK.STAT.HOLDOVER = true ∧ t.flag CLK.STAT.LOCKED = false ∧
      t.get CLK.HOLDOVERS.COUNT = satNext 32 (s.get CLK.HOLDOVERS.COUNT) ∧ t.clk.holdStart = s.time.cycles ∧ t.flag (srcCLK 0).stat = true ∧
      t.clk.switching = (if s.flag CLK.CTRL.AUTOSW then
        (((List.range 4).map (fun i => s.get CLK.ALTLIST.ALT / 16 ^ i % 16)).find? (fun n => n != 15 && s.flag (LNK.STAT.READY n))).map (fun n => (n, false))
        else none) ∧ MemKept s t)) ∧
  (∀ (s : State) (o : Origin) (v : Nat), s.mayWrite o CLK.SRCSEL.GO.addr = true → s.log.queue.length < queuePlaces o → o.agent ≠ 0 → v < 2 ^ 32 →
    (s.flag (LNK.STAT.READY (v % 16)) = true → Yields (.srcselGo o v) s (fun t =>
      t.clk.switching = some (v % 16, o.agent == 7 && ((s.isCell && v % 16 == 1) || (s.isHub && v % 16 == 13))) ∧
      t.get CLK.SRCSEL.LANE = v % 16 ∧ MemKept s t)) ∧
    (s.flag (LNK.STAT.READY (v % 16)) = false → s.recordsOnly (srcCLK 2) = true → Yields (.srcselGo o v) s (fun t =>
      t.clk.switching = s.clk.switching ∧ t.get CLK.REFUSALS.COUNT = satNext 32 (s.get CLK.REFUSALS.COUNT) ∧ t.flag (srcCLK 2).stat = true ∧
      MemKept s t))) ∧
  (∀ (s : State) (n : Nat) (sv : Bool), s.clk.switching = some (n, sv) → n < 16 →
    Yields .referenceSwitchDone s (fun t => t.clk.switching = none ∧ t.get CLK.STAT.REF = n ∧ t.flag CLK.STAT.LOCKED = true ∧
      t.flag CLK.STAT.HOLDOVER = false ∧ t.clk.stopped = false ∧ t.get CLK.SWITCHES.COUNT = satNext 32 (s.get CLK.SWITCHES.COUNT) ∧
      t.flag CLK.STAT.REVERSED = (sv || s.flag CLK.STAT.REVERSED) ∧ MemKept s t))

/-- Loss and return of the clock (R389, R390): CLKSAFE is entered at the end of holdover, 120 µs after its start at the earliest, and at a stopped root, with ALIGNED cleared, the safe state, gates
off and the power state kept; the root locks to its READY CLKM lane again, and one lock delay later the safe state ends with a block reset of PWM and SAF. -/
def Obligations.ClockLossAndReturn : Prop :=
  (∀ s : State, s.flag CLK.STAT.HOLDOVER = true → s.clk.switching = none → s.clk.holdStart + 24000 ≤ s.time.cycles → s.flag CLK.STAT.SAFE = false → s.recordsOnly (srcCLK 1) = true →
    s.saf.bypassed = false →
    Yields .holdoverExpire s (fun t => t.flag CLK.STAT.SAFE = true ∧ t.flag TB.STAT.ALIGNED = false ∧ t.flag (srcCLK 1).stat = true ∧
      t.get CLK.SAFEENTRY.COUNT = satNext 32 (s.get CLK.SAFEENTRY.COUNT) ∧ t.saf.safe.testBit 0 = true ∧ t.flag SAF.STAT.SAFESTATE = true ∧
      t.pwm.gates = 0 ∧ t.get SAF.STAT.ENCMD = 0 ∧ t.power = s.power ∧ MemKept s t)) ∧
  (∀ s : State, s.flag CLK.STAT.SAFE = false → s.recordsOnly (srcCLK 1) = true → s.saf.bypassed = false →
    Yields .clockStop s (fun t => t.clk.stopped = true ∧ t.flag CLK.STAT.LOCKED = false ∧ t.flag CLK.STAT.SAFE = true ∧ t.flag TB.STAT.ALIGNED = false ∧
      t.saf.safe.testBit 0 = true ∧ t.pwm.gates = 0 ∧ t.power = s.power ∧ (∀ n, t.laneUp n = false) ∧ MemKept s t)) ∧
  (∀ s : State, s.flag CLK.STAT.LOCKED = false → s.flag (LNK.STAT.READY (clkmLane (s.get CLK.STAT.CLKM))) = true →
    Yields .clockReturn s (fun t => t.flag CLK.STAT.LOCKED = true ∧ t.get CLK.STAT.REF = clkmLane (s.get CLK.STAT.CLKM) ∧ t.clk.stopped = false ∧
      t.flag CLK.STAT.HOLDOVER = false ∧ t.clk.relockAt = (if s.flag CLK.STAT.SAFE then some s.time.cycles else none) ∧ MemKept s t)) ∧
  (∀ (s : State) (c : Nat), s.flag CLK.STAT.LOCKED = true → s.clk.relockAt = some c → s.flag CLK.STAT.SAFE = true → s.rst.overlap = none → s.rst.starting = none →
    c + lockDelay (s.get CLK.STAT.LOCKDLY) ≤ s.time.cycles → s.geo.cur = none →
    Yields .clockReturn s (fun t => t.flag CLK.STAT.SAFE = false ∧ t.rst.overlap = some ⟨1, false, 2 ^ 11 + 2 ^ 14⟩ ∧ t.saf.safe.testBit 0 = false ∧
      t.clk.relockAt = none ∧ MemKept s t))

/-- The frequency meter (R391) and the clock gates (R392): a start sets BUSY; while the reference clock runs the result is the count, held at all ones, with
DONE; CLK.GATE changes the gates of instantiated blocks that are not fixed and no other. The ring clock service (R387): member B of a hub sends into a ring
that is BROKEN, and that it has not served since, a broadcast write of CLK.SRCSEL that names L1. -/
def Obligations.MeterAndGates : Prop :=
  (∀ (s : State) (o : Origin) (v : Nat), s.mayWrite o CLK.FMCFG.START.addr = true → v < 2 ^ 32 →
    Yields (.frequencyMeterStart o v) s (fun t => t.flag CLK.FMCFG.BUSY = true ∧ t.get CLK.FMCFG.MEAS = v % 32 ∧
      RegsKept [CLK.FMCFG.START.addr] s t ∧ MemKept s t)) ∧
  (∀ (s : State) (n : Nat), s.flag CLK.FMCFG.BUSY = true → s.meterRuns (s.get CLK.FMCFG.REF) = true → s.recordsOnly (srcCLK 4) = true →
    let k := s.meterCount n
    Yields (.frequencyMeterDone n) s (fun t => t.flag CLK.FMCFG.BUSY = false ∧ t.flag CLK.FMCFG.DONE = true ∧
      t.get CLK.FMCOUNT.COUNT = (if k < 2 ^ 32 then k else 2 ^ 32 - 1) ∧ (2 ^ 32 - 1 ≤ k → t.flag (srcCLK 4).stat = true) ∧
      RegsKept [CLK.FMCFG.START.addr, CLK.FMCOUNT.COUNT.addr, (srcCLK 4).stat.addr, (srcCLK 4).live.addr] s t ∧ MemKept s t)) ∧
  (∀ (s : State) (o : Origin) (v busy : Nat), s.answers bCLK = true → s.log.queue.length < queuePlaces o → o.agent ≠ 0 → v < 2 ^ 32 →
    s.recordsOnly (srcCLK 3) = true →
    Yields (.clockGateWrite o v busy) s (fun t => (∀ i, i < 23 → t.getBit CLK.GATE.RUN i =
        if s.getBit CNV.INST.INST i && !fixedBlocks.testBit i then v.testBit i else s.getBit CLK.GATE.RUN i) ∧
      (busy = 0 → t.get CLK.ABORTS.COUNT = s.get CLK.ABORTS.COUNT) ∧ MemKept s t)) ∧
  (∀ (s : State) (r : Nat), s.member = 1 → s.isHub = true → r < 12 → s.cnv.ringEn.testBit r = true → s.scr.decision.modes.getD r 3 = 1 →
    s.clk.broken.testBit r = false → s.forwarderOnly = false →
    Yields (.ringClockService r) s (fun t => (∀ j, t.clk.broken.testBit j = (s.clk.broken.testBit j || j == r)) ∧
      (s.laneUp r = true → Sends t r (fun g => g.ftype = ftMgmt ∧ g.dst = addrAll ∧ (txnOf r g).op = opWrite ∧
        (txnOf r g).body = toLE 4 CLK.SRCSEL.LANE.addr ++ [1, 0, 0, 0] ++ toLE 4 (1 + 2 ^ CLK.SRCSEL.GO.lo))) ∧ MemKept s t))

/-- Power commands (R397, R398): an armed command waits for its tick, one too near is refused; at the tick the state changes and the transition is in progress,
or it is refused with its code; the end of the transition counts it. Struck discards both SRAMs. -/
def Obligations.PowerCommands : Prop :=
  (∀ (s : State) (o : Origin) (v : Nat), s.mayWrite o PWR.CMD.ARM.addr = true → s.log.queue.length < queuePlaces o → o.agent ≠ 0 → v < 2 ^ 32 →
    s.power ≤ 1 → s.flag TB.STAT.ALIGNED = true →
    Yields (.pwrCmdArm o v) s (fun t => t.get PWR.CMD.TARGET = v / 2 ^ 16 % 4 ∧ t.power = s.power ∧ MemKept s t ∧
      (if farEnough s.tick (v % 65536) then t.flag PWR.CMD.ARMED = true ∧ t.pwr.tick = namedTick s.tick (v % 65536)
       else t.flag PWR.CMD.LATE = true ∧ t.flag PWR.CMD.ARMED = s.flag PWR.CMD.ARMED))) ∧
  (∀ s : State, s.flag PWR.CMD.ARMED = true → s.pwr.tick ≤ s.tick →
    (s.pwrCode (s.get PWR.CMD.TARGET) = 0 → s.get PWR.CMD.TARGET < 2 → s.power ≤ 1 → Yields .powerTransition s (fun t =>
      t.power = s.get PWR.CMD.TARGET ∧ t.flag PWR.STAT.INTRANS = true ∧ t.flag PWR.CMD.ARMED = false ∧
      t.pwr.trans = some (s.get PWR.CMD.TARGET, s.time.cycles) ∧ MemKept s t)) ∧
    (s.pwrCode (s.get PWR.CMD.TARGET) = 0 → s.get PWR.CMD.TARGET = 3 → Yields .powerTransition s (fun t => t.sram = [] ∧ t.cap = [])) ∧
    (s.pwrCode (s.get PWR.CMD.TARGET) ≠ 0 → s.recordsOnly (srcPWR 0) = true → Yields .powerTransition s (fun t =>
      t.power = s.power ∧ t.get PWR.STAT.REFCODE = s.pwrCode (s.get PWR.CMD.TARGET) ∧ t.get PWR.REFUSED.COUNT = satNext 32 (s.get PWR.REFUSED.COUNT) ∧
      t.flag (srcPWR 0).stat = true ∧ MemKept s t))) ∧
  (∀ (s : State) (k c : Nat), s.pwr.trans = some (k, c) → Yields .powerTransitionDone s (fun t => t.pwr.trans = none ∧ t.flag PWR.STAT.INTRANS = false ∧
    t.get PWR.TRANSITIONS.COUNT = satNext 32 (s.get PWR.TRANSITIONS.COUNT) ∧
    t.get PWR.LASTDUR.US = (let us := (s.time.cycles - c) * 5 / 1000; if us < 2 ^ 32 then us else 2 ^ 32 - 1) ∧
    RegsKept [PWR.STAT.STATE.addr, PWR.TRANSITIONS.COUNT.addr, PWR.LASTDUR.US.addr] s t ∧ MemKept s t))

/-! ## Time -/

/-- A central launches its Time frame at a tick k with k mod 256 = 0 on every trunk lane and its cross-link (R98, R131): on each such lane that is UP the frame
is on its way or waits, on any other lane it is dropped; other devices launch none. -/
def Obligations.TimeFrameLaunch : Prop :=
  (∀ s : State, s.launchesTime = true → Yields .timeFrameLaunch s (fun t => ∀ l, 1 ≤ l → l ≤ 7 → s.laneUp l = true →
    ∃ g : Frame, g.ftype = 4 ∧ g.dst = addrAll ∧ g.seq = s.tick % 65536 ∧ g.body = s.timeBody ∧
      (Emit.frame l g ∈ t.out ∨ ∃ w ∈ (t.lane l).waiting, w.frame = g))) ∧
  (∀ s : State, s.launchesTime = false → Yields .timeFrameLaunch s (fun t => t = s))

/-- A cell takes the first copy of a Time frame with a valid origin and increment (R130, R132, R138, R141): the domain is valid, holding ends, the copy is
remembered; a frame of the governing domain loads the increment and leaves the device aligned, one of the other domain changes no increment. -/
def Obligations.TimeFrameTaken : Prop :=
  ∀ (s : State) (n age x : Nat) (f : Frame), (s.arrive n f).1 = true →
    let m := (s.arrive n f).2
    m.isCell = true → m.inReset = false → m.timeRuns = true → m.frameDomain f = some x → incrOk (f.field 5 0 8) = true →
    m.time.accepted.contains (f.field 6 2 2, f.field 1 0 8) = false →
    Yields (.timeFrameReceive n f age) s (fun t => t.flag (if x = 0 then TB.STAT.VALIDA else TB.STAT.VALIDB) = true ∧ t.flag TB.STAT.HOLD = false ∧
      t.time.accepted.head? = some (f.field 6 2 2, f.field 1 0 8) ∧ MemKept m t ∧
      (x = m.gov → t.incr = f.field 5 0 8 ∧ t.flag TB.STAT.ALIGNED = true) ∧ (x ≠ m.gov → t.incr = m.incr ∧ t.time.scale = m.time.scale))

/-- Validity and change of the governing domain (R138 to R141): a stale domain is no longer valid and with none valid the device holds its increment without
slew; an armed switch names a tick at least 16 ahead; at the switch the governing domain changes and the alignment error stays as it was. -/
def Obligations.TimeDomains : Prop :=
  (∀ (s : State) (x : Nat), x < 2 → s.domainStale x = true → Yields (.domainValidityExpire x) s (fun t =>
    t.flag (if x = 0 then TB.STAT.VALIDA else TB.STAT.VALIDB) = false ∧
    (s.flag (if x = 0 then TB.STAT.VALIDB else TB.STAT.VALIDA) = false → t.flag TB.STAT.HOLD = true ∧ t.time.slew = 0) ∧ t.incr = s.incr ∧
    RegsKept [TB.STAT.ALIGNED.addr] s t ∧ MemKept s t)) ∧
  (∀ (s : State) (o : Origin) (v : Nat), s.mayWrite o TB.DOMSW.ARM.addr = true → v < 2 ^ 32 → Yields (.domswArm o v) s (fun t =>
    t.get TB.DOMSW.TARGET = v / 2 ^ 16 % 2 ∧ RegsKept [TB.DOMSW.ARM.addr] s t ∧ MemKept s t ∧
    (if farEnough s.tick (v % 65536) then t.flag TB.DOMSW.ARMED = true ∧ t.time.switchTick = namedTick s.tick (v % 65536)
     else t.flag TB.DOMSW.LATE = true ∧ t.time.switchTick = s.time.switchTick))) ∧
  (∀ s : State, s.flag TB.DOMSW.ARMED = true → s.time.switchTick ≤ s.tick → s.get TB.DOMSW.TARGET ≠ s.gov →
    Yields .domainSwitch s (fun t => t.gov = s.get TB.DOMSW.TARGET ∧ t.flag TB.DOMSW.ARMED = false ∧ t.flag TB.STAT.SWITCHED = true ∧
      (s.flag TB.STAT.ALIGNED = true → t.fullOff t.gov - t.time.handoff = s.fullOff s.gov - s.time.handoff) ∧ t.time.scale = s.time.scale ∧
      MemKept s t))

/-- A central's own time (R128, R129, R135): INCR_HI commits the held fraction with it when the value is in range and within a step of the present one, else
INCRERR is set and the increment stays; a step commanded outside Run sets the scale and ALIGNED in the next cycle, in Run it is refused. A refused commit uses
up the held fraction (the model's choice, assumption 158). -/
def Obligations.CentralTime : Prop :=
  (∀ (s : State) (o : Origin) (hi : Nat), s.isCentral = true → s.mayWrite o TB.INCR_HI.NS.addr = true → s.log.queue.length < queuePlaces o → o.agent ≠ 0 →
    hi < 2 ^ 32 →
    let v := hi * 2 ^ 32 + s.time.incrHeld.getD (s.get TB.INCR_LO.FRAC)
    let good := incrOk v && decide (v ≤ s.incr + 0x53E3) && decide (s.incr ≤ v + 0x53E3)
    Yields (.tbIncrCommit o hi) s (fun t => t.time.incrHeld = none ∧ (good = true → t.incr = v) ∧
      (good = false → t.incr = s.incr ∧ t.flag TB.STAT.INCRERR = true) ∧ MemKept s t)) ∧
  (∀ (s : State) (o : Origin) (v : Nat), s.isCentral = true → s.mayWrite o TB.SETCMD.STEP.addr = true → v < 2 ^ 32 →
    (s.inRun = false →
      let held := SMap.get 0 s.sys.held TB.SETSEC_LO.SEC.addr
      let lo := if held = 0 then s.get TB.SETSEC_LO.SEC else (held - 1) % 2 ^ 32
      let now := ((s.get TB.SETSEC_HI.SEC * 2 ^ 32 + lo) * 10 ^ 9 + s.get TB.SETNS.NS) * nsUnit
      Yields (.tbStep o v) s (fun t => t.time = { s.time with stepNext := some now } ∧ RegsKept [TB.SETSEC_LO.SEC.addr] s t ∧ MemKept s t)) ∧
    (∀ w, s.time.stepNext = some w → s.timeRuns = true → s.pending = [] → s.noReset srcADC → s.noReset srcPIN →
      ∃ u : State, step s = .next u.settle ∧ u.flag TB.STAT.ALIGNED = true ∧ u.time.scale = w ∧ u.time.stepNext = none) ∧
    (s.inRun = true → Yields (.tbStep o v) s (fun t => t.flag TB.STAT.STEPERR = true ∧ t.time.scale = s.time.scale ∧
      RegsKept [TB.STAT.STEPERR.addr] s t ∧ MemKept s t)))

/-- The snapshot (R127) takes every value of one cycle. The compare units (R125, R143): a unit armed on a reached target fires in the next cycle; a unit that
fires sets FIRED, counts, and goes on by PERIOD or is disarmed; DEST 3 starts a pulse of 8 cycles. -/
def Obligations.SnapshotAndCompare : Prop :=
  (∀ (s : State) (o : Origin) (v : Nat), s.mayWrite o TB.SNAP.CAPTURE.addr = true → v < 2 ^ 32 → Yields (.tbSnapshot o v) s (fun t =>
    t.get TB.SNAP_SHORT.COUNT = s.short ∧ t.get TB.SNAP_FRAC.FRAC = s.stamp % 64 ∧ t.get TB.SNAP_NSEC.NS = s.nsecNow ∧
    t.getPair TB.SNAP_SEC_LO.SEC TB.SNAP_SEC_HI.SEC = s.secNow % 2 ^ 48 ∧ t.getPair TB.SNAP_TICK_LO.TICK TB.SNAP_TICK_HI.TICK = s.tick % 2 ^ 64 ∧
    t.time = s.time ∧ MemKept s t)) ∧
  (∀ (s : State) (o : Origin) (n v : Nat), n < 8 → v < 2 ^ 32 →
    (s.mayWrite o (TB.CMP_TARGET.TARGET n).addr = true → Yields (.compareArm o n true v) s (fun t => t.get (TB.CMP_TARGET.TARGET n) = v ∧
      t.time.lateFire.contains n = (s.flag (TB.CMP_CTRL.EN n) && decide (0 ≤ seqDiff 32 s.short v)) ∧
      RegsKept [(TB.CMP_TARGET.TARGET n).addr] s t ∧ MemKept s t)) ∧
    (s.mayWrite o (TB.CMP_CTRL.EN n).addr = true → Yields (.compareArm o n false v) s (fun t => t.flag (TB.CMP_CTRL.EN n) = v.testBit 0 ∧
      t.time.lateFire.contains n = (v.testBit 0 && s.cmpReached n) ∧ RegsKept [(TB.CMP_CTRL.EN n).addr] s t ∧ MemKept s t))) ∧
  (∀ (s : State) (n : Nat), n < 8 → s.flag (TB.CMP_CTRL.EN n) = true → (s.cmpReached n || s.time.lateFire.contains n) = true → s.get (TB.CMP_CTRL.DEST n) ≠ 2 →
    Yields (.compareFire n) s (fun t => t.flag (TB.CMP_CTRL.FIRED n) = true ∧ t.get (TB.CMP_FIRECNT.COUNT n) = satNext 32 (s.get (TB.CMP_FIRECNT.COUNT n)) ∧
      (s.flag (TB.CMP_CTRL.PERIODIC n) = true → t.flag (TB.CMP_CTRL.EN n) = true ∧
        t.get (TB.CMP_TARGET.TARGET n) = (s.get (TB.CMP_TARGET.TARGET n) + s.get (TB.CMP_PERIOD.PERIOD n)) % 2 ^ 32) ∧
      (s.flag (TB.CMP_CTRL.PERIODIC n) = false → t.flag (TB.CMP_CTRL.EN n) = false) ∧
      (s.get (TB.CMP_CTRL.DEST n) = 3 → SMap.get 0 t.pin.pulse n = s.time.cycles + 8) ∧
      RegsKept [(TB.CMP_CTRL.EN n).addr, (TB.CMP_TARGET.TARGET n).addr, (TB.CMP_FIRECNT.COUNT n).addr] s t ∧ MemKept s t))

/-! ## Lanes -/

/-- Lane state (R75, R76, R383, R495): block lock with RXOK brings a lane UP; loss of lock or 16 IDLE blocks with RXOK = 0 take it DOWN with the sticky bit and,
for a lost lock, the count; READY needs lock for the lock delay; an enabled LOSn level acts as loss of signal; an IDLE block shows the peer's bits, brings a
lane with lock UP or takes it DOWN, and is answered by one of the device's own (that this one stands for all IDLE blocks sent is the model's choice, assumption
35). -/
def Obligations.LaneState : Prop :=
  (∀ (s : State) (n : Nat), n < 16 → s.laneOn n = true → s.flag (LNK.STAT.PEERRX n) = true → s.clk.stopped = false → s.clk.rateHold = false →
    s.laneUp n = false → (s.lane n).badHeads = [] →
    Yields (.laneUp n) s (fun t => t.flag (LNK.STAT.LOCK n) = true ∧ t.laneUp n = true ∧ (t.lane n).upTick = s.tick ∧ MemKept s t)) ∧
  (∀ (s : State) (n : Nat), n < 16 → s.laneUp n = true → s.flag (LNK.STAT.LOCK n) = true → s.recordsOnly (srcSYS 5) = true → s.noReset srcCLK →
    Yields (.laneDown n true) s (fun t => t.laneUp n = false ∧ t.flag (LNK.STAT.LOCK n) = false ∧ t.flag (LNK.STAT.READY n) = false ∧
      t.flag (LNK.STAT.DOWN n) = true ∧ t.get (LNK.LOCKLOSS.COUNT n) = satNext 32 (s.get (LNK.LOCKLOSS.COUNT n)) ∧ t.flag (srcSYS 5).stat = true ∧
      t.geo.events.map (fun e => (e.typ, e.code, e.lane)) = s.geo.events.map (fun e => (e.typ, e.code, e.lane)) ++ [(4, 2, n)] ∧ MemKept s t)) ∧
  (∀ (s : State) (n : Nat), n < 16 → s.laneUp n = true → 16 ≤ (s.lane n).idleBad →
    Yields (.laneDown n false) s (fun t => t.laneUp n = false ∧ t.flag (LNK.STAT.LOCK n) = s.flag (LNK.STAT.LOCK n) ∧ t.flag (LNK.STAT.DOWN n) = true ∧
      RegsKept [(LNK.STAT.UP n).addr, SYS.LNKLIVE.LANE.addr] s t ∧ MemKept s t)) ∧
  (∀ (s : State) (n : Nat) (ready : Bool), n < 16 → Yields (.laneReady n ready) s (fun t =>
    t.flag (LNK.STAT.READY n) = (ready && s.flag (LNK.STAT.LOCK n) && decide ((s.lane n).lockAt + lockDelay (s.get CLK.STAT.LOCKDLY) ≤ s.time.cycles)) ∧
    (s.flag CLK.STAT.LOCKED = false → s.flag CLK.STAT.HOLDOVER = false → s.flag CLK.STAT.SAFE = false → n = clkmLane (s.get CLK.STAT.CLKM) →
      t.flag (LNK.STAT.READY n) = true → t.flag CLK.STAT.LOCKED = true ∧ t.get CLK.STAT.REF = n) ∧ MemKept s t)) ∧
  (∀ (s : State) (n : Nat) (level : Bool), n < 16 → s.recordsOnly (srcSYS 5) = true → s.noReset srcCLK → s.runs bPIN = true → Yields (.losAssert n level) s (fun t =>
    t.getBit PIN.LOSSTAT.LEVEL n = level ∧ (t.lane n).los = (level && s.getBit PIN.LOSEN.EN n) ∧
    ((level && s.getBit PIN.LOSEN.EN n) = true → t.laneUp n = false ∧ t.flag (LNK.STAT.LOCK n) = false) ∧
    ((level && s.getBit PIN.LOSEN.EN n) = false → RegsKept [PIN.LOSSTAT.LEVEL.addr] s t) ∧ MemKept s t)) ∧
  (∀ (s : State) (n : Nat) (b : IdleBlock), n < 16 → s.receives n = true →
    Yields (.idleFrame n b.rxok b.beacon b.inreset ⟨b.wrap, b.sender⟩) s (fun t => t.flag (LNK.STAT.PEERRX n) = b.rxok ∧ t.flag (LNK.STAT.PEERRST n) = b.inreset ∧
      (t.lane n).peerBeacon = b.beacon ∧ (t.lane n).peerWrap = b.wrap ∧ (t.lane n).peerAddr = b.sender ∧ t.laneUp n = b.rxok ∧
      (b.rxok = false → (t.lane n).idleBad = (s.lane n).idleBad + 1) ∧ (s.midFrame n = false → Emit.idle n (t.ownIdle n) ∈ t.out) ∧ MemKept s t))

/-- Frames in passage (R80, R83, R102, R103, R121, R477): a sound Tally or Order leaves the other lane at once with HOP one higher and a new CRC, and both lanes
count it; an aborted frame of this device goes out again at the next opportunity. -/
def Obligations.FramePassage : Prop :=
  (∀ (s : State) (n o : Nat) (f : Frame), s.hears n f = true → s.forwardLane n = some o → (f.ftype = ftTally ∨ f.ftype = ftOrder) → f.ending = .eof → f.stomp = false →
    lenFinding (s.laneKind n) f = .good → crcGood f = true → s.laneUp o = true → s.outFree o = true →
    Yields (.forwardFrame n f) s (fun t => t.out = s.out ++ [.frame o (passOn f false)] ∧
      (passOn f false).hop = (if f.hop < 255 then f.hop + 1 else 255) ∧ crcGood (passOn f false) = true ∧
      t.getPair (LNK.RXFRM_LO.COUNT n) (LNK.RXFRM_HI.COUNT n) = (s.getPair (LNK.RXFRM_LO.COUNT n) (LNK.RXFRM_HI.COUNT n) + 1) % 2 ^ 48 ∧
      t.getPair (LNK.TXFRM_LO.COUNT o) (LNK.TXFRM_HI.COUNT o) = (s.getPair (LNK.TXFRM_LO.COUNT o) (LNK.TXFRM_HI.COUNT o) + 1) % 2 ^ 48 ∧
      RegsKept [(LNK.RXFRM_LO.COUNT n).addr, (LNK.RXFRM_HI.COUNT n).addr, (LNK.TXFRM_LO.COUNT o).addr, (LNK.TXFRM_HI.COUNT o).addr] s t ∧ MemKept s t)) ∧
  (∀ (s : State) (n : Nat) (w : WaitSt) (rest : List WaitSt), n < 16 → (s.lane n).buffer = [] → (s.lane n).waiting = w :: rest → s.laneUp n = true →
    s.outFree n = true →
    s.fits n w.frame.blocks = true →
    let g := sealFrame (s.departStamp (s.atLaunch w.frame w.since))
    Yields (.frameRelaunch n) s (fun t => t.out = s.out ++ [.frame n g] ∧ (t.lane n).waiting = rest ∧
      (t.lane n).sending = some (g, some (w.launches + 1)) ∧
      t.get MGT.RELAUNCH.COUNT = (if w.launches = 0 then s.get MGT.RELAUNCH.COUNT else satNext 32 (s.get MGT.RELAUNCH.COUNT)) ∧
      RegsKept [MGT.RELAUNCH.COUNT.addr, MGT.STAT.CTXFREE.addr, (LNK.TXFRM_LO.COUNT n).addr, (LNK.TXFRM_HI.COUNT n).addr] s t ∧ MemKept s t))

/-- Rate switches and unwrapping (R77, R112): armed with an instant that lies ahead, refused with LATE otherwise; at the instant the lane, or both lanes of a
cell, take the rate and lose block lock; at the named tick wrapping stops. A hub member that arms a ring lane fit for a return to NORMAL writes the same to
the cells of that ring by broadcast. -/
def Obligations.RateAndUnwrap : Prop :=
  (∀ (s : State) (o : Origin) (n v : Nat), n < 16 → v < 2 ^ 32 → s.mayWrite o (LNK.RATECMD.ARM n).addr = true → (s.isCell && n == 1) = false →
    Yields (.ratecmdArm o n v) s (fun t => t.get (LNK.RATECMD.TARGET n) = v % 2 ∧ RegsKept [(LNK.RATECMD.ARM n).addr] s t ∧ MemKept s t ∧
      (if 0 < seqDiff 32 (s.get (LNK.RATEAT.AT n)) s.short then t.flag (LNK.RATECMD.ARMED n) = true ∧ (t.lane n).rateTarget = v % 2
       else t.flag (LNK.RATECMD.LATE n) = true ∧ t.lane n = s.lane n))) ∧
  (∀ (s : State) (n : Nat), n < 16 → s.flag (LNK.RATECMD.ARMED n) = true → 0 ≤ seqDiff 32 s.short (s.get (LNK.RATEAT.AT n)) →
    s.recordsOnly (srcSYS 5) = true →
    Yields (.rateSwitch n) s (fun t => t.flag (LNK.RATECMD.ARMED n) = false ∧ t.get (LNK.STAT.RATE n) = (s.lane n).rateTarget % 2 ∧
      (s.get (LNK.STAT.RATE n) ≠ (s.lane n).rateTarget → t.flag (LNK.STAT.LOCK n) = false ∧ t.laneUp n = false) ∧
      (s.isCell = true → n = 0 → t.get (LNK.STAT.RATE 1) = (s.lane 0).rateTarget % 2) ∧ MemKept s t)) ∧
  (∀ (s : State) (o : Origin) (n v : Nat), n < 16 → v < 2 ^ 32 → s.mayWrite o (LNK.UNWRAP.ARM n).addr = true → (s.isCell && n == 1) = false →
    (s.isHub && n == 13) = false →
    let asks := s.isHub && s.isRingLane n && !s.forwarderOnly && s.linkSettled n
    Yields (.unwrapArm o n v) s (fun t => (asks = false → RegsKept [(LNK.UNWRAP.ARM n).addr] s t) ∧ MemKept s t ∧
      (if farEnough s.tick (v % 65536) then t.flag (LNK.UNWRAP.ARMED n) = true ∧ (t.lane n).unwrapTick = namedTick s.tick (v % 65536) ∧
        (asks = true → Sends t n (fun g => g.ftype = ftMgmt ∧ g.dst = addrAll ∧ (txnOf n g).op = opWrite ∧
          (txnOf n g).body = toLE 4 (LNK.UNWRAP.SEQ 0).addr ++ [1, 0, 0, 0] ++ toLE 4 (v % 65536 + 2 ^ (LNK.UNWRAP.ARM 0).lo)))
       else t.flag (LNK.UNWRAP.LATE n) = true ∧ t.lane n = s.lane n))) ∧
  (∀ (s : State) (n : Nat), n < 16 → s.flag (LNK.UNWRAP.ARMED n) = true → (s.lane n).unwrapTick ≤ s.tick → s.recordsOnly (srcCLK 2) = true →
    Yields (.unwrapTakeEffect n) s (fun t => t.flag (LNK.UNWRAP.ARMED n) = false ∧ t.flag (LNK.STAT.WRAP n) = false ∧
      (s.isCell = true → n = 0 → t.flag (LNK.STAT.WRAP 1) = false) ∧ t.clk.broken.testBit n = false ∧ MemKept s t))

/-- The Echo measurement (R100, R114, R115, R116): started at the end that initiates, one request at a time, answered with the request's number and stamp,
completed by the eighth exchange with the mean, taken over by the responder, abandoned after 32 ticks. -/
def Obligations.EchoMeasurement : Prop :=
  (∀ (s : State) (o : Origin) (n v : Nat), n < 16 → v < 2 ^ 32 → s.mayWrite o (LNK.ECHOCMD.START n).addr = true → s.initiates n = true →
    (s.lane n).echo.active = false →
    Yields (.echoStart o n v) s (fun t => (t.lane n).echo.active = true ∧ (t.lane n).echo.requests = 0 ∧ (t.lane n).echo.results = [] ∧
      t.flag (LNK.ECHOCMD.BUSY n) = true ∧ RegsKept [(LNK.ECHOCMD.BUSY n).addr] s t ∧ MemKept s t)) ∧
  (∀ (s : State) (n : Nat), n < 16 → s.initiates n = true → (s.lane n).echo.active = false → s.laneUp n = true → s.flag (LNK.STAT.RATE n) = false →
    (s.lane n).upFull = false →
    Yields (.echoAuto n) s (fun t => (t.lane n).upFull = true ∧ (t.lane n).echo.active = true ∧ (t.lane n).echo.first = true ∧
      t.flag (LNK.ECHOCMD.BUSY n) = true ∧ RegsKept [(LNK.ECHOCMD.BUSY n).addr] s t ∧ MemKept s t)) ∧
  (∀ (s : State) (n : Nat), (s.lane n).echo.active = true → (s.lane n).echo.requests = 0 → (s.lane n).echo.waiting = false → (s.lane n).echo.sentTick ≠ s.tick + 1 → s.laneUp n = true →
    Yields (.echoRequestSend n) s (fun t => (t.lane n).echo.requests = 1 ∧ (t.lane n).echo.waiting = true ∧ (t.lane n).echo.startTick = s.tick ∧
      Sends t n (fun g => g.ftype = ftEcho ∧ g.field 1 0 1 = 0 ∧ g.field 1 1 1 = 0) ∧ MemKept s t)) ∧
  (∀ (s : State) (n age : Nat) (f : Frame), (s.rxFrame n f).1 = true → f.ftype = ftEcho → f.field 1 0 1 = 0 → s.initiates n = false → s.laneUp n = true →
    Yields (.echoRequest n f age) s (fun t => Sends t n (fun g => g.ftype = ftEcho ∧ g.field 1 0 1 = 1 ∧ g.field 1 1 1 = f.field 1 1 1 ∧
      g.field 2 0 8 = f.field 2 0 8) ∧ MemKept s t)) ∧
  (∀ (s : State) (n age : Nat) (f : Frame), (s.rxFrame n f).1 = true → f.ftype = ftEcho → f.field 1 0 1 = 1 →
    (s.lane n).echo.active = true → (s.lane n).echo.waiting = true → f.field 1 1 1 = (s.lane n).echo.eid →
    let t4 := s.stamp + 2 ^ 38 - age % 2 ^ 38
    let rs := (s.lane n).echo.results ++ [seqDiff 32 t4 (f.field 2 0 8) - seqDiff 32 (f.field 4 0 8) (f.field 3 0 8)]
    (rs.length < 8 → Yields (.echoResponse n f age) s (fun t => (t.lane n).echo.results = rs ∧ (t.lane n).echo.waiting = false ∧ MemKept s t)) ∧
    (n < 16 → rs.length = 8 → s.isHub = false → Yields (.echoResponse n f age) s (fun t => (t.lane n).echo.active = false ∧ t.flag (LNK.ECHOCMD.BUSY n) = false ∧
      t.get (LNK.DELAY.DELAY n) = ofSigned 32 (divRoundEven (rs.foldl (· + ·) 0) 16)))) ∧
  (∀ (s : State) (n : Nat) (f : Frame), n < 16 → (s.rxFrame n f).1 = true → f.ftype = ftEcho → f.field 1 0 1 = 2 → s.initiates n = false →
    Yields (.echoResult n f) s (fun t => t.get (LNK.DELAY.DELAY n) = f.field 2 0 4 ∧ t.get (LNK.ASYM.ASYM n) = f.field 2 4 2 ∧ MemKept s t)) ∧
  (∀ (s : State) (n : Nat), n < 16 → (s.lane n).echo.active = true → (s.lane n).echo.requests ≠ 0 → (s.lane n).echo.startTick + 32 ≤ s.tick →
    Yields (.echoAbandon n) s (fun t => (t.lane n).echo.results = [] ∧ (t.lane n).echo.requests = 0 ∧
      ((s.lane n).echo.first = false → (t.lane n).echo.active = false ∧ t.flag (LNK.ECHOCMD.BUSY n) = false) ∧ MemKept s t))

/-! ## Ethernet -/

/-- The PTP service (R146, R147): a Sync of the held master shows its offset in whole ns and steers within the limits of R128, and never steps in Run; an
Announce is remembered with the one before it, and with the best of the clocks that qualify the port is SLAVE of that clock; the timeout makes it LISTENING
and keeps the increment; a Pdelay_Req is answered, the interval sends one, the response gives the delay. -/
def Obligations.PtpService : Prop :=
  (∀ (s : State) (h : EthHead) (m : PtpMsg) (age : Nat) (g : MasterSt),
    (s.ptpTake h m (!m.twoStep && decide (-4 ≤ m.logInterval) && decide (m.logInterval ≤ 0))).1 = true → s.time.ptp.master = some g → m.source = g.identity →
    Yields (.ptpSync h m age) s (fun t =>
      t.get TB.PTPOFF.OFF = ofSigned 32 (clampI (-(2 ^ 31)) (2 ^ 31 - 1) ((s.ethStamp age - (m.time * 65536 + m.corr + s.time.ptp.delay)) / 65536)) ∧
      (t.incr = s.incr ∨ (incrOk t.incr = true ∧ t.incr ≤ s.incr + 0x53E3 ∧ s.incr ≤ t.incr + 0x53E3)) ∧
      t.time.scale = s.time.scale ∧ (s.inRun = true → t.time.stepNext = s.time.stepNext) ∧ MemKept s t)) ∧
  (∀ (s : State) (h : EthHead) (m : PtpMsg), (s.ptpTake h m true).1 = true → Yields (.ptpAnnounce h m) s (fun t =>
    t.get ETH.RXFRM.COUNT = satNext 32 (s.get ETH.RXFRM.COUNT) ∧
    t.time.ptp.foreign.head? = some ⟨m.master, m.logInterval, s.time.cycles,
      (s.time.ptp.foreign.find? (fun x => x.master.identity == m.master.identity)).map (fun x => x.last)⟩ ∧
    (∀ g, t.bestMaster = some g → t.get ETH.PTPSTAT.STATE = 9 ∧ t.time.ptp.master = some g) ∧
    (t.bestMaster = none → t.get ETH.PTPSTAT.STATE = s.get ETH.PTPSTAT.STATE ∧ t.time.ptp.master = s.time.ptp.master) ∧
    RegsKept [ETH.RXFRM.COUNT.addr, ETH.PTPSTAT.STATE.addr] s t ∧ MemKept s t)) ∧
  (∀ (s : State) (g : MasterSt), s.ptpRuns = true → s.time.ptp.master = some g → s.masterLost g = true → Yields .ptpAnnounceTimeout s (fun t => t.get ETH.PTPSTAT.STATE = 4 ∧
    t.time.ptp.master = none ∧ t.incr = s.incr ∧ RegsKept [ETH.PTPSTAT.STATE.addr] s t ∧ MemKept s t)) ∧
  (∀ (s : State) (h : EthHead) (m : PtpMsg) (age : Nat), (s.ptpTake h m true).1 = true → s.ethTx = true → Yields (.ptpPdelayReq h m age) s (fun t =>
    ∃ r : PtpMsg, t.out = s.out ++ [.ptp false r] ∧ r.seq = m.seq ∧ r.requesting = m.source ∧ r.corr = m.corr + (age * 5120 : Nat) ∧ r.twoStep = false ∧
      MemKept s t)) ∧
  (∀ s : State, s.ptpRuns = true → s.ethTx = true → Yields .ptpPdelayInterval s (fun t => t.time.ptp.waiting = true ∧
    t.time.ptp.seq = (s.time.ptp.seq + 1) % 65536 ∧ (∃ r : PtpMsg, t.out = s.out ++ [.ptp true r] ∧ r.seq = t.time.ptp.seq) ∧ RegsKept [] s t ∧ MemKept s t)) ∧
  (∀ (s : State) (h : EthHead) (m : PtpMsg) (age : Nat), (s.ptpTake h m (!m.twoStep)).1 = true → s.time.ptp.waiting = true → m.seq = s.time.ptp.seq →
    m.requesting = s.mac →
    Yields (.ptpPdelayResp h m age) s (fun t => t.time.ptp.waiting = false ∧
      t.time.ptp.delay = (s.ethStamp age - s.time.ptp.t1 - m.corr) / 2 ∧ MemKept s t))

/-- L15 (R72, R313 to R316, R321): a PAUSE frame is only counted; an accepted sampled-value frame is held with its values and its sync bit; a lost stream reads
NaN and is invalid; the link's state shows while the lane of L15 is in an Ethernet mode. -/
def Obligations.EthernetFrames : Prop :=
  (∀ (s : State) (h : EthHead), (s.ethRx h).1 = true → Yields (.pauseFrame h) s (fun t => t.get ETH.RXFRM.COUNT = satNext 32 (s.get ETH.RXFRM.COUNT) ∧
    t = { s with regs := t.regs } ∧ RegsKept [ETH.RXFRM.COUNT.addr] s t)) ∧
  (∀ (s : State) (h : EthHead) (f : SvFrame) (age i : Nat), (s.ethRx h).1 = true → s.svMatch f = some i → f.simulated = false → s.svGood i f = true →
    (SMap.get [] s.eth.held i).length < 512 →
    Yields (.svFrameReceive h f age) s (fun t => t.get (ETH.SV_STAT.SMPCNT i) = f.smpCnt ∧ t.getBit ETH.SVSTAT.SYNCED i = (f.smpSynch == 2) ∧
      (∃ x ∈ SMap.get [] t.eth.held i, (x.time % s.svRate i = f.smpCnt ∨ x.time = 0) ∧
        x.vals = (List.range 8).map (fun c => match f.chans[c]? with | some y => svValue c y.value | none => 0)) ∧ MemKept s t)) ∧
  (∀ (s : State) (i : Nat), i < 8 → s.runs bETH = true → s.getBit ETH.SVCTL.SVEN i = true →
    4 * 10 ^ 9 ≤ SMap.get 0 s.eth.run i * s.tu * 5 * s.svRate i → s.flag (srcETH i).live = false → s.recordsOnly (srcETH i) = true →
    Yields (.svLost i) s (fun t => (∀ c, c < 8 → t.get (ETH.SV_CH.VALUE i c) = f32nan) ∧ t.getBit ETH.SVSTAT.VALID i = false ∧
      t.flag (ETH.SV_STAT.VALID i) = false ∧ t.flag (srcETH i).stat = true ∧ t.flag (srcETH i).live = true ∧ MemKept s t)) ∧
  (∀ (s : State) (up andone : Bool) (speed : Nat), s.runs bETH = true → s.recordsOnly (srcETH 8) = true → Yields (.ethLinkChange up speed andone) s (fun t =>
    let mode := s.get (LNK.CTRL.MODE 15)
    t.flag ETH.STAT.LINK = (up && decide (2 ≤ mode)) ∧ t.get ETH.STAT.SPEED = (if mode = 2 then 2 else speed % 3) ∧
    t.flag ETH.STAT.ANDONE = (andone && decide (2 ≤ mode) && s.flag (LNK.CTRL.ANEN 15)) ∧ t.flag (srcETH 8).live = !(up && decide (2 ≤ mode)) ∧
    RegsKept [ETH.STAT.LINK.addr, (srcETH 8).stat.addr, (srcETH 8).live.addr] s t ∧ MemKept s t))

/-! ## Register and memory accesses -/

/-- Writes of a local address (R3, R8, R9, R48, R392, R430, R522): an access that its region does not take ends in a bus error that changes nothing else; a
window that does not answer, or an address without register, ignores the write; a register without action takes the written bits by their access types;
a write into SRAM stores its bytes, and no other. -/
def Obligations.AccessWrites : Prop :=
  (∀ (s : State) (o : Origin) (a width v : Nat),
    (accessOk a width true = false ∨ (s.isCustomer o && !customerWrites a) = true ∨ s.hostinDirect a = true) →
    Yields (.registerWrite o a width v) s (fun t => t.get SYS.BUSERRADDR.ADDR = a % 2 ^ 32 ∧ t.get SYS.BUSERRINFO.AGENT = o.agent % 16 ∧
      t.flag SYS.BUSERRINFO.WRITE = true ∧ t.out = s.out ++ [.busError o a] ∧ RegsKept [SYS.BUSERRADDR.ADDR.addr, SYS.BUSERRINFO.AGENT.addr] s t ∧
      MemKept s t)) ∧
  (∀ (s : State) (o : Origin) (a v : Nat), isWindow a = true → a % 4 = 0 → (s.isCustomer o && !customerWrites a) = false → s.hostinDirect a = false →
    (s.answers (blockOf a) = false ∨ fieldsAt a = []) → Yields (.registerWrite o a 32 v) s (fun t => t = s)) ∧
  (∀ (s : State) (o : Origin) (a v : Nat), isWindow a = true → a % 4 = 0 → s.mayWrite o a = true → blockOf a ∈ [bSEC, bADC, bSDM] → fieldsAt a ≠ [] →
    cntclrOf a = none → hasAccess (fieldsAt a) .rwa = false → criticalReg a = false →
    Yields (.registerWrite o a 32 v) s (fun t =>
      t.reg a = storeWord (fieldsAt a) false (BitVec.ofNat 32 (SMap.get 0 s.sys.setNow a)) (BitVec.ofNat 32 v) (BitVec.ofNat 32 allOnes) (s.reg a) ∧
      RegsKept [a] s t ∧ MemKept s t)) ∧
  (∀ (s : State) (o : Origin) (a width v : Nat), accessOk a width true = true → (s.isCustomer o && !customerWrites a) = false → isWindow a = false →
    (width = 64 ∨ (s.sys.eccSys = [] ∧ s.sys.eccCap = [])) →
    Yields (.registerWrite o a width v) s (fun t => RegsKept [SYS.INJCTL.ARMED.addr] s t ∧ (∀ b, memByte 0xFF t.flash b = memByte 0xFF s.flash b) ∧
      (∀ b, memByte 0 t.sram b = (if a < capBase ∧ a ≤ b ∧ b < a + width / 8 then BitVec.ofNat 8 (v / 2 ^ (8 * (b - a))) else memByte 0 s.sram b)) ∧
      (∀ b, memByte 0 t.cap b = (if capBase ≤ a ∧ a ≤ b ∧ b < a + width / 8 then BitVec.ofNat 8 (v / 2 ^ (8 * (b - a))) else memByte 0 s.cap b))))

/-- Reads and CNTCLR (R9, R119, R394): a read that may not be made is a bus error; a read of the low word of a wide value takes the upper word of the same
moment with it, and the later read of the upper word gives what was taken; CNTCLR clears the counters that its register names, and nothing else. -/
def Obligations.ReadsAndCounterClear : Prop :=
  (∀ (s : State) (o : Origin) (a width : Nat), (accessOk a width false = false ∨ (s.isCustomer o && !customerReads a) = true) →
    Yields (.lowWordRead o a width) s (fun t => t.get SYS.BUSERRADDR.ADDR = a % 2 ^ 32 ∧ t.flag SYS.BUSERRINFO.WRITE = false ∧
      t.out = s.out ++ [.busError o a] ∧ RegsKept [SYS.BUSERRADDR.ADDR.addr, SYS.BUSERRINFO.AGENT.addr] s t ∧ MemKept s t)) ∧
  (∀ (s : State) (o : Origin) (a : Nat), wideLow a = true → a % 4 = 0 → s.answers (blockOf a) = true → fieldsAt a ≠ [] → SMap.get 0 s.sys.parity a = 0 →
    Yields (.lowWordRead o a 32) s (fun t => t.out = s.out ++ [.data o a (s.shown a).1] ∧
      SMap.get (0 : Word) t.sys.shadows (shadowKey o (a + 4)) = BitVec.ofNat 32 (s.shown (a + 4)).1 ∧
      (∀ k, k ≠ shadowKey o (a + 4) → SMap.get (0 : Word) t.sys.shadows k = SMap.get 0 s.sys.shadows k) ∧ t.regs = s.regs ∧ MemKept s t)) ∧
  (∀ (s : State) (o : Origin) (a : Nat), wideHigh a = true → a % 4 = 0 → s.answers (blockOf a) = true → fieldsAt a ≠ [] → SMap.get 0 s.sys.parity a = 0 →
    Yields (.lowWordRead o a 32) s (fun t => t.out = s.out ++ [.data o a (SMap.get (0 : Word) s.sys.shadows (shadowKey o a)).toNat] ∧ t.regs = s.regs ∧
      MemKept s t)) ∧
  (∀ (s : State) (o : Origin) (b lo hi : Nat), (b, lo, hi) ∈ [(bPWM, 0x180, 0x1A0), (bADC, 0x180, 0x18C), (bENV, 0x280, 0x288), (bSAF, 0x180, 0x194),
      (bRED, 0x80, 0x9C), (bCLK, 0x80, 0x90), (bPWR, 0x80, 0x84), (bRST, 0x80, 0x94), (bSEC, 0x180, 0x18C), (bMGT, 0x80, 0x90)] →
    s.mayWrite o (cntclrAddr b 0) = true →
    Yields (.cntclr o b 0) s (fun t => MemKept s t ∧ ∀ a, t.reg a =
      (if windowBase + 0x10000 * b + lo ≤ a ∧ a ≤ windowBase + 0x10000 * b + hi ∧ a % 4 = 0 then 0 else s.reg a))) ∧
  (∀ (s : State) (o : Origin) (n : Nat), n < 16 → s.mayWrite o (cntclrAddr bLNK n) = true →
    Yields (.cntclr o bLNK n) s (fun t => MemKept s t ∧ ∀ a, t.reg a =
      (if windowBase + 0x10000 * bLNK + 0x1000 * n + 0x40 ≤ a ∧ a ≤ windowBase + 0x10000 * bLNK + 0x1000 * n + 0x6C ∧ a % 4 = 0 then 0 else s.reg a))) ∧
  (∀ (s : State) (o : Origin), s.mayWrite o (cntclrAddr bSYS 0) = true → Yields (.cntclr o bSYS 0) s (fun t => MemKept s t ∧ t.get SYS.PARCNT.COUNT = 0 ∧
    t.get SYS.INJCNT.COUNT = 0 ∧ ∀ i, i < 3 → t.get (SYS.ECC_CECNT.COUNT i) = 0 ∧ t.get (SYS.ECC_UECNT.COUNT i) = 0)) ∧
  (∀ (s : State) (o : Origin), s.mayWrite o (cntclrAddr bSDM 0) = true → Yields (.cntclr o bSDM 0) s (fun t => MemKept s t ∧
    ∀ n, n < 8 → t.get (SDM.CH_LIMCNT.COUNT n) = 0))

/-! ## The canvas -/

/-- The loader (R43, R45, R60, R61, R63): it takes the pushed image of an activation, else the active copy in SRAM while its hash is that of the canvas last
applied, else the first valid flash slot in the order of the BOOT straps; with none, with BOOT = 3 or without vendor firmware the device runs Basecamp with
the role of its fuses. The rings and trunk rings whose lanes are UP already are then discovered (R416). -/
def Obligations.CanvasLoad : Prop :=
  (∀ s : State, (s.flag CNV.STAT.LOADING = false ∨ s.rst.overlap.isSome = true) → Yields .canvasLoad s (fun t => t = s)) ∧
  (∀ s : State, s.flag CNV.STAT.LOADING = true → s.rst.overlap = none → (s.flag CLK.STAT.LOCKED || s.flag CLK.STAT.HOLDOVER) = true →
    let b := s.bootFirmware
    let boot := b.get RST.STRAPS.BOOT
    let seen (t : State) : State := if t.flag CNV.STAT.LOADING then t else t.discoverAll
    ((boot = 3 ∨ b.flag SEC.BOOTSTAT.FWOK = false) → Yields .canvasLoad s (fun t => t.flag CNV.STAT.BASECAMP = true ∧ t.flag CNV.STAT.LOADING = false ∧
      t.flag CNV.STAT.PENDING = false ∧ (boot = 3 → t.get CNV.STAT.ERR = 0x12) ∧ t.get CNV.ROLE.ROLE = b.baseRole.1 ∧
      t.get CNV.INST.INST = (fixedBlocks ||| blocksMust b.baseRole.1 ||| 2 ^ bGEO) ∧ t.getBit SER.CORESTAT.RUN 0 = true ∧ t.pin.released = true ∧
      MemKept b t)) ∧
    (boot ≠ 3 → b.flag SEC.BOOTSTAT.FWOK = true → b.flag CNV.STAT.PENDING = false →
      (b.activeGood = true → exec .canvasLoad s = .next (seen (b.applyCanvas (b.sramImage cnvActive) 3)).settle) ∧
      (b.activeGood = false → exec .canvasLoad s = .next (seen (b.flashCanvas (cnvSlots boot))).settle)) ∧
    (boot ≠ 3 → b.flag SEC.BOOTSTAT.FWOK = true → b.flag CNV.STAT.PENDING = true →
      let img := b.sramGet cnvStaging b.cnv.push.len
      let r := b.tryImage img b.cnv.push.len (some b.cnv.push)
      let m : State := { r.2 with cnv := { r.2.cnv with push := {} } }
      (m.activeGood = true → exec .canvasLoad s = .next (seen (if r.1 then m.applyCanvas (img.take (imgLength img)) 2
        else (m.set CNV.STAT.FALLBACK 1).applyCanvas (m.sramImage cnvActive) 3)).settle) ∧
      (r.1 = false → m.activeGood = false → Yields .canvasLoad s (fun t => t.flag CNV.STAT.BASECAMP = true ∧ t.flag CNV.STAT.LOADING = false)))) ∧
  (∀ (s : State) (a src : Nat) (rest : List (Nat × Nat)),
    let r := s.tryImage (s.flashImage a) 0x80000 none
    s.flashCanvas ((a, src) :: rest) = (if r.1 then r.2.applyCanvas (s.flashImage a) src else r.2.flashCanvas rest)) ∧
  (cnvSlots 0 = [(slotA, 0), (slotB, 1)] ∧ cnvSlots 2 = [(slotB, 1), (slotA, 0)] ∧ cnvSlots 1 = [])

/-- Pushes (R58, R446, R448, R478): a fragment at STAGELEN is appended to the staging area and acknowledged with the new length; the first one opens the push
and ends what was staged; the last one closes it and starts its checks; BUSY while the loader runs; a push without a fragment for 2^20 ticks closes; KEYPRES
keeps the key of an open push; the end of the checks shows their result. -/
def Obligations.Pushes : Prop :=
  (∀ (s m : State) (n i : Nat) (f : Frame) (fw : Bool),
    s.executes n f (if fw then opFwpush else opCpush) (permNeed (if fw then 8 else 4)) pushLen = some (i, m) →
    let c : Instr := if fw then .fwpush n f else .cpush n f
    let t := txnOf n f
    let bs := pushBytes t
    let p := m.push fw
    let regs := [(stageLen fw).addr, CNV.STAT.CHECKING.addr, MGT.FWSTAT.STAGED.addr]
    (m.flag CNV.STAT.LOADING = true → m.recordsOnly (srcMGT 0) = true → Yields c s (fun u =>
      Served m u i stBusy [] [MGT.REFUSED.COUNT.addr, (srcMGT 0).stat.addr, (srcMGT 0).live.addr] noByte)) ∧
    (m.flag CNV.STAT.LOADING = false → p.openNow = true → t.at 0 4 ≠ 0 → t.at 0 4 = p.len → p.len + bs.length ≤ p.total → Yields c s (fun u =>
      Served m u i stOk (toLE 4 (p.len + bs.length)) regs (bytesAt (stagingBase fw + p.len) bs.length) ∧
      (∀ j, j < bs.length → memByte 0 u.sram (stagingBase fw + p.len + j) = bs.getD j 0) ∧
      u.get (stageLen fw) = p.len + bs.length ∧ (u.push fw).len = p.len + bs.length ∧
      (u.push fw).openNow = !(p.len + bs.length == p.total) ∧ (p.len + bs.length = p.total → (u.push fw).checking = true))) ∧
    (m.flag CNV.STAT.LOADING = false → p.openNow = false → t.at 0 4 = 0 → bs.length ≤ t.at 4 4 → t.at 4 4 ≤ 0x80000 → Yields c s (fun u =>
      Served m u i stOk (toLE 4 bs.length) regs (bytesAt (stagingBase fw) bs.length) ∧
      (∀ j, j < bs.length → memByte 0 u.sram (stagingBase fw + j) = bs.getD j 0) ∧ u.flag (staged fw) = false ∧
      (u.push fw).openNow = !(bs.length == t.at 4 4) ∧ (u.push fw).total = t.at 4 4 ∧ (u.push fw).src = t.src ∧ u.get (stageLen fw) = bs.length))) ∧
  (∀ (s m : State) (n i : Nat) (f : Frame), s.executes n f opKeypres areaNeed (bodyLen 68) = some (i, m) → byteAt (txnOf n f).body 0 ≤ 1 →
    (m.push (byteAt (txnOf n f).body 0 == 1)).openNow = true → Yields (.keypres n f) s (fun u => Served m u i stOk [] [] noByte ∧
      (u.push (byteAt (txnOf n f).body 0 == 1)).key = some (sliceB (txnOf n f).body 4 64))) ∧
  (∀ (s : State) (fw : Bool), (s.push fw).openNow = true → (s.push fw).lastTick + 2 ^ 20 ≤ s.tick → Yields (.pushTimeout fw) s (fun t =>
    (t.push fw).openNow = false ∧ t.flag (pushOpen fw) = false ∧ RegsKept [MGT.STAT.PUSHOPEN.addr] s t ∧ MemKept s t)) ∧
  (∀ s : State, s.flag CNV.STAT.CHECKING = true → s.recordsOnly (srcSEC 0) = true → s.recordsOnly (srcSEC 1) = true →
    let e := s.imageCheck (s.sramGet cnvStaging s.cnv.push.len) s.cnv.push.len (some s.cnv.push)
    Yields .stageCheckDone s (fun t => t.flag CNV.STAT.CHECKING = false ∧ t.cnv.push.good = e.isNone ∧ (e = none → t.flag CNV.STAT.STAGED = true) ∧
      (∀ c x, e = some (c, x) → t.flag CNV.STAT.STAGED = s.flag CNV.STAT.STAGED ∧ t.get CNV.STAT.ERR = c % 256 ∧ t.get CNV.ERRSECT.INDEX = x % 256) ∧
      RegsKept [CNV.STAT.CHECKING.addr, CNV.ERRSECT.INDEX.addr, SEC.SIGFAILS.COUNT.addr, (srcSEC 0).stat.addr, (srcSEC 0).live.addr] s t ∧ MemKept s t)) ∧
  (∀ s : State, s.mgt.push.checking = true → s.recordsOnly (srcSEC 0) = true → s.recordsOnly (srcSEC 1) = true →
    let img := s.sramGet fwStaging s.mgt.push.len
    let e := s.fwCheck img s.mgt.push.len (some s.mgt.push) none
    (∀ c, e = some c → Yields .fwStageCheckDone s (fun t => t.mgt.push.good = false ∧ t.mgt.push.checking = false ∧ t.get MGT.FWSTAT.ERR = c % 256 ∧
      t.flag MGT.FWSTAT.STAGED = s.flag MGT.FWSTAT.STAGED ∧ MemKept s t)) ∧
    (e = none → fwKind img = 0 → Yields .fwStageCheckDone s (fun t => t.mgt.push.good = true ∧ t.mgt.push.kind = 0 ∧ t.flag MGT.FWSTAT.STAGED = true ∧
      t.get MGT.FWSTAT.KIND = 0 ∧ MemKept s t)) ∧
    (e = none → fwKind img = 1 → s.recordsOnly (srcSER 1) = true → s.log.queue.length < 12 → Yields .fwStageCheckDone s (fun t =>
      t.mgt.push.good = true ∧ t.flag MGT.FWSTAT.STAGED = true ∧ t.get MGT.FWSTAT.KIND = 1)))

/-- Activation, discarding and flash (R58 to R60, R480): an activation with a verified image starts a warm reset with PENDING set, and is refused with its
code otherwise; DISCARD empties the staging area, and comes first where one write has both bits (the model's choice, log entry 162); a flash write copies the verified staging area into its slot and shows its result. -/
def Obligations.ActivationAndFlash : Prop :=
  (∀ (s : State) (o : Origin) (v : Nat), s.mayWrite o CNV.CMD.ACTIVATE.addr = true → v < 2 ^ 32 → v.testBit 1 = false →
    (s.activateCode = 0 → Yields (.canvasActivate (.write o v)) s (fun t => t.flag CNV.STAT.PENDING = true ∧ t.flag CNV.STAT.LOADING = true ∧
      t.flag CNV.STAT.ACTIVE = false ∧ (t.get RST.CAUSE.CAUSE).testBit 5 = true ∧ (∃ x, t.rst.overlap = some x ∧ 2 ≤ x.reach) ∧ t.sram = s.sram ∧
      t.flash = s.flash)) ∧
    (s.activateCode ≠ 0 → Yields (.canvasActivate (.write o v)) s (fun t => t.get CNV.STAT.ERR = s.activateCode ∧ t.rst = s.rst ∧
      t.flag CNV.STAT.PENDING = s.flag CNV.STAT.PENDING ∧ RegsKept [CNV.STAT.ERR.addr] s t ∧ MemKept s t))) ∧
  (∀ (s m : State) (n i : Nat) (f : Frame), s.executes n f opCact (permNeed 4) (bodyLen 0) = some (i, m) →
    (m.activateCode = 0 → Yields (.canvasActivate (.frame n f)) s (fun t => t.flag CNV.STAT.PENDING = true ∧ t.flag CNV.STAT.LOADING = true ∧
      (t.get RST.CAUSE.CAUSE).testBit 5 = true ∧ t.jState i = 2 ∧ byteAt (t.jReply i) 3 = stOk)) ∧
    (m.activateCode ≠ 0 → Yields (.canvasActivate (.frame n f)) s (fun t => t.get CNV.STAT.ERR = m.activateCode ∧
      Served m t i stDenied [] [CNV.STAT.ERR.addr, MGT.REFUSED.COUNT.addr] noByte))) ∧
  (∀ s : State, s.activateCode = (if s.flag CNV.STAT.STAGED = false then 0x11
    else if s.get RST.STRAPS.BOOT ≠ 3 ∧ (s.basecamp = true ∨ s.power = 1 ∨ s.power = 2) then 0 else 0x0E)) ∧
  (∀ (s : State) (o : Origin) (v : Nat), s.mayWrite o CNV.CMD.DISCARD.addr = true → v < 2 ^ 32 →
    (v.testBit 1 = true → Yields (.canvasActivate (.write o v)) s (fun t => t.flag CNV.STAT.STAGED = false ∧ t.get CNV.STAT.ERR = 0x11 ∧
      t.rst = s.rst ∧ t.cnv.push = {} ∧ t.flag CNV.STAT.PENDING = s.flag CNV.STAT.PENDING ∧ t.cap = s.cap ∧ t.flash = s.flash)) ∧
    (v.testBit 0 = true → Yields (.canvasDiscard o v) s (fun t => t.flag CNV.STAT.STAGED = false ∧ t.get CNV.STAT.ERR = 0x11 ∧
      t.rst = s.rst ∧ t.cnv.push = {} ∧ t.flag CNV.STAT.PENDING = s.flag CNV.STAT.PENDING ∧ t.cap = s.cap ∧ t.flash = s.flash))) ∧
  (∀ (s : State) (o : Origin) (v : Nat), s.mayWrite o CNV.CMD.DISCARD.addr = true → v < 2 ^ 32 → v.testBit 0 = false →
    Yields (.canvasDiscard o v) s (fun t => t.flag CNV.STAT.STAGED = false ∧ t.flag CNV.STAT.CHECKING = false ∧ t.get CNV.STAGELEN.BYTES = 0 ∧
      t.flag MGT.STAT.PUSHOPEN = false ∧ t.cnv.push = {} ∧ RegsKept [CNV.STAT.STAGED.addr, CNV.STAGELEN.BYTES.addr, MGT.STAT.PUSHOPEN.addr] s t ∧
      (∀ a, memByte 0 t.sram a = (if cnvStaging ≤ a ∧ a < cnvStaging + 0x80000 then 0 else memByte 0 s.sram a)) ∧ t.cap = s.cap ∧ t.flash = s.flash)) ∧
  (∀ (s m : State) (n i : Nat) (f : Frame), s.executes n f opFlashwr areaNeed (bodyLen 2) = some (i, m) →
    let area := byteAt (txnOf n f).body 0
    let slot := byteAt (txnOf n f).body 1
    (area ≤ 1 → slot ≤ 1 → (m.push (area == 1)).good = true → (m.push (area == 1)).openNow = false → m.mgt.flashJob = none →
      Yields (.flashwr n f) s (fun t => Served m t i stOk [] [] noByte ∧ t.flag MGT.STAT.FLASHBUSY = true ∧ t.mgt.flashJob = some (area, slot)))) ∧
  (∀ (s : State) (area slot : Nat), area ≤ 1 → slot ≤ 1 → s.mgt.flashJob = some (area, slot) →
    let len := (s.push (area == 1)).len
    Yields (.flashWriteDone none) s (fun t => t.mgt.flashJob = none ∧ t.flag MGT.STAT.FLASHBUSY = false ∧ t.get MGT.FLASHSTAT.RESULT = 0 ∧
      t.get MGT.FLASHSTAT.SLOT = slot ∧ t.get MGT.FLASHSTAT.AREA = area ∧ t.sram = s.sram ∧ t.cap = s.cap ∧
      (∀ a, memByte 0xFF t.flash a = (if flashSlot area slot ≤ a ∧ a < flashSlot area slot + len then
        memByte 0 s.sram (stagingBase (area == 1) + (a - flashSlot area slot)) else memByte 0xFF s.flash a))) ∧
    (∀ bs : List Byte, Yields (.flashWriteDone (some bs)) s (fun t => t.mgt.flashJob = none ∧ t.flag MGT.STAT.FLASHBUSY = false ∧
      t.get MGT.FLASHSTAT.RESULT = 7)))

/-! ## The tick: Tallies, decision, Orders -/

/-- The sample instant (R86, R149 to R151, R175, R296): a cell takes its class, its STATUS and its exclusion, a hub its arm current from channel 0 as
just latched. A Tally in passage (R85, R87, R109): the cell counts itself once, in its histogram and NCELL or in NEXCL, writes its slot in its group, and sends
the frame on or, where the ring is broken beyond, back with WRAP and its position. -/
def Obligations.CellTallies : Prop :=
  (∀ s : State, s.tickEvents = true → s.forwarderOnly = false → s.noReset srcLPE →
    Yields .sampleInstant s (fun t => MemKept s t ∧
      (s.isCell = true → s.runs bSCR = true → t.scr.sampleTick = s.tick ∧ t.scr.clsI = (s.pwm.full == 1 || s.pwm.full == 2) ∧
        t.flag SCR.CSTAT.CLS = (s.pwm.full == 1 || s.pwm.full == 2) ∧ t.scr.exclNext = none ∧
        t.flag SCR.CSTAT.CMDEXCL = s.scr.exclNext.getD (s.flag SCR.CSTAT.CMDEXCL) ∧
        t.scr.status.testBit 0 = true ∧ t.scr.status.testBit 1 = (s.pwm.full == 1 || s.pwm.full == 2) ∧
        t.scr.status.testBit 6 = s.saf.bypassed ∧ t.scr.status.testBit 7 = s.basecamp ∧
        t.scr.excluded = (decide (t.scr.status &&& (s.get SCR.EXCLMASK.MASK ||| 0x40) ≠ 0) || t.flag SCR.CSTAT.CMDEXCL)) ∧
      (s.isHub = true → s.runs bSCR = true → t.scr.iarm = (if s.runs bSDM && s.flag (SDM.CH_CFG.EN 0) then
        (if s.flag (srcSDM 0).live then f32nan else s.get (SDM.CH_LIVE.VALUE 0)) else s.get (SDM.CH_VALUE.VALUE 0))))) ∧
  (∀ (s : State) (n o : Nat) (f : Frame), n < 16 → o < 16 →
    let m := (s.rxFrame n f).2
    let bad := !(s.rxFrame n f).1
    m.isCell = true → m.unjoined = false → m.wholeFrame n f ftTally = true → f.wrap = false → m.forwardLane n = some o →
    Yields (.tallyPass n f) s (fun t => t.flag SCR.CSTAT.EXCL = m.tallyExcluded ∧ MemKept s t ∧
      RegsKept ([SCR.CSTAT.EXCL.addr, (LNK.STAT.WRAP n).addr, (LNK.SEQERR.COUNT n).addr] ++ laneCounts [n, o]) m t ∧
      (m.wrapsAt n f.dir = false → m.laneUp o = true → Emit.frame o (sealFrame (passOn (m.markTally f) bad)) ∈ t.out) ∧
      (m.wrapsAt n f.dir = true → m.laneUp n = true → t.flag (LNK.STAT.WRAP n) = true ∧ ∃ g : Frame, Emit.frame n g ∈ t.out ∧ g.wrap = true ∧
        byteAt g.body 2 = m.position ∧ ∀ i, i < 208 → i ≠ 2 → f.body.length = 208 → byteAt g.body i = byteAt (m.markTally f).body i))) ∧
  (∀ (m : State) (f : Frame), f.body.length = 208 → m.scr.bin < 64 →
    let g := (m.markTally f).body
    let h := (if m.scr.clsI then 8 else 72) + m.scr.bin
    g.length = 208 ∧ byteAt g 203 = byteAt f.body 203 ||| (m.slotWord / 2 ^ 16 % 256) ∧
    (m.tallyExcluded = false → byteAt g h = satNext 8 (byteAt f.body h) ∧ byteAt g 200 = satNext 8 (byteAt f.body 200) ∧
      byteAt g 201 = byteAt f.body 201) ∧
    (m.tallyExcluded = true → byteAt g h = byteAt f.body h ∧ byteAt g 200 = byteAt f.body 200 ∧ byteAt g 201 = satNext 8 (byteAt f.body 201)) ∧
    (∀ i, i < 136 → i ≠ h → byteAt g i = byteAt f.body i) ∧
    (∀ j, j < 16 → m.position = 16 * (f.field 1 1 1 % 4) + j → leAt g (136 + 4 * j) 4 = m.slotWord % 2 ^ 32 ∧ byteAt g 202 = satNext 8 (byteAt f.body 202)) ∧
    (∀ j, j < 16 → m.position ≠ 16 * (f.field 1 1 1 % 4) + j → leAt g (136 + 4 * j) 4 = leAt f.body (136 + 4 * j) 4))

/-- Tallies at hubs and centrals (R85, R91, R96, R110, R111, R176): empty Tallies leave at t_T on every lane that is UP; a ring Tally is stored for its tick, a
wrapped one apart and passed to the partner; the partner's one is stored; a hub writes its entry into a trunk Tally, a central takes the entries. -/
def Obligations.HubTallies : Prop :=
  (∀ s : State, s.tickEvents = true → s.forwarderOnly = false →
    (s.isHub = true → s.runs bSCR = true → Yields .tallyLaunch s (fun t => RegsKept (laneCounts (List.range 16)) s t ∧ MemKept s t ∧
      ∀ r, r < 12 → s.cnv.ringEn.testBit r = true → s.laneUp r = true → ∃ g : Frame, Emit.frame r g ∈ t.out ∧ g.ftype = 1 ∧ g.dir = s.member ∧
        g.seq = s.tick % 65536 ∧ byteAt g.body 0 = r ∧ byteAt g.body 1 = s.tick % 4 ∧ g.body.length = 208 ∧ ∀ i, 6 ≤ i → byteAt g.body i = 0)) ∧
    (s.isCentral = true → Yields .tallyLaunch s (fun t => RegsKept (laneCounts (List.range 16)) s t ∧ MemKept s t ∧
      ∀ i, i < 6 → s.laneUp (i + 2) = true → ∃ g : Frame, Emit.frame (i + 2) g ∈ t.out ∧ g.ftype = 1 ∧ g.seq = s.tick % 65536 ∧ byteAt g.body 0 = i ∧
        byteAt g.body 1 = 0))) ∧
  (∀ (s : State) (n k : Nat) (f : Frame), n < 12 → (s.rxFrame n f).1 = true →
    let m := (s.rxFrame n f).2
    m.isHub = true → m.forwarderOnly = false → m.runs bSCR = true → f.ftype = ftTally → f.field 1 0 1 % 16 = n → m.expectedTick f.seq = some k →
    Yields (.ringTallyArrive n f) s (fun t => t.scr.decision = m.scr.decision ∧ MemKept s t ∧
      RegsKept ([(LNK.ARRIVE.NS n).addr, (LNK.STAT.WRAPPOS n).addr] ++ laneCounts [14]) m t ∧
      (f.wrap = false → SMap.get none t.scr.tallies n = some (tallyOf f k) ∧ t.scr.wrapped = m.scr.wrapped) ∧
      (f.wrap = true → t.ownWrapped n k = some (tallyOf f k) ∧ t.get (LNK.STAT.WRAPPOS n) = byteAt f.body 2 ∧
        SMap.get none t.scr.tallies n = SMap.get none m.scr.tallies n ∧
        (m.laneUp 14 = true → ∃ g : Frame, Emit.frame 14 g ∈ t.out ∧ g.ftype = 1 ∧ g.seq = f.seq ∧ byteAt g.body 2 = n ∧
          byteAt g.body 4 = byteAt f.body 200 ∧ byteAt g.body 5 = byteAt f.body 201)))) ∧
  (∀ (s : State) (k : Nat) (f : Frame), (s.rxFrame s.crossLane f).1 = true →
    let m := (s.rxFrame s.crossLane f).2
    m.isHub = true → m.forwarderOnly = false → m.runs bSCR = true → f.ftype = ftTally → f.field 1 0 2 = m.partner → m.expectedTick f.seq = some k →
    m.recordsOnly (srcSCR 0) = true →
    Yields (.crossLinkTallyReceive f) s (fun t => MemKept s t ∧ t.partWrapped (f.field 1 2 1) k =
        some ⟨k, histOf f.body 8, histOf f.body 72, f.field 1 4 1, f.field 1 5 1, f.field 1 6 1, 0⟩ ∧
      RegsKept [SCR.MARGIN.COUNT.addr, (srcSCR 0).stat.addr, (srcSCR 0).live.addr] m t ∧
      (m.scr.tableBroken.testBit (f.field 1 2 1) = true → k * m.tu + m.tu + m.offD < m.now5 →
        t.get SCR.MARGIN.COUNT = satNext 32 (m.get SCR.MARGIN.COUNT) ∧ t.flag (srcSCR 0).stat = true))) ∧
  (∀ (s : State) (n o p k : Nat) (f : Frame), (s.rxFrame n f).1 = true →
    let m := (s.rxFrame n f).2
    m.isHub = true → m.wholeFrame n f ftTally = true → m.forwarderOnly = false → m.runs bSCR = true → f.wrap = false → m.expectedTick f.seq = some k →
    m.forwardLane n = some o → m.wrapsAt n f.dir = false → m.laneUp o = true → m.trunkPos = some p → f.body.length = 136 →
    m.noReset srcRED →
    Yields (.trunkTallyPass n f) s (fun t => MemKept s t ∧ ∃ g : Frame, Emit.frame o g ∈ t.out ∧ byteAt g.body 1 = satNext 8 (byteAt f.body 1) ∧
      sliceB g.body (8 + 16 * p) 16 = (m.readEntries f k).trunkEntry ∧
      ∀ i, i < 136 → i ≠ 1 → (i < 8 + 16 * p ∨ 24 + 16 * p ≤ i) → byteAt g.body i = byteAt f.body i)) ∧
  (∀ (s : State) (n k : Nat) (f : Frame), (s.rxFrame n f).1 = true →
    let m := (s.rxFrame n f).2
    let i := f.field 1 0 1
    m.isCentral = true → m.forwarderOnly = false → f.ftype = ftTally → m.isTrunkLane n = true → m.expectedTick f.seq = some k →
    Yields (.trunkTallyArrive n f) s (fun t => MemKept s t ∧
      (m.runs bSCR = true → i < 6 → f.dir = 0 → ∀ w, w < 32 → t.get (SCR.TENTRY.DATA i (w / 4) (w % 4)) = f.field 2 (4 * w) 4) ∧
      (∀ p, p < 8 → isHubAddr (f.field (2 + 2 * p) 0 2) = true → (∀ q, q < 8 → p < q → f.field (2 + 2 * q) 0 2 ≠ f.field (2 + 2 * p) 0 2) →
        f.field (2 + 2 * p) 0 2 ≠ m.address →
        SMap.get ({} : HubSt) t.scr.hubs (f.field (2 + 2 * p) 0 2 - 0x7C00) = ⟨k, f.field (2 + 2 * p) 4 1, f.field (2 + 2 * p) 2 2⟩)))

/-- The decision (R154, R156, R160, R168, R171, R173, R174, R307): made at t_D for its tick with its seed and start ring; all rings blocked while BLOCK is
set or the hub is outside Run; XIN absent is counted and X, clamped where half-bridges would need it, stands. REFBLOCK missed references block the arm. The
segment sums of four ticks are written to HOSTIN 30 and 31 by timed writes (R298). -/
def Obligations.Decision : Prop :=
  (∀ s : State, s.isHub = true → s.runs bSCR = true → s.tickEvents = true → s.basecamp = false → s.forwarderOnly = false → s.red.itemTick = none →
    s.noReset srcSCR →
    let k := s.tickAt s.offD
    Yields .screeDecision s (fun t => t.scr.decision.tick = k ∧ t.scr.decision.blocked = (s.flag SCR.ARMCTL.BLOCK || !s.inRun) ∧
      t.scr.decision.seed = k * s.get SCR.CFG.SEEDMUL % 256 ∧ t.get SCR.DEC.START = k % 12 ∧ t.scr.xinFresh = false ∧ t.scr.signPos = s.currentPositive ∧
      (s.scr.xinFresh = false → t.get SCR.XLATE.COUNT = satNext 32 (s.get SCR.XLATE.COUNT)) ∧
      (s.scr.xinFresh = true → t.get SCR.XLATE.COUNT = s.get SCR.XLATE.COUNT) ∧
      (k % 8 ≠ 0 → t.get SCR.XUSED.X = ofSigned 32 s.formX.1 ∧ t.flag SCR.DEC.NEG = decide (s.formX.1 < 0) ∧
        t.flag SCR.DEC.CHG = (s.currentPositive != decide (s.formX.1 < 0))) ∧
      (t.scr.decision.blocked = true → ∀ r, r < 12 → t.scr.decision.modes.getD r 0 = 3) ∧ MemKept s t)) ∧
  (∀ s : State, s.isHub = true → s.runs bSCR = true → s.cnv.noCentral = false → s.get RED.REFCFG.REFBLOCK ≤ s.get RED.REFSTAT.RUN →
    s.recordsOnly (srcRED 9) = true → s.log.queue.length < queuePlaces hwOrigin →
    Yields .referenceLossBlock s (fun t => t.flag SCR.ARMCTL.BLOCK = true ∧ t.flag (srcRED 9).stat = true ∧ t.flag (srcRED 9).live = true ∧ MemKept s t)) ∧
  (∀ (s : State) (o : Origin) (v : Nat), s.mayWrite o SCR.ARMCTL.BLOCK.addr = true → s.log.queue.length < queuePlaces o → o.agent ≠ 0 → v < 2 ^ 32 →
    Yields (.armctlBlockWrite o v) s (fun t => t.get SCR.ARMCTL.BLOCK = v % 2 ∧ MemKept s t)) ∧
  (∀ s : State, s.isHub = true → s.inRun = true → s.forwarderOnly = false → s.sweep.1.slots ≠ 0 → s.flag TB.STAT.ALIGNED = true → s.mgt.timed.length < 15 →
    let k := s.tick - (s.tick + 1) % 4
    Yields .segmentSumSweep s (fun t => t.scr.sums = s.sweep.2.scr.sums ∧ MemKept s t ∧ ∃ a b : TimedSt, t.mgt.timed = s.mgt.timed ++ [a, b] ∧
      a.tick = k + 5 ∧ b.tick = k + 5 ∧ a.addr = (LPE.HOSTIN.VALUE 30).addr ∧ b.addr = (LPE.HOSTIN.VALUE 31).addr ∧ a.mask = 2 ^ 32 - 1 ∧
      b.mask = 2 ^ 32 - 1 ∧ a.value = scaled s.cnv.vpc s.sweep.1.codes s.sweep.1.slots))

/-- The exact split (R157, R160): the search goes through every slot of the favourable order once. With enough cells, the cells before the threshold slot and the quotas
of the units make up exactly the full insertions, no quota exceeds its unit's cells in that slot, and with a fraction the trim cell is the next one of a unit that
has one left; with too few, SAT and every cell of the last slot. -/
def Obligations.SplitIsExact : Prop :=
  (∀ (chg : Bool) (h : Nat), (slotOrder chg h).Nodup ∧ ∀ x : Slot, x ∈ slotOrder chg h ↔ x.2 ≤ 63) ∧
  (∀ (us : List UnitSt) (order : List Slot) (nfull frac : Nat), order.Nodup → order ≠ [] →
    let need := nfull + (if 0 < frac then 1 else 0)
    let r := splitCells us order nfull frac
    (need ≤ sumL (order.map (slotTotal us)) → r.sat = false ∧ r.short = false ∧ (∃ rest, order = r.before ++ r.slot :: rest) ∧
      sumL (r.before.map (slotTotal us)) + sumL r.quotas = nfull ∧ r.quotas.length = us.length ∧
      (∀ i u, us[i]? = some u → r.quotas.getD i 0 ≤ slotCount u r.slot) ∧ (frac = 0 → r.trim = none) ∧
      (0 < frac → ∃ i u, us[i]? = some u ∧ r.trim = some (i, r.quotas.getD i 0) ∧ r.quotas.getD i 0 < slotCount u r.slot)) ∧
    (sumL (order.map (slotTotal us)) < need → r.sat = true ∧ r.short = decide (sumL (order.map (slotTotal us)) < nfull) ∧ r.trim = none ∧
      order = r.before ++ [r.slot] ∧ sumL (r.before.map (slotTotal us)) + sumL r.quotas = sumL (order.map (slotTotal us))))

/-- Orders (R23, R35, R88 to R90, R92, R93, R95, R162, R163, R167, R359, R364): launched at t_O on every lane that is UP, obeyed by a cell of the ring when they
arrive in time, missed ones counted once and blocking the cell at the missed-order count; a hub sends a trunk Order on, with the shares where it leads, and
takes its arm's reference; the partner's cross-link Order shows its views. -/
def Obligations.Orders : Prop :=
  (∀ (s : State) (cmds : List (Nat × Nat × Nat × Nat)), s.tickEvents = true → s.forwarderOnly = false → s.red.itemTick = none → s.noReset srcRED →
    let k := s.tickAt s.offO
    (s.isHub = true → s.runs bSCR = true → Yields (.orderLaunch cmds) s (fun t => MemKept s t ∧ t.scr.ownViews = (k, s.viewsAt k) ∧
      (∀ r, r < 12 → s.cnv.ringEn.testBit r = true → s.laneUp r = true →
        Emit.frame r (sealFrame (s.ringOrder r k ((cmds.find? (fun c => c.1 == r)).map (fun c => c.2)))) ∈ t.out) ∧
      (s.laneUp 14 = true → ∃ g : Frame, Emit.frame 14 g ∈ t.out ∧ g.ftype = 2 ∧ g.seq = k % 65536 ∧ g.field 1 6 2 = s.get RED.SEEN.OWN))) ∧
    (s.isCentral = true → Yields (.orderLaunch cmds) s (fun t => MemKept s t ∧ t.lpe.outFresh = [] ∧ t.red.commits = [] ∧
      ∀ i, i < 6 → s.laneUp (i + 2) = true → Emit.frame (i + 2) (sealFrame (s.trunkOrder i k)) ∈ t.out))) ∧
  (∀ (s : State) (r k : Nat) (cmd : Option (Nat × Nat × Nat)), s.scr.iarm < 2 ^ 32 → r < 12 →
    let g := s.ringOrder r k cmd
    g.ftype = 2 ∧ g.seq = k % 65536 ∧ g.field 1 5 1 = r ∧ g.field 1 6 1 = s.launchMode r k % 256 ∧ g.field 3 0 4 = s.scr.iarm ∧
      (s.basecamp = true ∨ s.redState = rsForming ∨ (s.scr.decision.tick = k ∧ s.scr.decision.blocked = true) → s.launchMode r k = 3) ∧
      (cmd = none → g.field 4 0 1 = 0xFF ∧ g.field 4 1 1 = 0)) ∧
  (∀ (s : State) (n k : Nat) (f : Frame), (s.arrive n f).1 = true →
    let m := (s.arrive n f).2
    m.isCell = true → m.unjoined = false → m.runs bSCR = true → m.tickEvents = true → m.halted = false → f.ftype = ftOrder → f.field 1 5 1 % 16 = m.myRing →
    m.awaitedTick f.seq = some k → m.onTime k = true → (m.scr.orders.find? (fun o => o.tick == k)) = none → m.noReset srcPWM →
    Yields (.orderReceive n f) s (fun t => t.scr.orders.head? = some ⟨k, f.field 1 2 2, f.field 1 0 2, f.dir, m.cellRule f k, m.get SCR.CSTAT.MISSRUN⟩ ∧
      t.get SCR.CSTAT.MISSRUN = (if m.cellRule f k = .missed then m.get SCR.CSTAT.MISSRUN else 0) ∧ t.pwm.iarm = f.field 3 0 4 ∧
      t.pwm.latestBlockAll = decide (f.field 1 6 1 % 4 = 3) ∧ MemKept s t)) ∧
  (∀ s : State, s.runs bSCR = true → s.isCell = true → s.unjoined = false → s.tickEvents = true →
    let k := s.tickAt (s.offApply - 40)
    (∀ o ∈ s.scr.orders, o.tick = k → o.target = .missed) → s.scr.missTick ≠ k + 1 →
    Yields .orderMissed s (fun t => t.get SCR.MISSED.COUNT = satNext 32 (s.get SCR.MISSED.COUNT) ∧
      t.get SCR.CSTAT.MISSRUN = satNext 8 (s.get SCR.CSTAT.MISSRUN) ∧ t.scr.missTick = k + 1 ∧
      RegsKept [SCR.MISSED.COUNT.addr, SCR.CSTAT.MISSRUN.addr] s t ∧ MemKept s t)) ∧
  (∀ s : State, s.runs bSCR = true → s.runs bPWM = true → s.isCell = true → s.tickEvents = true → s.saf.bypassed = false →
    s.cnv.missed ≤ s.get SCR.CSTAT.MISSRUN → s.recordsOnly (srcSCR 7) = true →
    Yields .missedOrderBlock s (fun t => t.pwm.full = 0 ∧ t.get PWM.LGRANT.TICKS = 0 ∧ t.flag PWM.STAT.LOCAL = false ∧ MemKept s t ∧
      (s.pwm.full ≠ 0 → t.get PWM.STAT.STATE = 0 ∧ t.flag (srcSCR 7).stat = true ∧ (s.forceDrives = false → t.pwm.pattern = 0 ∧
        ∀ g, g < 4 → s.pwm.pattern.testBit g = true ∨ s.pwm.gates.testBit g = false → t.pwm.gates.testBit g = false)))) ∧
  (∀ (s : State) (n o k : Nat) (f : Frame), (s.rxFrame n f).1 = true →
    let m := (s.rxFrame n f).2
    m.isHub = true → m.wholeFrame n f ftOrder = true → m.forwarderOnly = false → m.runs bSCR = true → m.expectedTick f.seq = some k →
    m.forwardLane n = some o → m.laneUp o = true →
    Yields (.trunkOrderReceive n f) s (fun t => Emit.frame o (sealFrame (passOn (m.writeShares f k) false)) ∈ t.out ∧
      RegsKept (laneCounts [o]) m t ∧ MemKept s t ∧
      (∀ b, armSlot f (m.armOf m.segment) = some b → m.scr.trunkObeyed = none → f.field (2 + b) 1 1 % 2 = 1 →
        t.scr.vref = f.field (2 + b) 4 4 ∧ t.scr.vrefFresh = true) ∧
      (armSlot f (m.armOf m.segment) = none → t.scr = m.scr))) ∧
  (∀ (s : State) (k : Nat) (f : Frame), (s.rxFrame s.crossLane f).1 = true →
    let m := (s.rxFrame s.crossLane f).2
    m.isCell = false → f.ftype = ftOrder → f.field 1 0 2 = m.partner → m.redRuns = true → m.expectedTick f.seq = some k → m.noReset srcRED →
    Yields (.crossLinkOrderReceive f) s (fun t => t.get RED.SEEN.PARTNER = f.field 1 6 2 % 2 ^ RED.SEEN.PARTNER.w ∧ t.red.crossTick = some k ∧
      t.scr.partnerViews = (k, f.field 2 0 3) ∧ t.flag RED.STAT.PSERVE = (f.field 1 4 1).testBit 1 ∧ t.get RED.EPOCH.PARTNER = f.field 1 2 2))

/-- Commands in Orders (R88, R90, R168, R175, R189, R206): in a cell that obeys the Order, and that the command addresses, EXCLUDE and INCLUDE set what the next
sample instant makes the cell's exclusion, SNAPREC shows what the cell used at the tick that CMDARG names, CLRCNT clears its ten counters, LOCALGRANT asks for
a grant where local mode is enabled and is refused elsewhere, LOCALEND asks for its end, DTRESET, also by CTRL, for the reset of the dead times, and BYPASS,
only with the cell's own address, for the bypass, each for the next apply instant. In any other cell each of the eight does nothing. -/
def Obligations.OrderCommands : Prop :=
  (∀ (s : State) (f : Frame),
    (s.addressed f 0x10 = false → Yields (.exclude f) s (fun t => t = s)) ∧ (s.addressed f 0x11 = false → Yields (.include f) s (fun t => t = s)) ∧
    (s.addressed f 0x12 = false → Yields (.snaprec f) s (fun t => t = s)) ∧ (s.addressed f 0x13 = false → Yields (.clrcnt f) s (fun t => t = s)) ∧
    (s.addressed f 0x20 = false → Yields (.localgrant f) s (fun t => t = s)) ∧ (s.addressed f 0x21 = false → Yields (.localend f) s (fun t => t = s)) ∧
    (s.addressed f 0x22 = false → ∀ n : Nat, Yields (.dtreset (.frame n f)) s (fun t => t = s)) ∧
    (s.addressed f 0x23 = false → Yields (.bypass f) s (fun t => t = s))) ∧
  (∀ (s : State) (f : Frame), s.addressed f 0x10 = true →
    Yields (.exclude f) s (fun t => t = { s with scr := { s.scr with exclNext := some true } })) ∧
  (∀ (s : State) (f : Frame), s.addressed f 0x11 = true →
    Yields (.include f) s (fun t => t = { s with scr := { s.scr with exclNext := some false } })) ∧
  (∀ (s : State) (on : Bool), s.scr.exclNext = some on → s.tickEvents = true → s.forwarderOnly = false → s.isCell = true → s.runs bSCR = true →
    s.noReset srcLPE → Yields .sampleInstant s (fun t => t.flag SCR.CSTAT.CMDEXCL = on ∧ (on = true → t.scr.excluded = true) ∧ t.scr.exclNext = none)) ∧
  (∀ (s : State) (f : Frame), s.addressed f 0x12 = true →
    let u := (s.scr.used.find? (fun u => u.tick % 65536 == f.field 4 2 2)).getD ⟨0, none, none, none, none, 0⟩
    let own := u.own.getD (s.scr.bin, s.scr.clsI)
    Yields (.snaprec f) s (fun t => t.get SCR.CSNAP.C0 = u.c0.getD 0xFF % 256 ∧ t.get SCR.CSNAP.C1 = u.c1.getD 0xFF % 256 ∧
      t.get SCR.CSNAP.BIN = own.1 % 64 ∧ t.flag SCR.CSNAP.CLS = own.2 ∧ t.get SCR.CSNAP.RANK = u.rank.getD 0xFF % 256 ∧
      RegsKept [SCR.CSNAP.C0.addr] s t ∧ MemKept s t)) ∧
  (∀ (s : State) (f : Frame), s.addressed f 0x13 = true → Yields (.clrcnt f) s (fun t => MemKept s t ∧
    ∀ a, t.reg a = (if SCR.MISSED.COUNT.addr ≤ a ∧ a ≤ SCR.NEGCLAMP.COUNT.addr ∧ a % 4 = 0 then 0 else s.reg a))) ∧
  (∀ (s : State) (f : Frame), s.addressed f 0x20 = true → s.runs bPWM = true →
    (s.flag PWM.CFG.LOCALEN = true → f.field 4 2 2 ≠ 0 → Yields (.localgrant f) s (fun t =>
      t = { s.unlive (srcPWM 6) with pwm := { s.pwm with grantNext := some (f.field 4 2 2), grantEnd := false } })) ∧
    (s.flag PWM.CFG.LOCALEN = true → f.field 4 2 2 = 0 → Yields (.localgrant f) s (fun t => t = s.unlive (srcPWM 6))) ∧
    (s.flag PWM.CFG.LOCALEN = false → s.recordsOnly (srcPWM 6) = true → Yields (.localgrant f) s (fun t =>
      t.get PWM.BADCMD.COUNT = satNext 32 (s.get PWM.BADCMD.COUNT) ∧ t.flag (srcPWM 6).stat = true ∧ t.pwm = s.pwm ∧
      RegsKept [PWM.BADCMD.COUNT.addr, (srcPWM 6).stat.addr, (srcPWM 6).live.addr] s t ∧ MemKept s t))) ∧
  (∀ (s : State) (f : Frame), s.addressed f 0x21 = true → s.runs bPWM = true → Yields (.localend f) s (fun t =>
    t = { s with pwm := { s.pwm with grantEnd := true, grantNext := none } })) ∧
  (∀ (s : State) (n : Nat) (f : Frame), s.addressed f 0x22 = true → s.runs bPWM = true → Yields (.dtreset (.frame n f)) s (fun t =>
    t = { s with pwm := { s.pwm with dtReset := true } })) ∧
  (∀ (s : State) (o : Origin) (v : Nat), s.mayWrite o PWM.CTRL.DTRESET.addr = true → s.runs bPWM = true → v < 2 ^ 32 →
    Yields (.dtreset (.write o v)) s (fun t => t.pwm.dtReset = true ∧ MemKept s t ∧
      (v.testBit 0 = false → v.testBit 2 = false → t.pwm = { s.pwm with dtReset := true } ∧ RegsKept [] s t))) ∧
  (∀ (s : State) (f : Frame), s.addressed f 0x23 = true → s.runs bPWM = true →
    (f.field 4 2 2 = s.address → Yields (.bypass f) s (fun t => t = { s.unlive (srcPWM 6) with pwm := { s.pwm with bypassNext := true } })) ∧
    (f.field 4 2 2 ≠ s.address → s.recordsOnly (srcPWM 6) = true → Yields (.bypass f) s (fun t =>
      t.get PWM.BADCMD.COUNT = satNext 32 (s.get PWM.BADCMD.COUNT) ∧ t.flag (srcPWM 6).stat = true ∧ t.pwm = s.pwm ∧
      RegsKept [PWM.BADCMD.COUNT.addr, (srcPWM 6).stat.addr, (srcPWM 6).live.addr] s t ∧ MemKept s t)))

/-! ## Cell switching -/

/-- The apply instant (R23, R163 to R167, R178, R181 to R184, R189, R196, R198, R205): the cell takes the state of the Order of this tick; outgoing gates turn
off, incoming ones wait for their dead time; a trim cell holds its state for its length; BLOCKALL blocks; a missed Order keeps the full state; pending values
and a dead-time reset take effect here, and a commanded bypass fires here. -/
def Obligations.ApplyInstant : Prop :=
  (∀ (s : State) (x : OrderSt), s.orderDrives = true → s.noReset srcPWM →
    let k := s.tickAt s.offApply
    let T := (k * s.tu + s.offApply) * 64
    s.scr.orders.find? (fun o => o.tick == k) = some x → s.dwells k = false →
    (∀ want, (x.target = .go false ∧ want = 1 ∨ x.target = .go true ∧ want = 2 ∨ x.target = .out ∧ want = 3) → s.takes want = true →
      s.forceActs = false →
      Yields .applyInstant s (fun t => t.pwm.full = want ∧ t.get PWM.STAT.STATE = want ∧ t.flag PWM.STAT.TRIM = false ∧
        t.flag SCR.CSTAT.INS = decide (want ≠ 3) ∧ t.flag SCR.CSTAT.TRIM = false ∧
        (want = 1 → t.pwm.pattern = (if s.fullBridge then 9 else 1)) ∧ (want = 2 → t.pwm.pattern = 6) ∧
        (want = 3 → (s.fullBridge = false ∧ t.pwm.pattern = 2) ∨ (s.fullBridge = true ∧ (t.pwm.pattern = 5 ∨ t.pwm.pattern = 10))) ∧
        (∀ g, g < 4 → s.pwm.pattern.testBit g = true → t.pwm.pattern.testBit g = false → t.pwm.gates.testBit g = false) ∧
        (∀ g, g < 4 → s.pwm.pattern.testBit g = false → t.pwm.pattern.testBit g = true → ∃ d ∈ t.pwm.due, d.1 = g ∧
          T + (if s.pwm.pattern.testBit (partnerGate g) then s.deadTime g else s.get PWM.DTCEIL.CEIL) ≤ d.2.1) ∧
        RegsKept [SCR.CSTAT.TRIM.addr, PWM.STAT.STATE.addr, PWM.LGRANT.TICKS.addr, PWM.INTERLOCK.COUNT.addr, (srcPWM 1).stat.addr, (srcPWM 1).live.addr,
          SAF.DSATIDLE.COUNT.addr] s t ∧ MemKept s t)) ∧
    (∀ neg frac l, x.target = .trim neg frac → s.takes (inState neg) = true →
      trimLength ((frac * s.tu + 512) / 1024) s.trimM (64 * s.tu) = .part l →
      Yields .applyInstant s (fun t => t.get PWM.STAT.STATE = inState neg ∧ t.flag PWM.STAT.TRIM = true ∧ t.pwm.full = 3 ∧ t.pwm.trimEnd = some (T + l) ∧
        t.get PWM.TRIMLEN.LEN = l % 2 ^ 18 ∧ t.flag SCR.CSTAT.TRIM = true ∧ MemKept s t)) ∧
    (x.target = .blockAll → Yields .applyInstant s (fun t => t.pwm.full = 0 ∧
      (s.pwm.full ≠ 0 → t.get PWM.STAT.STATE = 0 ∧ (s.forceActs = false → t.pwm.pattern = 0 ∧
        ∀ g, g < 4 → s.pwm.pattern.testBit g = true → t.pwm.gates.testBit g = false)) ∧ MemKept s t))) ∧
  (∀ s : State, s.orderDrives = true → s.noReset srcPWM →
    (s.scr.orders.find? (fun o => o.tick == s.tickAt s.offApply)) = none → s.get SCR.CSTAT.MISSRUN < s.cnv.missed →
    (s.pwm.full = 1 ∨ s.pwm.full = 2 ∨ s.pwm.full = 3) → s.takes s.pwm.full = true →
    Yields .applyInstant s (fun t => t.pwm.full = s.pwm.full ∧ t.get PWM.STAT.STATE = s.pwm.full ∧ t.flag PWM.STAT.TRIM = false ∧
      t.flag SCR.CSTAT.TRIM = false ∧ MemKept s t)) ∧
  (∀ s : State, s.applies = true → s.noReset srcPWM → s.noReset srcSCR →
    (s.flag PWM.STAT.PENDING = true → s.pwm.before = none →
      let per := s.get PWM.PERIOD.PERIOD
      let per' := if per < 20 then 20 else if 4000 < per then 4000 else per
      let flr := if s.get PWM.DTFLOOR.FLOOR < s.get PWM.DTMIN.MIN then s.get PWM.DTMIN.MIN else s.get PWM.DTFLOOR.FLOOR
      Yields .applyInstant s (fun t => t.get PWM.ACTPERIOD.PERIOD = per' ∧
        t.get PWM.ACTDUTY.DUTY = (if 64 * per' < s.get PWM.DUTY.DUTY then 64 * per' else s.get PWM.DUTY.DUTY) ∧
        t.get PWM.ACTFLOOR.FLOOR = (if s.get PWM.DTCEIL.CEIL < flr then s.get PWM.DTCEIL.CEIL else flr) ∧
        t.get PWM.ACTLSTATE.LSTATE = (s.get PWM.LSTATE.ON + 16 * s.get PWM.LSTATE.OFF) % 64 ∧ t.flag PWM.STAT.PENDING = false ∧ MemKept s t)) ∧
    (s.pwm.dtReset = true → Yields .applyInstant s (fun t => t.pwm.dtReset = false ∧
      (∀ i, i < 8 → t.get (PWM.DT.DT i) = s.get PWM.DTCEIL.CEIL) ∧ MemKept s t)) ∧
    (s.saf.bypassed = false → s.pwm.bypassNext = true → Yields .applyInstant s (fun t => t.saf.bypassed = true ∧ t.pwm.bypassNext = false ∧
      t.pwm.gates = 0 ∧ t.get PWM.STAT.STATE = 4 ∧ t.get SAF.STAT.ENCMD = 0 ∧ (s.flag SAF.STAT.TRIP = false → t.flag SAF.STAT.BYP = true) ∧ MemKept s t)))

/-- Within the tick (R184, R187, R191 to R195): a trim ends in Zeroed; the on-interval and the period of the local generator end; a grant runs out; a swing window
moves the dead time of its edge towards the swing plus its margin, up where the swing had only begun and down where none was seen, by at most a step and within
its limits; a good spare delay line replaces the line of the next output once that makes no edge within 20 ns, a bad one is retired. -/
def Obligations.WithinTheTick : Prop :=
  (∀ (s : State) (e : Nat), s.pwm.trimEnd = some e → e / 64 ≤ s.now5 → s.runs bPWM = true → s.noReset srcPWM →
    Yields .trimEnd s (fun t => t.pwm.trimEnd = none ∧ t.get PWM.STAT.STATE = 3 ∧ t.flag PWM.STAT.TRIM = false ∧ t.pwm.full = s.pwm.full ∧ MemKept s t)) ∧
  (∀ (s : State) (e : Nat), s.pwm.localDuty = some e → e / 64 ≤ s.now5 → s.runs bPWM = true → s.noReset srcPWM →
    let off := s.get PWM.ACTLSTATE.LSTATE / 16 % 4
    off ≠ 2 → s.refuses 1 = false →
    Yields .localDutyEnd s (fun t => t.pwm.localDuty = none ∧ t.get PWM.STAT.STATE = (if off = 1 then 1 else 3) ∧
      t.pwm.full = (if off = 1 then 1 else 3) ∧ MemKept s t)) ∧
  (∀ (s : State) (e : Nat), s.pwm.localEnd = some e → e / 64 ≤ s.now5 → s.runs bPWM = true → s.localMode = true → s.noReset srcPWM →
    Yields .localPeriodEnd s (fun t => t.pwm.localEnd = some (e + 64 * s.get PWM.ACTPERIOD.PERIOD) ∧ t.flag PWM.STAT.LOCAL = true ∧
      t.pwm.localDuty = (match trimLength (s.get PWM.ACTDUTY.DUTY) s.trimM (64 * s.get PWM.ACTPERIOD.PERIOD) with | .part l => some (e + l) | _ => none) ∧
      MemKept s t)) ∧
  (∀ s : State, (s.get PWM.LGRANT.TICKS = 1 → Yields .grantExpire s (fun t => t.get PWM.LGRANT.TICKS = 0 ∧ t.flag PWM.STAT.LOCAL = false ∧
      t.pwm.localEnd = none ∧ RegsKept [PWM.LGRANT.TICKS.addr, PWM.STAT.LOCAL.addr] s t ∧ MemKept s t)) ∧
    (s.get PWM.LGRANT.TICKS ≠ 1 → Yields .grantExpire s (fun t => t = s))) ∧
  (∀ (s : State) (idx on : Nat) (v0 : Int) (vsw : List Int) (e : EdgeSt), idx < 8 → s.pwm.edges.find? (fun x => x.idx == idx) = some e → e.on = some on →
    s.runs bPWM = true → s.vswConverts = true → on + s.get PWM.VSWTH.SWINGMAX ≤ s.time64 → s.flag PWM.CFG.DTADAPT = true → s.noReset srcPWM →
    let step : Int := s.get PWM.DTADJ.STEP
    let start := crossing ((v0 :: vsw).map vswCode) e.step (s.get PWM.VSWTH.START)
    let done := crossing ((v0 :: vsw).map vswCode) e.step (s.get PWM.VSWTH.DONE)
    let moved (d : Int) : Int := clampI s.floorNow (s.get PWM.DTCEIL.CEIL) (e.dt + d)
    (∀ d, done = some d → d < on - e.off → Yields (.swingCheck idx v0 vsw) s (fun t =>
      (t.get (PWM.DT.DT idx) : Int) = moved (clampI (-step) step ((d : Int) + s.get PWM.DTADJ.MARGIN - e.dt)) ∧
      t.get (PWM.DT.SWING idx) = d % 65536 ∧ (∀ x ∈ t.pwm.edges, x.idx ≠ idx) ∧ RegsKept [(PWM.DT.DT idx).addr, (srcPWM 2).live.addr] s t ∧ MemKept s t)) ∧
    (∀ d, start = some d → d < on - e.off → (∀ x, done = some x → on - e.off ≤ x) → Yields (.swingCheck idx v0 vsw) s (fun t =>
      (t.get (PWM.DT.DT idx) : Int) = moved step ∧ t.get (PWM.DT.SWING idx) = 0xFFFF ∧ MemKept s t)) ∧
    ((∀ x, done = some x → on - e.off + s.get PWM.VSWTH.SWINGMAX < x) → (∀ x, start = some x → on - e.off ≤ x) → s.recordsOnly (srcPWM 3) = true →
      Yields (.swingCheck idx v0 vsw) s (fun t => (t.get (PWM.DT.DT idx) : Int) = moved (-step) ∧ t.get (PWM.DT.SWING idx) = 0xFFFF ∧
        t.get PWM.NOSWING.COUNT = satNext 32 (s.get PWM.NOSWING.COUNT) ∧ t.flag (srcPWM 3).stat = true ∧ MemKept s t))) ∧
  (∀ (s : State) (o : Origin) (v dev : Nat), s.runs bPWM = true → dev < 65536 →
    let sp := s.get PWM.CAL.SPARE
    (sp ≠ 7 → ∀ c, (c = Instr.delayLineCalibration true dev ∨ (c = Instr.calnow o v true dev ∧ s.mayWrite o PWM.CTRL.CALNOW.addr = true ∧ v < 2 ^ 32 ∧
        v.testBit 0 = false ∧ v.testBit 1 = false)) → s.pwm.lines.getD s.pwm.calTurn 0 < 8 →
      Yields c s (fun t => t.get PWM.CALDEV.PS = dev ∧ t.flag PWM.CAL.CALOK = true ∧
        (s.swapFree s.pwm.calTurn = true → t.get PWM.CAL.SPARE = s.pwm.lines.getD s.pwm.calTurn 0 ∧ t.pwm.lines = s.pwm.lines.set s.pwm.calTurn sp ∧
          t.pwm.calTurn = (s.pwm.calTurn + 1) % 4) ∧
        (s.swapFree s.pwm.calTurn = false → t.pwm = { s.pwm with swapWait := true } ∧ t.get PWM.CAL.SPARE = sp) ∧
        RegsKept [PWM.CAL.SPARE.addr, PWM.CALDEV.PS.addr, (srcPWM 0).live.addr] s t ∧ MemKept s t)) ∧
    (sp < 5 → s.recordsOnly (srcPWM 0) = true → Yields (.delayLineCalibration false dev) s (fun t => t.get PWM.CALDEV.PS = dev ∧
        t.getBit PWM.CAL.FAILED sp = true ∧ t.get PWM.CAL.SPARE = 7 ∧ t.flag PWM.CAL.CALOK = false ∧ t.pwm = { s.pwm with swapWait := false } ∧
        t.flag (srcPWM 0).stat = true ∧ MemKept s t)) ∧
    (sp = 7 → Yields (.delayLineCalibration true dev) s (fun t => t = s)))

/-- Commands of the switching unit (R196, R197, R199, R200, R202, R208): COMMIT arms the reload, one in the cycle of an apply instant is late; FORCE acts where it
is permitted, the arm is blocked and nothing of a higher rank holds the gates, and is an error elsewhere; an armed snapshot copies the gate counters; a halted core blocks the cell, one of the safety pair
opens the series enables (R248), and the cell waits for an Order after the resume. -/
def Obligations.SwitchingCommands : Prop :=
  (∀ (s : State) (o : Origin) (v : Nat), s.mayWrite o PWM.CTRL.COMMIT.addr = true → s.runs bPWM = true → v < 2 ^ 32 →
    Yields (.pwmCommit o v) s (fun t => t.flag PWM.STAT.PENDING = true ∧ MemKept s t ∧
      (s.atApply = false → v.testBit 1 = false → v.testBit 2 = false → t.pwm = s.pwm ∧ RegsKept [PWM.STAT.PENDING.addr] s t) ∧
      (s.atApply = true → t.flag PWM.STAT.LATE = true ∧ t.get PWM.LATECNT.COUNT = satNext 32 (s.get PWM.LATECNT.COUNT)))) ∧
  (∀ (s : State) (o : Origin) (v : Nat), s.mayWrite o PWM.FORCE.EN.addr = true → s.log.queue.length < queuePlaces o → o.agent ≠ 0 → v < 2 ^ 32 →
    let permitted := s.flag PWM.CFG.FORCEEN && s.pwm.latestBlockAll && !s.saf.bypassed && !s.halted && !s.pwm.waitOrder && !s.clockless
    (permitted = true → s.noReset srcPWM → Yields (.forceWrite o v) s (fun t => t.get PWM.FORCE.VAL = v % 16 ∧ t.get PWM.FORCE.EN = v / 16 % 16 ∧
      t.flag PWM.STAT.FORCED = decide (v / 16 % 16 ≠ 0) ∧ MemKept s t ∧
      (v / 16 % 16 ≠ 0 → ∀ g, g < 4 → (v / 16).testBit g = true → t.pwm.pattern.testBit g = true →
        v.testBit g = true))) ∧
    (permitted = false → s.recordsOnly (srcPWM 5) = true → Yields (.forceWrite o v) s (fun t => t.flag (srcPWM 5).stat = true ∧ t.pwm = s.pwm ∧
      MemKept s t))) ∧
  (∀ (s : State) (o : Origin) (v : Nat), s.mayWrite o PWM.SNAPAT.ARM.addr = true → s.runs bPWM = true → v < 2 ^ 32 →
    Yields (.snapatArm o v) s (fun t => t.get PWM.SNAPAT.SEQ = v % 65536 ∧ RegsKept [PWM.SNAPAT.ARM.addr] s t ∧ MemKept s t ∧
      (if farEnough s.tick (v % 65536) then t.flag PWM.SNAPAT.ARMED = true ∧ t.pwm.snapTick = namedTick s.tick (v % 65536)
       else t.flag PWM.SNAPAT.LATE = true ∧ t.flag PWM.SNAPAT.ARMED = s.flag PWM.SNAPAT.ARMED))) ∧
  (∀ s : State, s.runs bPWM = true → s.flag PWM.SNAPAT.ARMED = true → s.pwm.snapTick * s.tu + s.offApply ≤ s.now5 →
    Yields .counterSnapshot s (fun t => t.flag PWM.SNAPAT.ARMED = false ∧ (∀ g, g < 4 →
      t.getPair (PWM.SNAP_LO.COUNT g) (PWM.SNAP_HI.COUNT g) = s.getPair (PWM.ON_LO.COUNT g) (PWM.ON_HI.COUNT g)) ∧
      RegsKept ([PWM.SNAPAT.ARMED.addr] ++ (List.range 4).flatMap (fun g => [(PWM.SNAP_LO.COUNT g).addr, (PWM.SNAP_HI.COUNT g).addr])) s t ∧ MemKept s t)) ∧
  (∀ (s : State) (core : Nat), core < 10 → s.dbgLock = false → s.pwm.halted.testBit core = false →
    Yields (.debugHalt core) s (fun t => t.halted = true ∧ (core < 4 → t.getBit SER.CORESTAT.HALTED core = true) ∧
      (6 ≤ core → t.getBit LPE.STAT.HALTED (core - 6) = true) ∧ (core = 4 ∨ core = 5 → t.get SAF.STAT.ENCMD = 0) ∧ MemKept s t ∧
      (s.isCell = true → s.runs bPWM = true → s.saf.bypassed = false → t.pwm.gates = 0 ∧ t.get PWM.STAT.STATE = 0 ∧ t.flag PWM.STAT.HALTBLK = true ∧
        t.get PWM.HALTS.COUNT = satNext 32 (s.get PWM.HALTS.COUNT) ∧ t.pwm.waitOrder = true))) ∧
  (∀ s : State, Yields .debugResume s (fun t => t.halted = false ∧ t.get SER.CORESTAT.HALTED = 0 ∧ t.get LPE.STAT.HALTED = 0 ∧
    t.pwm.waitOrder = s.pwm.waitOrder ∧ t.pwm.gates = s.pwm.gates ∧ RegsKept [SER.CORESTAT.HALTED.addr, LPE.STAT.HALTED.addr, SAF.STAT.ENCMD.addr, ENV.DISSTAT.STATE.addr] s t ∧ MemKept s t))

/-! ## Measurements -/

/-- Conversions (R149, R211 to R216, R218, R219, R226, R228): a VCAP conversion that is due and does not self-calibrate gives its clamped code, its energy and, at
a sample instant, VCAPSI and the bin; a failed one, one without REFOK or one that ends late gives 0xFFFF, counts, keeps the energy and, of a sample instant,
excludes the cell; self-calibration moves a correction by at most one unit and leaves the code (the sign by which it decides is the model's choice, assumption
167); the reference, the mean of 2^AVG AUX conversions (rounded down, the model's choice, assumption 168) and the die result show, an AUX result at either end
is invalid. -/
def Obligations.Conversions : Prop :=
  (∀ (s : State) (kind : ConvKind) (r : Int), kind = .sample ∨ kind = .other → s.runs bADC = true → s.flag ADC.CTRL.VCAPEN = true → s.convDue kind = true → s.noReset srcADC →
    s.noReset srcENVS → s.noReset srcPWM →
    let code := (clampI 0 65534 (s.vcapRound r)).toNat
    let v := f32mul (f32ofInt code) (s.get ADC.VCAPSCALE.SCALE)
    (s.flag ADC.STAT.REFOK = true → s.convLate kind = false → Yields (.vcapConversion kind r) s (fun t => t.get ADC.VCAP.CODE = code ∧ t.flag ADC.STAT.VCAPVALID = true ∧ MemKept s t ∧
      (kind = .sample → t.get ADC.VCAPSI.CODE = code ∧ t.scr.bin = s.binOf code ∧ t.get SCR.CSTAT.BIN = s.binOf code ∧ t.sense.sampleDone = true) ∧
      (s.runs bENV = true → t.get ENV.VOLTS.V = v % 2 ^ 32 ∧ t.get ENV.ENERGY.E = energyOf (s.ledgerC % 2 ^ 32) v % 2 ^ 32))) ∧
    (∀ c, (c = Instr.vcapConversionFail kind ∨ (c = Instr.vcapConversion kind r ∧ (s.flag ADC.STAT.REFOK = false ∨ s.convLate kind = true))) → Yields c s (fun t =>
      t.get ADC.VCAP.CODE = 0xFFFF ∧ t.flag ADC.STAT.VCAPVALID = false ∧ t.get ADC.VCAPFAIL.COUNT = satNext 32 (s.get ADC.VCAPFAIL.COUNT) ∧
      t.get ENV.ENERGY.E = s.get ENV.ENERGY.E ∧ MemKept s t ∧
      (s.recordsOnly (srcADC 0) = true → t.flag (srcADC 0).stat = true) ∧
      (kind = .sample → t.get ADC.VCAPSI.CODE = 0xFFFF ∧ t.scr.excluded = true)))) ∧
  (∀ (s : State) (r : Int), s.runs bADC = true → s.flag ADC.CTRL.VCAPEN = true → s.flag ADC.STAT.REFOK = true → s.noReset srcADC →
    let o := toSigned 16 (s.get ADC.CALCORR.OFFSET)
    let g := toSigned 16 (s.get ADC.CALCORR.GAIN)
    let kept (t : State) : Prop := t.get ADC.CALCNT.COUNT = satNext 32 (s.get ADC.CALCNT.COUNT) ∧
      RegsKept [ADC.CALCORR.OFFSET.addr, ADC.CALCNT.COUNT.addr, (srcADC 6).stat.addr, (srcADC 6).live.addr] s t ∧ MemKept s t
    (s.convDue .calZero = true → o < 1024 → -1024 < o → Yields (.vcapConversion .calZero r) s (fun t => kept t ∧
      t.get ADC.CALCORR.GAIN = s.get ADC.CALCORR.GAIN ∧
      t.get ADC.CALCORR.OFFSET = ofSigned 16 (if 0 < s.vcapRound r then o - 1 else if s.vcapRound r < 0 then o + 1 else o))) ∧
    (s.convDue .calRef = true → g < 10486 → -10486 < g → Yields (.vcapConversion .calRef r) s (fun t => kept t ∧
      t.get ADC.CALCORR.OFFSET = s.get ADC.CALCORR.OFFSET ∧
      t.get ADC.CALCORR.GAIN = ofSigned 16 (if 49152 < s.vcapRound r then g - 1 else if s.vcapRound r < 49152 then g + 1 else g)))) ∧
  (∀ (s : State) (ok : Bool), s.runs bADC = true → s.recordsOnly (srcADC 1) = true → Yields (.vrefOutOfBand ok) s (fun t => t.flag ADC.STAT.REFOK = ok ∧
    t.flag (srcADC 1).live = !ok ∧ (ok = false → s.flag (srcADC 1).live = false → t.flag (srcADC 1).stat = true) ∧
    RegsKept [ADC.STAT.REFOK.addr, (srcADC 1).stat.addr, (srcADC 1).live.addr] s t ∧ MemKept s t)) ∧
  (∀ (s : State) (n raw : Nat), n < 4 → s.runs bADC = true → s.getBit ADC.AUXCTL.EN n = true → (s.flag ADC.AUXCTL.MODE = false ∨ s.sense.auxLeft.testBit n = true) →
    raw < 4096 → s.noReset srcADC →
    let p := SMap.get (0, 0) s.sense.auxSum n
    let x := (p.1 + raw) / (p.2 + 1)
    let y := if s.getBit ADC.AUXCTL.LIN n then s.auxTable n x else f32add (f32mul (s.get (ADC.AUXGAIN.GAIN n)) (f32ofInt x)) (s.get (ADC.AUXOFF.OFFSET n))
    (p.2 + 1 < 2 ^ s.get ADC.AUXCTL.AVG → Yields (.auxConversion n raw) s (fun t =>
      t = { s with sense := { s.sense with auxSum := SMap.set (0, 0) s.sense.auxSum n (p.1 + raw, p.2 + 1) } })) ∧
    (2 ^ s.get ADC.AUXCTL.AVG ≤ p.2 + 1 → Yields (.auxConversion n raw) s (fun t => t.get (ADC.AUXRAW.RAW n) = x % 4096 ∧
      t.get (ADC.AUXVAL.VALUE n) = y % 2 ^ 32 ∧ t.flag (ADC.AUXRAW.VALID n) = decide (x ≠ 0 ∧ x ≠ 0xFFF) ∧ t.sense.auxLeft.testBit n = false ∧
      (x = 0 ∨ x = 0xFFF → t.flag (srcADC 5).stat = true ∧ t.flag (srcADC 5).live = true) ∧
      RegsKept [(ADC.AUXRAW.RAW n).addr, (ADC.AUXVAL.VALUE n).addr, (srcADC 5).stat.addr, (srcADC 5).live.addr] s t ∧ MemKept s t))) ∧
  (∀ (s : State) (x : Nat), s.runs bADC = true → Yields (.dieTempConversion x) s (fun t => t.get ADC.DIETEMP.TEMP = x % 65536 ∧
    RegsKept [ADC.DIETEMP.TEMP.addr] s t ∧ MemKept s t))

/-- Sigma-delta channels (R221 to R224, R309): the bits of a channel join its stream, whose sinc3 sums give the main and the fast output, scaled; a stream that has
not changed for 64 clocks is stuck, and on the arm current of a hub whose nibble selects a trap it blocks the arm. The capacitance window (R231 to R233) closes
once the Order 2^WLOG ticks after its first tick has been accepted; RESTART clears it, and discards one that closes in the same cycle; PKCLR clears the energy
peak (R228). -/
def Obligations.ChannelsAndEstimator : Prop :=
  (∀ (s : State) (n : Nat) (bits : List Bool), n < 8 → s.sdmRuns n = true → s.noReset srcSDM →
    let l := (bits.reverse ++ SMap.get [] s.sense.sdm n).take sdmDepth
    let osr := s.get (SDM.CH_CFG.OSR n)
    let writes (a : Nat) : List Nat := [a, SDM.STAT.ALIGNERR.addr, (srcSDM 0).stat.addr, (srcSDM 0).live.addr, SCR.ARMCTL.BLOCK.addr]
    Yields (.sdmOutput n bits) s (fun t => SMap.get [] t.sense.sdm n = l ∧
      t.get (SDM.CH_LIVE.VALUE n) = s.sdmScale n (sinc3Sum osr l) osr % 2 ^ 32 ∧ RegsKept (writes (SDM.CH_LIVE.VALUE n).addr) s t ∧ MemKept s t) ∧
    (s.flag (SDM.CH_CFG.FASTEN n) = true → s.recordsOnly (srcSDM (8 + n)) = true →
      let v := s.sdmScale n (sinc3Sum (s.get (SDM.CH_CFG.FOSR n)) l) (s.get (SDM.CH_CFG.FOSR n))
      let out := f32lt (s.get (SDM.CH_FASTHI.HI n)) v || f32lt v (s.get (SDM.CH_FASTLO.LO n))
      Yields (.sdmFastOutput n bits) s (fun t => SMap.get [] t.sense.sdm n = l ∧ MemKept s t ∧
        t.get (SDM.CH_LIMCNT.COUNT n) = (if out then satNext 32 (s.get (SDM.CH_LIMCNT.COUNT n)) else s.get (SDM.CH_LIMCNT.COUNT n)) ∧
        t.flag (srcSDM (8 + n)).live = out ∧ RegsKept (writes (SDM.CH_LIMCNT.COUNT n).addr) s t)) ∧
    (sdmFlat l = false → Yields (.sdmStuck n bits) s (fun t => SMap.get [] t.sense.sdm n = l ∧ t.flag (srcSDM n).live = false ∧
      RegsKept [(srcSDM 0).live.addr] s t ∧ MemKept s t)) ∧
    (sdmFlat l = true → s.flag (srcSDM n).live = false → s.recordsOnly (srcSDM n) = true → Yields (.sdmStuck n bits) s (fun t =>
      SMap.get [] t.sense.sdm n = l ∧ t.sdmValue n = f32nan ∧ t.flag (srcSDM n).stat = true ∧ t.flag (srcSDM n).live = true ∧
      RegsKept [(srcSDM 0).stat.addr, (srcSDM 0).live.addr] s t ∧ MemKept s t)) ∧
    (sdmFlat l = true → n = 0 → s.flag (srcSDM 0).live = false → s.isHub = true → s.action (srcSDM 0) = 1 → s.runs bSCR = true →
      Yields (.sdmStuck 0 bits) s (fun t => t.flag SCR.ARMCTL.BLOCK = true ∧ t.sdmValue 0 = f32nan ∧ MemKept s t))) ∧
  (∀ (s : State) (w : Nat), s.sense.windowTick = some w → s.runs bENV = true → w + 2 ^ s.get ENV.LCFG.WLOG ≤ s.latestIarm → s.noReset srcENV →
    Yields .capWindowClose s (fun t => t.get ENV.CWINCNT.COUNT = satNext 32 (s.get ENV.CWINCNT.COUNT) ∧ t.get ENV.CPROG.TICKS = 0 ∧
      t.sense.windowTick = some s.latestIarm ∧ t.sense.sums = {} ∧ MemKept s t ∧
      (s.sense.sums.n < s.get ENV.NMIN.N → t.get ENV.CEST.C = s.get ENV.CEST.C ∧ t.flag ENV.CSTAT.VALID = s.flag ENV.CSTAT.VALID ∧
        (s.recordsOnly (srcENV 2) = true → t.flag (srcENV 2).stat = true)))) ∧
  (∀ (s : State) (o : Origin) (v : Nat), s.mayWrite o ENV.CCTL.RESTART.addr = true → s.runs bENV = true → v < 2 ^ 32 →
    Yields (.capRestart o v) s (fun t => t.sense.sums = {} ∧ t.sense.windowTick = none ∧ t.flag ENV.CSTAT.RUNNING = false ∧ t.get ENV.CPROG.TICKS = 0 ∧
      (v.testBit 1 = true → t.get ENV.EPEAK.E = 0) ∧
      ((∀ x, s.sense.closed = some x → x.1 ≠ s.time.cycles) →
        RegsKept ([ENV.CSTAT.RUNNING.addr, ENV.CPROG.TICKS.addr] ++ if v.testBit 1 then [ENV.EPEAK.E.addr] else []) s t) ∧
      (∀ words p, s.sense.closed = some (s.time.cycles, words, p) → (words.map (fun x => x.1)).Nodup → t.sense.published = p ∧
        ∀ x ∈ words, x.1 ∉ [ENV.CSTAT.RUNNING.addr, ENV.CPROG.TICKS.addr, ENV.EPEAK.E.addr] → t.reg x.1 = x.2) ∧ MemKept s t) ∧
    Yields (.epeakClear o v) s (fun t => t.get ENV.EPEAK.E = 0 ∧ (v.testBit 0 = false → t.sense = s.sense ∧ RegsKept [ENV.EPEAK.E.addr] s t) ∧
      (v.testBit 0 = true → t.sense.sums = {} ∧ t.sense.windowTick = none) ∧ MemKept s t))

/-! ## Safety -/

/-- Trips and the bypass (R238, R242, R243, R245): the hard comparator, the SLE trip and a DSAT event with DSATBYP trip the cell; without DSATBYP the DSAT latch
blocks it without bypass; BYP_RB shows, a closure with no pulse behind it and an opening after a closure raise their faults; the bypass is fired once more when
it has not closed, then fails; a high DSATn at a gate that is off is only counted. -/
def Obligations.TripsAndBypass : Prop :=
  (∀ s : State, s.isCell = true → s.flag SAF.STAT.TRIP = false → s.noReset srcSAF →
    Yields .hardSlvTrip s (fun t => Tripped t ∧ t.flag SAF.STAT.BYP = true ∧ t.saf.bypHigh = true ∧ t.saf.bypPulses = 1 ∧ MemKept s t) ∧
    (∀ g, g < 4 → s.getBit SAF.DSATCFG.EN g = true → s.saf.dsat.testBit g = true → s.pwm.gates.testBit g = true →
      SMap.get 0 s.saf.dsatSince g + s.get SAF.DSATCFG.FILT ≤ s.time.cycles →
      (s.flag SAF.CFG.DSATBYP = true → Yields (.dsatEvent g) s (fun t => Tripped t ∧ MemKept s t)) ∧
      (s.flag SAF.CFG.DSATBYP = false → s.saf.bypassed = false → Yields (.dsatEvent g) s (fun t => t.flag SAF.STAT.DSATLATCH = true ∧
        t.flag SAF.STAT.TRIP = false ∧ t.pwm.gates = 0 ∧ t.get SAF.STAT.ENCMD = 0 ∧ t.get PWM.STAT.STATE = 0 ∧ t.saf.bypassed = false ∧
        t.saf.bypPulses = s.saf.bypPulses ∧ MemKept s t)))) ∧
  (∀ s : State, s.runs bENV = true → s.sense.softActive = true → s.get ENV.ETRIPN.N ≤ s.sense.tripRun → 0 < s.sense.tripRun → s.flag ENV.SSTAT.TRIP = false →
    s.flag SAF.STAT.TRIP = false → s.noReset srcENVS → Yields .sleTrip s (fun t => Tripped t ∧ t.flag ENV.SSTAT.TRIP = true ∧ MemKept s t)) ∧
  (∀ (s : State) (closed : Bool), s.clk.stopped = true → Yields (.bypRbChange closed) s (fun t => t.saf.bypRb = closed ∧ RegsKept [] s t ∧ MemKept s t)) ∧
  (∀ (s : State) (closed : Bool), s.noReset srcSAF → s.clk.stopped = false → Yields (.bypRbChange closed) s (fun t => t.flag SAF.STAT.BYPCLOSED = closed ∧
    t.saf.bypRb = closed ∧ MemKept s t ∧
    (closed = true → s.saf.bypRb = false → s.flag SAF.STAT.BYP = false → s.saf.bypassed = false → t.saf.bypassed = true ∧ t.pwm.gates = 0 ∧ t.get PWM.STAT.STATE = 4 ∧
      (s.recordsOnly (srcSAF 6) = true → t.flag (srcSAF 6).stat = true)) ∧
    (closed = false → s.saf.bypassed = true → s.saf.wasClosed = true → s.recordsOnly (srcSAF 5) = true → t.flag (srcSAF 5).stat = true))) ∧
  (∀ s : State, s.runs bSAF = true → s.clk.stopped = false → s.saf.bypStart + s.get SAF.BYPCFG.BYPTIME * 200 ≤ s.time.cycles → s.saf.bypRb = false →
    (s.saf.bypPulses = 1 → s.saf.bypHigh = true → Yields .bypassClosureCheck s (fun t => t = { s with saf := { s.saf with bypAgain := true } })) ∧
    (s.saf.bypPulses = 1 → s.saf.bypHigh = false → Yields .bypassClosureCheck s (fun t => t.saf.bypHigh = true ∧ t.saf.bypPulses = 2 ∧
      RegsKept [SAF.STAT.BYP.addr] s t ∧ MemKept s t)) ∧
    (1 < s.saf.bypPulses → s.recordsOnly (srcSAF 5) = true → Yields .bypassClosureCheck s (fun t => t.flag (srcSAF 5).stat = true ∧ t.saf = s.saf ∧
      RegsKept [(srcSAF 5).stat.addr, (srcSAF 5).live.addr] s t ∧ MemKept s t))) ∧
  (∀ s : State, s.saf.bypHigh = true → (s.clk.stopped = true ∨ s.saf.bypStart + s.bypPulseMs * 160000 ≤ s.time.cycles) → Yields .bypassPulseEnd s (fun t => t.saf.bypHigh = s.saf.bypAgain ∧ t.saf.bypAgain = false ∧
    t.saf.bypPulses = s.saf.bypPulses + bit s.saf.bypAgain ∧ RegsKept [SAF.STAT.BYP.addr] s t ∧ MemKept s t)) ∧
  (∀ (s : State) (g : Nat) (high : Bool), g < 4 → Yields (.dsatRise g high) s (fun t =>
    (∀ j, t.saf.dsat.testBit j = if j = g then high else s.saf.dsat.testBit j) ∧ t.pwm = s.pwm ∧ RegsKept [SAF.DSATIDLE.COUNT.addr] s t ∧ MemKept s t ∧
    t.get SAF.DSATIDLE.COUNT = (if high && !s.saf.dsat.testBit g && !s.pwm.gates.testBit g && s.runs bSAF then
      satNext 32 (s.get SAF.DSATIDLE.COUNT) else s.get SAF.DSATIDLE.COUNT)))

/-- Watchdog, safety pair, self-test and discharge check (R244, R246, R247, R254, R255, R403): only an alternating key of the safety pair serves the watchdog; its
end enters the safe state without bypass; a mismatch resets at reach W; a failed self-test is recorded; the discharge check runs with the enables open and ends met,
failed or stopped; a write with both of its command bits leaves it idle (the model's choice, log entry 195). -/
def Obligations.SafeStateAndChecks : Prop :=
  (∀ (s : State) (o : Origin) (key : Nat), s.mayWrite o SAF.WDOG.KEY.addr = true → key < 2 ^ 32 → s.runs bSAF = true →
    Yields (.watchdogService o key) s (fun t => RegsKept [] s t ∧ MemKept s t ∧
      t.saf = (if o.agent = 5 ∧ (key = 0xA5A5 ∨ key = 0x5A5A) ∧ s.saf.wdKey ≠ some key then { s.saf with wdKey := some key, wdCycle := s.time.cycles }
        else s.saf))) ∧
  (∀ s : State, s.runs bSAF = true → s.saf.wdCycle + 1000 ≤ s.time.cycles → s.saf.bypassed = false → s.recordsOnly (srcSAF 10) = true →
    Yields .watchdogExpire s (fun t => t.flag (srcSAF 10).stat = true ∧ t.saf.safe.testBit 2 = true ∧ t.flag SAF.STAT.SAFESTATE = true ∧
      t.get SAF.STAT.ENCMD = 0 ∧ t.pwm.gates = 0 ∧ t.get PWM.STAT.STATE = 0 ∧ t.saf.bypPulses = s.saf.bypPulses ∧ t.saf.bypassed = false ∧
      MemKept s t)) ∧
  (∀ s : State, s.runs bSAF = true → s.noReset srcSAF → Yields .pairMismatch s (fun t => (t.get RST.CAUSE.CAUSE).testBit 4 = true ∧ t.pwm.gates = 0 ∧
    t.get RST.PAIRCNT.COUNT = satNext 32 (s.get RST.PAIRCNT.COUNT) ∧ (∃ x, t.rst.overlap = some x ∧ 2 ≤ x.reach) ∧ t.flash = s.flash)) ∧
  (∀ (s : State) (above below : Bool), s.runs bSAF = true → s.flag SAF.CFG.CMPTEN = true → s.inRun = true → 0x1000 ≤ s.get ADC.VCAP.CODE →
    s.get ADC.VCAP.CODE ≠ 0xFFFF → s.saf.cmpTick + 256 * s.get SAF.CMPTEST.INTERVAL ≤ s.tick → s.recordsOnly (srcSAF 8) = true →
    Yields (.comparatorSelfTest above below) s (fun t => t.saf.cmpTurn = 1 - s.saf.cmpTurn ∧ t.saf.cmpTick = s.tick ∧ MemKept s t ∧
      ((above && below) = true → t.get SAF.CMPTDONE.COUNT = satNext 32 (s.get SAF.CMPTDONE.COUNT) ∧ t.flag (srcSAF 8).live = false) ∧
      ((above && below) = false → t.flag (srcSAF 8).stat = true ∧ t.get SAF.CMPTDONE.COUNT = s.get SAF.CMPTDONE.COUNT) ∧
      RegsKept [SAF.CMPTDONE.COUNT.addr, (srcSAF 8).stat.addr, (srcSAF 8).live.addr] s t)) ∧
  (∀ (s : State) (o : Origin) (v : Nat), s.mayWrite o ENV.DISCMD.START.addr = true → s.runs bENV = true → v < 2 ^ 32 →
    (v.testBit 1 = false → Yields (.dischargeStart o v) s (fun t => MemKept s t ∧
      (if s.saf.switches = 0 ∧ s.get SAF.STAT.ENCMD = 0 then t.get ENV.DISSTAT.STATE = 1 ∧ t.get ENV.DISELAPSED.MS = 0 ∧ t.flag ENV.DISSTAT.VFAIL = false
       else t.get ENV.DISSTAT.STATE = 0) ∧ RegsKept [ENV.DISSTAT.STATE.addr, ENV.DISELAPSED.MS.addr] s t)) ∧
    (v.testBit 0 = false → Yields (.dischargeStop o v) s (fun t => t.get ENV.DISSTAT.STATE = 0 ∧ RegsKept [ENV.DISSTAT.STATE.addr] s t ∧ MemKept s t)) ∧
    (v.testBit 1 = true → Yields (.dischargeStart o v) s (fun t => t.get ENV.DISSTAT.STATE = 0 ∧
      RegsKept [ENV.DISSTAT.STATE.addr, ENV.DISELAPSED.MS.addr] s t ∧ MemKept s t)) ∧
    (v.testBit 0 = true → Yields (.dischargeStop o v) s (fun t => t.get ENV.DISSTAT.STATE = 0 ∧
      RegsKept [ENV.DISSTAT.STATE.addr, ENV.DISELAPSED.MS.addr] s t ∧ MemKept s t))) ∧
  (∀ s : State, s.runs bENV = true → s.get ENV.DISSTAT.STATE = 1 →
    let run := if f32lt (s.get ENV.ENERGY.E) (s.get ENV.ERESID.E) then s.sense.disRun + 1 else 0
    Yields .dischargeCompare s (fun t => t.sense.disRun = run ∧ MemKept s t ∧
      (run < 16 → t.get ENV.DISSTAT.STATE = 1 ∧ t.get ENV.DISELAPSED.MS = satNext 32 (s.get ENV.DISELAPSED.MS)) ∧
      (16 ≤ run → t.get ENV.DISSTAT.STATE = 2 ∧ t.get ENV.DISELAPSED.MS = satNext 32 (s.get ENV.DISELAPSED.MS) - 15) ∧
      RegsKept [ENV.DISSTAT.STATE.addr, ENV.DISELAPSED.MS.addr, (srcENVS 3).live.addr] s t) ∧
    (s.get ENV.DISTIME.MS ≤ s.get ENV.DISELAPSED.MS → s.recordsOnly (srcENVS 3) = true → Yields .dischargeTimeout s (fun t =>
      t.get ENV.DISSTAT.STATE = 3 ∧ t.flag (srcENVS 3).stat = true ∧
      RegsKept [ENV.DISSTAT.STATE.addr, (srcENVS 3).stat.addr, (srcENVS 3).live.addr] s t ∧ MemKept s t)))

/-- Enables and test pulses (R248 to R253): a used read-back open against its command raises ENOPEN and trips, one closed against it raises ENWELD; a test opens
its switch at W, closes it, and is complete when both checks pass; with no place for its window it is put off; a switch without a complete test in 65 536
ticks with tests enabled and the enables closed raises TPINC. -/
def Obligations.EnablesAndTests : Prop :=
  (∀ (s : State) (rb : Nat), s.runs bSAF = true → rb < 16 →
    ((∀ n ∈ s.usedSwitches, s.inTest n = false → rb.testBit n = s.saf.switches.testBit n) → Yields (.enableReadbackMismatch rb) s (fun t =>
      t.get SAF.STAT.RB = rb ∧ t.flag SAF.STAT.TRIP = s.flag SAF.STAT.TRIP ∧ t.pwm = s.pwm ∧
      RegsKept [SAF.STAT.RB.addr, (srcSAF 2).live.addr] s t ∧ MemKept s t)) ∧
    (s.recordsOnly (srcSAF 2) = true → s.recordsOnly (srcSAF 3) = true → Yields (.enableReadbackMismatch rb) s (fun t => t.get SAF.STAT.RB = rb ∧ MemKept s t ∧
      ((∃ n ∈ s.usedSwitches, s.inTest n = false ∧ rb.testBit n = false ∧ s.saf.switches.testBit n = true) →
        t.flag (srcSAF 3).stat = true ∧ t.flag SAF.STAT.TRIP = true ∧ (s.flag SAF.STAT.TRIP = false → Tripped t)) ∧
      ((∃ n ∈ s.usedSwitches, s.inTest n = false ∧ rb.testBit n = true ∧ s.saf.switches.testBit n = false) → t.flag (srcSAF 2).stat = true) ∧
      (s.inTest 0 = false → s.inTest 1 = false → s.saf.switches.testBit 0 = false → s.saf.switches.testBit 1 = false → rb.testBit 0 = true →
        rb.testBit 1 = true → t.flag SAF.STAT.TRIP = true)))) ∧
  (∀ s : State, s.testsRun = true →
    (s.saf.tpPhase = 3 → s.saf.tpW ≤ s.now5 → Yields .testPulseStart s (fun t => t.flag SAF.STAT.TESTING = true ∧ t.saf.tpPhase = 1 ∧
      t.saf.tpSwitch = s.testSwitch ∧ (∀ j, t.saf.switches.testBit j = (s.saf.switches.testBit j && !(j == s.testSwitch))) ∧
      RegsKept [SAF.STAT.TESTING.addr] s t ∧ MemKept s t)) ∧
    (s.saf.tpPhase = 0 → s.saf.tpDue ≤ s.tick →
      let a := s.tickAt s.offApply * s.tu + s.offApply
      (s.windowFree a (s.get SAF.TWOFF.OFF1) = true → s.now5 < a + 2 * s.get SAF.TWOFF.OFF1 → Yields .testPulseStart s (fun t =>
        t = { s with saf := { s.saf with tpPhase := 3, tpW := a + 2 * s.get SAF.TWOFF.OFF1 } })) ∧
      (s.windowFree a (s.get SAF.TWOFF.OFF1) = false → s.windowFree a (s.get SAF.TWOFF.OFF2) = false → Yields .testPulseStart s (fun t =>
        t.get SAF.TWSKIP.COUNT = satNext 32 (s.get SAF.TWSKIP.COUNT) ∧ t.saf = { s.saf with tpDue := s.tick + 1 } ∧ RegsKept [SAF.TWSKIP.COUNT.addr] s t ∧
        MemKept s t)))) ∧
  (∀ s : State, s.runs bSAF = true → s.saf.tpPhase = 1 → s.saf.tpSwitch < 4 →
    Yields (.testPulseOpenCheck true) s (fun t => t.getBit SAF.STAT.RB s.saf.tpSwitch = false ∧
      (∀ j, t.saf.welded.testBit j = (s.saf.welded.testBit j && !(j == s.saf.tpSwitch))) ∧ t.saf = { s.saf with welded := t.saf.welded } ∧
      RegsKept [SAF.STAT.RB.addr, (srcSAF 2).live.addr] s t ∧ MemKept s t) ∧
    (s.recordsOnly (srcSAF 2) = true → Yields (.testPulseOpenCheck false) s (fun t => t.flag SAF.STAT.TESTING = false ∧
      t.flag (srcSAF 2).stat = true ∧ MemKept s t)) ∧
    Yields .testPulseClose s (fun t => t.saf = { s.saf with tpPhase := 2, switches := s.saf.switches ||| 2 ^ s.saf.tpSwitch } ∧ RegsKept [] s t ∧
      MemKept s t)) ∧
  (∀ s : State, s.runs bSAF = true → s.saf.tpPhase = 2 → s.saf.tpSwitch < 4 →
    Yields (.testPulseCloseCheck true) s (fun t => t.get SAF.TPDONE.COUNT = satNext 32 (s.get SAF.TPDONE.COUNT) ∧ t.get (incrunFld s.saf.tpSwitch) = 0 ∧
      t.flag SAF.STAT.TESTING = false ∧ t.saf.tpPhase = 0 ∧ t.saf.tpSwitch = (s.saf.tpSwitch + 1) % s.usedSwitches.length ∧
      t.saf.tpDue = s.tick + s.get SAF.TPCFG.EVERY ∧ t.saf.tpTicks = s.saf.tpTicks.set s.saf.tpSwitch 0 ∧
      t.saf.tpLate.testBit s.saf.tpSwitch = false ∧ MemKept s t) ∧
    (s.recordsOnly (srcSAF 3) = true → s.flag SAF.STAT.TRIP = false → Yields (.testPulseCloseCheck false) s (fun t => Tripped t ∧ t.flag (srcSAF 3).stat = true ∧
      MemKept s t))) ∧
  (∀ (s : State) (n : Nat), s.runs bSAF = true → s.usedSwitches.contains n = true →
    65536 ≤ s.saf.tpTicks.getD n 0 → s.recordsOnly (srcSAF 4) = true → Yields (.testIncompleteTimeout n) s (fun t => t.flag (srcSAF 4).stat = true ∧
      t.saf = { s.saf with tpLate := s.saf.tpLate ||| 2 ^ n } ∧ RegsKept [(srcSAF 4).stat.addr, (srcSAF 4).live.addr] s t ∧ MemKept s t))

/-! ## Loop engines -/

/-- The loop engines (R264, R266 to R270, R275, R277, R283, R285, R286, R289): a start instant queues the context or is counted and dropped; a free engine takes the
lowest queued context, latches it and runs its blocks, or skips it on an input that is not finite; the commit stores state, slots and destinations; a deadline
abandons the run; a swap is taken only with SWAPEN; RESETST waits for the next latch; the coefficient aperture writes the inactive bank. -/
def Obligations.LoopEngines : Prop :=
  (∀ (s : State) (c : Nat), c < 128 → s.runs bLPE = true → s.inRun = true → s.tickEvents = true → s.engineEnabled (engineOf c) = true →
    s.redState ≠ rsJoining →
    let k := s.tickAt (2 * s.get (LPE.CTX_TIME.STARTOFF c))
    s.ctxDue c k = true → (s.ctx c).startTick ≠ some k →
    let idle := !s.engineHalted (engineOf c) && !s.flag (LPE.CTX_STAT.QUEUED c) && !s.flag (LPE.CTX_STAT.RUNNING c)
    (idle = true → Yields (.contextStart c) s (fun t => t.flag (LPE.CTX_STAT.QUEUED c) = true ∧ (t.ctx c).startAt = s.now5 ∧
      RegsKept [(LPE.CTX_STAT.QUEUED c).addr] s t ∧ MemKept s t)) ∧
    (idle = false → s.recordsOnly (srcLPE 0) = true → Yields (.contextStart c) s (fun t =>
      t.get (LPE.CTX_OVR.COUNT c) = satNext 32 (s.get (LPE.CTX_OVR.COUNT c)) ∧ t.flag (LPE.CTX_STAT.OVERRUN c) = true ∧ t.flag (srcLPE 0).stat = true ∧
      t.getBit (LPE.FLTCTX.MASK (c / 32)) (c % 32) = true ∧ t.flag (LPE.CTX_STAT.QUEUED c) = s.flag (LPE.CTX_STAT.QUEUED c) ∧
      RegsKept [(LPE.CTX_OVR.COUNT c).addr, (LPE.CTX_STAT.QUEUED c).addr, (LPE.FLTCTX.MASK (c / 32)).addr, (srcLPE 0).stat.addr, (srcLPE 0).live.addr] s t ∧
      MemKept s t))) ∧
  (∀ (s : State) (e c : Nat), e < 4 → s.runs bLPE = true → s.inRun = true → s.engineEnabled e = true → s.engineHalted e = false →
    s.getBit LPE.STAT.BUSY e = false → s.nextQueued e = some c → s.sys.eccEng = [] →
    let x := s.ctx c
    let m := s.set (LPE.CTX_STAT.QUEUED c) 0
    let slots := m.latched c (if x.resetPend then x.slots.filter (fun p => decide (p.1 < 16)) else x.slots)
    let bad := x.prog.routes.any (fun r => decide (1 ≤ r.1) && decide (r.1 ≤ 15) && !f32finite (SMap.get 0 slots r.1))
    (bad = true → s.noReset srcLPE → Yields (.contextRun e) s (fun t => t.flag (LPE.CTX_STAT.QUEUED c) = false ∧ t.flag (LPE.CTX_STAT.SKIPPED c) = true ∧
      t.get (LPE.CTX_SKIP.COUNT c) = satNext 32 (s.get (LPE.CTX_SKIP.COUNT c)) ∧ t.flag (LPE.CTX_STAT.NANIN c) = true ∧ t.lpe = s.lpe ∧ MemKept s t)) ∧
    (bad = false → s.flag (LPE.CTX_STAT.SWAPPEND c) = false →
      let st0 := if x.resetPend then [] else x.stateW
      let g : Eng := {
        coef := x.coef, bank := 256 * s.get (LPE.CTX_STAT.ACTBANK c), slots := slots, slots0 := slots, st := st0, st0 := st0,
        mem := s.lpe.delay, memBase := 32768 * e, fresh := x.fresh || x.resetPend }
      let g' := g.run ((x.prog.descs.map descOf).take (s.get (LPE.CTX_CFG.NBLK c)))
      Yields (.contextRun e) s (fun t => t.flag (LPE.CTX_STAT.QUEUED c) = false ∧ t.flag (LPE.CTX_STAT.RUNNING c) = true ∧ t.getBit LPE.STAT.BUSY e = true ∧
        (t.ctx c).resetPend = false ∧ (t.ctx c).stateW = (if x.resetPend then [] else x.stateW) ∧
        (t.ctx c).slots = (if x.resetPend then x.slots.filter (fun p => decide (p.1 < 16)) else x.slots) ∧
        (∃ r, t.runOf e = some r ∧ r.ctx = c ∧ r.slots = g'.slots ∧ r.stateW = g'.st ∧ r.delay = g'.delay) ∧
        RegsKept [(LPE.CTX_STAT.QUEUED c).addr, LPE.STAT.BUSY.addr] s t ∧ MemKept s t))) ∧
  (∀ (s : State) (e : Nat) (r : RunSt), e < 4 → s.runOf e = some r → r.ctx < 128 → s.commitDue e = true → s.sys.eccEng = [] → s.red.serving = false → s.noReset srcLPE →
    let c := r.ctx
    let v (d : LoopDest) : Nat := if d.slot = 0 then 0 else SMap.get 0 r.slots d.slot
    Yields (.contextCommit e) s (fun t => t.runOf e = none ∧ (t.ctx c).stateW = r.stateW ∧ (t.ctx c).slots = r.slots ∧
      t.flag (LPE.CTX_STAT.RUNNING c) = false ∧ t.getBit LPE.STAT.BUSY e = false ∧
      t.get (LPE.CTX_RUNS.COUNT c) = (s.get (LPE.CTX_RUNS.COUNT c) + 1) % 2 ^ 32 ∧ t.get (LPE.CTX_LAST.CYCLES c) = r.cycles % 65536 ∧ MemKept s t ∧
      (∀ d, (s.ctx c).prog.dests = [d] → (d.kind = 2 → t.get SCR.XIN.X = toFix16 (v d) % 2 ^ 32 ∧ t.scr.xinFresh = true) ∧ (d.kind = 3 → t.lpe.val0 = v d) ∧
        (d.kind = 4 → t.lpe.val1 = v d) ∧ (d.kind = 5 → d.target < 64 → t.get (LPE.OUT.VALUE d.target) = v d % 2 ^ 32) ∧
        (d.kind = 1 → SMap.get 0 (t.ctx d.target).mail d.slot2 = v d)))) ∧
  (∀ (s : State) (c : Nat), c < 128 → s.runs bLPE = true → s.recordsOnly (srcLPE 0) = true →
    (s.ctx c).startAt + 2 * s.get (LPE.CTX_TIME.DEADLINE c) ≤ s.now5 →
    (s.flag (LPE.CTX_STAT.QUEUED c) = true ∨ s.flag (LPE.CTX_STAT.RUNNING c) = true) → Yields (.contextDeadline c) s (fun t =>
      t.get (LPE.CTX_OVR.COUNT c) = satNext 32 (s.get (LPE.CTX_OVR.COUNT c)) ∧ t.flag (LPE.CTX_STAT.OVERRUN c) = true ∧ t.flag (srcLPE 0).stat = true ∧
      t.ctx c = s.ctx c ∧ (s.flag (LPE.CTX_STAT.QUEUED c) = true → t.flag (LPE.CTX_STAT.QUEUED c) = false) ∧
      (s.flag (LPE.CTX_STAT.QUEUED c) = false → t.flag (LPE.CTX_STAT.RUNNING c) = false ∧ t.runOf (engineOf c) = none ∧
        t.getBit LPE.STAT.BUSY (engineOf c) = false) ∧ MemKept s t)) ∧
  (∀ (s : State) (o : Origin) (c : Nat) (bulk : Bool), c < 128 → s.mayWrite o (LPE.CTX_CTL.SWAP c).addr = true → s.runs bLPE = true →
    (s.flag (LPE.CTX_CFG.SWAPEN c) = true → Yields (.swapRequest o c bulk) s (fun t => t.flag (LPE.CTX_STAT.SWAPPEND c) = true ∧
      RegsKept [(LPE.CTX_STAT.SWAPPEND c).addr] s t ∧ MemKept s t)) ∧
    (s.flag (LPE.CTX_CFG.SWAPEN c) = false → s.recordsOnly (srcLPE 4) = true → Yields (.swapRequest o c bulk) s (fun t =>
      t.flag (LPE.CTX_STAT.SWAPPEND c) = s.flag (LPE.CTX_STAT.SWAPPEND c) ∧ t.flag (LPE.CTX_STAT.BANKERR c) = true ∧ t.flag (srcLPE 4).stat = true ∧
      MemKept s t)) ∧
    Yields (.resetst o c) s (fun t => t.ctx c = { s.ctx c with resetPend := true } ∧ RegsKept [] s t ∧ MemKept s t)) ∧
  (∀ (s : State) (o : Origin) (w v : Nat), w < 256 → v < 2 ^ 32 → s.mayWrite o 0x400F8000 = true → s.runs bLPE = true → s.sys.eccEng = [] →
    let c := s.get LPE.CBSEL.CTX
    s.flag (LPE.CTX_STAT.SWAPPEND c) = false → Yields (.coefApertureWrite o w v) s (fun t =>
      SMap.get 0 (t.ctx c).coef (256 * (1 - s.get (LPE.CTX_STAT.ACTBANK c)) + w) = v ∧
      (∀ k, k ≠ 256 * (1 - s.get (LPE.CTX_STAT.ACTBANK c)) + w → SMap.get 0 (t.ctx c).coef k = SMap.get 0 (s.ctx c).coef k) ∧
      RegsKept [SYS.INJCTL.ARMED.addr] s t ∧ MemKept s t)) ∧
  (∀ (g : Eng) (d : Desc), 16 ≤ d.out →
    let writes (y : Nat) : Prop := (g.block d).slot d.out = y ∧ (g.block d).st = g.st ∧ (g.block d).arith = g.arith ∧
      ∀ i, i ≠ d.out → (g.block d).slot i = g.slot i
    let lim := lClamp (g.slot d.in0) (g.c d 0) (g.c d 1)
    let lin := lAdd (lAdd (lAdd (lAdd (g.c d 0) (lMul (g.c d 1) (g.slot d.in0))) (lMul (g.c d 2) (g.slot d.in1))) (lMul (g.c d 3) (g.slot d.in2)))
      (lMul (g.c d 4) (g.slot d.in3))
    let quo := lDiv (lMul (g.slot d.in0) (g.slot d.in1)) (g.slot d.in2)
    (d.ty = 0x05 → d.flags = 0 → f32finite lim = true → writes lim) ∧
    (d.ty = 0x0A → f32finite lin = true → writes lin) ∧
    (d.ty = 0x0A → f32finite lin = false → (g.block d).slot d.out = SMap.get 0 g.slots0 d.out ∧ (∀ i, i ≠ d.out → (g.block d).slot i = g.slot i) ∧
      (g.block d).st = g.st ∧ (g.block d).arith = true) ∧
    (d.ty = 0x0B → d.flags = 0 → f32finite quo = true → writes quo) ∧
    (d.ty = 0x01 → d.flags = 0 → g.policy = none → g.upd = [] →
      let e := lSub (g.slot d.in0) (g.slot d.in1)
      let v := lAdd (lAdd (lMul (g.c d 0) e) (g.s d 0)) (g.slot d.in3)
      let u := lClamp v (g.c d 3) (g.c d 4)
      let i' := lAdd (lAdd (g.s d 0) (lMul (g.c d 1) e)) (lMul (g.c d 2) (lSub u v))
      f32finite u = true → f32finite v = true → f32finite (g.s d 0) = true → f32finite i' = true →
      (g.run [d]).slot d.out = u ∧ (g.run [d]).s d 0 = i' ∧ (g.run [d]).arith = g.arith))

/-! ## Geode -/

/-- Records (R324, R325, R327, R331, R333, R335, R336, R342 to R345): ARM starts a record in the next free slot, or refuses a bad configuration, or stalls; a base row
is stored in its place; a software trigger begins POST; STOP completes or discards; a record is measured or tested against its mask; FREE empties the slots that
nothing holds; a released slot ends a stall. A write with several command bits acts as one after the other (the model's choice, log entry 195). -/
def Obligations.Records : Prop :=
  (∀ (s : State) (o : Origin) (v : Nat), s.mayWrite o GEO.CMD.ARM.addr = true → s.runs bGEO = true → v < 2 ^ 32 →
    let only (i : Nat) : Bool := (List.range 5).all (fun j => j == i || !v.testBit j)
    let after := if s.geo.recnum = 0 then s.nrec - 1 else s.get GEO.LASTREC.SLOT
    let heads := [GEO.STAT.STATE.addr, GEO.RECDONE_LO.DONE.addr, GEO.RECDONE_HI.DONE.addr, SYS.INJCTL.ARMED.addr]
    (only 0 = true → s.basecamp = false → s.geoState = gIdle ∨ s.geoState = gStopped →
      (s.geoConfigOk = false → s.recordsOnly (srcGEO 3) = true → Yields (.geoArm o v) s (fun t => t.geo = s.geo ∧ t.flag (srcGEO 3).stat = true ∧
        RegsKept [(srcGEO 3).stat.addr, (srcGEO 3).live.addr] s t ∧ MemKept s t)) ∧
      (s.geoConfigOk = true → s.nextSlot after = none → s.recordsOnly (srcGEO 2) = true → Yields (.geoArm o v) s (fun t => t.geoState = gStalled ∧
        t.get GEO.STALLS.COUNT = satNext 32 (s.get GEO.STALLS.COUNT) ∧ t.flag (srcGEO 2).stat = true ∧
        RegsKept [GEO.STAT.STATE.addr, GEO.STALLS.COUNT.addr, (srcGEO 2).stat.addr, (srcGEO 2).live.addr] s t ∧ MemKept s t)) ∧
      (∀ i, s.geoConfigOk = true → s.nextSlot after = some i → Yields (.geoArm o v) s (fun t => t.geoState = gPrefill ∧ t.get GEO.STAT.SLOT = i ∧
        t.slotState i = 1 ∧ leAt (t.capGet (s.slotAddr i) 4) 0 4 = 0x47454F31 ∧ (∃ r, t.geo.cur = some r ∧ r.slot = i ∧ r.recnum = s.geo.recnum) ∧
        t.get GEO.OVERWRITE.COUNT = (if 2 ≤ s.slotState i then satNext 32 (s.get GEO.OVERWRITE.COUNT) else s.get GEO.OVERWRITE.COUNT) ∧
        RegsKept (heads ++ [GEO.OVERWRITE.COUNT.addr, (srcGEO 2).live.addr] ++ (List.range 4).flatMap (fun j => [(GEO.STR_DEPTH.ROWS j).addr,
          (GEO.STR_POSTUSED.ROWS j).addr, (GEO.STR_ROWB.BYTES j).addr])) s t ∧ t.sram = s.sram ∧ t.flash = s.flash ∧
        ∀ a, (a < s.slotAddr i ∨ s.slotAddr i + 0x200 ≤ a) → memByte 0 t.cap a = memByte 0 s.cap a))) ∧
    (only 1 = true → (s.geoState = gStalled → s.geo.cur = none → Yields (.geoStop o v) s (fun t => t.geoState = gIdle ∧ t.geo = s.geo ∧
        RegsKept [GEO.STAT.STATE.addr] s t ∧ MemKept s t)) ∧
      (∀ r, s.geo.cur = some r → r.slot < s.nrec →
        (s.geoState ≠ gPost → Yields (.geoStop o v) s (fun t => t.geoState = gIdle ∧ t.geo.cur = none ∧ t.slotState r.slot = 0 ∧ RegsKept heads s t ∧
          ∀ a, a ≠ s.slotAddr r.slot + 4 → memByte 0 t.cap a = memByte 0 s.cap a)) ∧
        (s.geoState = gPost → s.flag GEO.CFG.CONT = false → s.sys.eccCap = [] → s.flag SYS.INJCTL.ARMED = false → Yields (.geoStop o v) s (fun t => t.geoState = gStopped ∧ t.geo.cur = none ∧
          t.get GEO.LASTREC.SLOT = r.slot ∧ t.get GEO.RECNUM.NUM = r.recnum % 2 ^ 32 ∧ t.get GEO.RECORDS.COUNT = satNext 32 (s.get GEO.RECORDS.COUNT) ∧
          (s.get GEO.CFG.PROC ≠ 0 → t.flag GEO.STAT.PROCBUSY = true ∧ ∃ r', r'.slot = r.slot ∧ t.geo.proc = s.geo.proc ++ [r']) ∧
          (s.get GEO.CFG.PROC = 0 → t.slotState r.slot = 2))))) ∧
    (only 2 = true → Yields (.geoTrig o v) s (fun t => t.geo.events = s.geo.events ++ [⟨8, 0, 0, s.time64⟩] ∧ RegsKept [] s t ∧ MemKept s t)) ∧
    (only 4 = true → Yields (.geoFree o v) s (fun t =>
      (∀ i, i < s.nrec → t.slotState i = (if 2 ≤ s.slotState i ∧ s.slotHeld i = false ∧ s.slotLocked i = false then 0 else s.slotState i)) ∧
      (∀ a, (∀ i, i < s.nrec → a ≠ s.slotAddr i + 4) → memByte 0 t.cap a = memByte 0 s.cap a) ∧
      RegsKept [GEO.RECDONE_LO.DONE.addr, GEO.RECDONE_HI.DONE.addr, SYS.INJCTL.ARMED.addr] s t))) ∧
  (∀ (s : State) (o : Origin) (v : Nat), s.mayWrite o GEO.CMD.ARM.addr = true → v < 2 ^ 32 →
    let each (w : Nat) (u : State) : State :=
      [State.geoArm, State.geoStop, State.geoTrig, State.geoMark, State.geoFree].zipIdx.foldl (fun x p => if w.testBit p.2 then p.1 x else x) u
    Yields (.geoArm o v) s (fun t => t = each (v ||| 1) s) ∧ Yields (.geoStop o v) s (fun t => t = each (v ||| 2) s) ∧
    Yields (.geoTrig o v) s (fun t => t = each (v ||| 4) s) ∧ Yields (.geoMark o v) s (fun t => t = each (v ||| 8) s) ∧
    Yields (.geoFree o v) s (fun t => t = each (v ||| 16) s)) ∧
  (∀ (s : State) (i : Nat), s.runs bGEO = true → s.geoState = gStalled → s.nextSlot (if s.geo.recnum = 0 then s.nrec - 1 else s.get GEO.LASTREC.SLOT) = some i →
    (s.nextSlot (s.get GEO.LASTREC.SLOT)).isSome = true → Yields .geoStallRearm s (fun t => t.geoState = gPrefill ∧ ∃ r, t.geo.cur = some r ∧ r.slot = i)) ∧
  (∀ (s : State) (vsw : Int) (half : Bool),
    let m := if s.vswConverts then s.set ADC.VSW.CODE (ofSigned 10 (vswCode vsw)) else s
    (s.geo.cur = none → Yields (.geoRowLatch vsw half) s (fun t => t = m)) ∧
    (∀ (r : GeoRec) (x : StreamSt) (n : Nat), s.geo.cur = some r → r.streams = [x] → x.index = 0 → x.dec = 1 → x.trig = none → x.first ≤ n → 0x200 ≤ x.off →
      m.latchedRow r.base (r.mm1 + 1) half = some n → s.runs bGEO = true → s.flag CLK.STAT.SAFE = false → s.geoState = gArmed →
      (∀ i, i < 8 → s.flag (GEO.TRG_CFG.EN i) = false) →
      let k := if r.base = 1 then n / m.convPerTick else if r.base = 3 then n * (r.mm1 + 1) else n
      let bs := if r.base = 0 then toLE 2 m.fastRow else rowBytes (m.rowValues r k)
      let a := s.slotAddr r.slot + x.off + x.place n * x.rowb
      Yields (.geoRowLatch vsw half) s (fun t => t.geoState = gArmed ∧ (∀ j, j < bs.length → memByte 0 t.cap (a + j) = bs.getD j 0) ∧
        (∃ r', t.geo.cur = some r' ∧ r'.slot = r.slot ∧ r'.streams = [{ x with next := n + 1 }]) ∧ RegsKept [SYS.INJCTL.ARMED.addr] m t ∧
        t.sram = s.sram ∧ t.flash = s.flash))) ∧
  (∀ (s : State) (r : GeoRec) (t : Nat), s.geo.cur = some r → s.geoState = gArmed → s.isCell = true → (s.takeEvent ⟨8, 0, 0, t⟩).geoState = gPost ∧
    ∃ r', (s.takeEvent ⟨8, 0, 0, t⟩).geo.cur = some r' ∧ r'.slot = r.slot ∧ r'.tmask = 2 ^ 8 ∧ r'.primary = 8 ∧ r'.stamp = t) ∧
  (∀ (s : State) (r : GeoRec) (rest : List GeoRec), s.geo.proc = r :: rest → r.slot < s.nrec → s.runs bGEO = true → s.geoState ≠ gStalled → s.noReset srcGEO →
    s.sys.eccCap = [] → s.flag SYS.INJCTL.ARMED = false →
    let m : State := { s.setFlag GEO.STAT.PROCBUSY (!rest.isEmpty) with geo := { s.geo with proc := rest } }
    (r.procKind = 2 → m.maskTest r = none → Yields .recordProcessingDone s (fun t => t.geo.proc = rest ∧
      t.flag GEO.STAT.PROCBUSY = !rest.isEmpty ∧ t.flag GEO.MASKRES.FAIL = false ∧ t.geoState = s.geoState ∧
      t.slotState r.slot = 2))  ∧
    (∀ (c : Nat) (x : Int), r.procKind = 2 → m.maskTest r = some (c, x) → Yields .recordProcessingDone s (fun t => t.geo.proc = rest ∧
      t.flag GEO.STAT.PROCBUSY = !rest.isEmpty ∧ t.flag GEO.MASKRES.FAIL = true ∧ t.get GEO.MASKRES.CH = c % 2 ∧
      t.get GEO.MASKROW.ROW = ofSigned 32 x % 2 ^ 32 ∧ t.flag (srcGEO 0).stat = true ∧
      (s.flag GEO.CFG.STOPFAIL = true → t.geoState = gStopped ∧ t.geo.cur = none))) ∧
    (∀ n, n < 4 → r.procKind = 1 → s.get GEO.MEASCFG.EN = 2 ^ n → Yields .recordProcessingDone s (fun t => t.geo.proc = rest ∧
      t.flag GEO.STAT.PROCBUSY = !rest.isEmpty ∧ ∀ i, i < 8 → t.get (GEO.MEAS.VALUE n i) = (m.measure r n).getD i 0 % 2 ^ 32)))

/-- Marks and uploads (R107, R339 to R341, R349, R457, R488): the first copy of a Mark is taken when its class is wanted and waits for its instant; a later copy
only counts; at its instant it triggers; MARK sends one on every lane; an upload gives the bytes and locks the slot until its end or a timeout; an
assembly asks the devices one after another. -/
def Obligations.MarksAndUploads : Prop :=
  (∀ (s : State) (n : Nat) (f : Frame), n < 16 → (s.arrive n f).1 = true → f.ftype = ftMark → f.dst = addrAll →
    let m := (s.arrive n f).2
    let id := f.field 1 0 4
    let origin := f.field 2 0 2
    let now : Int := ((m.time64 : Int) + m.govOffset64 (f.field 2 4 1 % 2)) / 64
    let d := seqDiff 32 (f.field 1 4 4) (ofSigned 32 now)
    let tat := ((now + d) * 64 - m.govOffset64 (f.field 2 4 1 % 2)).toNat
    (m.firstCopy 1 origin id 65536 = false → Yields (.markReceive n f) s (fun t => t.geo = m.geo ∧
      t.get (LNK.DUPDROP.COUNT n) = satNext 32 (m.get (LNK.DUPDROP.COUNT n)) ∧ RegsKept [(LNK.DUPDROP.COUNT n).addr] m t ∧ MemKept m t)) ∧
    (m.firstCopy 1 origin id 65536 = true → m.isCell = true → m.forwarderOnly = false → m.runs bGEO = true → origin ≠ m.address →
      (f.field 2 2 2 &&& m.get GEO.MARKCLASS.MASK) ≠ 0 → m.geoState = gPrefill ∨ m.geoState = gArmed → (m.unitsOfType 5).isEmpty = false →
      0 < d → m.time64 < tat →
      let u := (m.unitsOfType 5).headD 0
      Yields (.markReceive n f) s (fun t => t.geo.marks = m.geo.marks ++ [⟨id, origin, f.field 2 2 2, tat, m.time64⟩] ∧ t.geo.cur = m.geo.cur ∧
        t.get GEO.MARKRX.COUNT = satNext 32 (m.get GEO.MARKRX.COUNT) ∧ t.get GEO.LASTMARK.ID = id ∧ t.get GEO.LASTORIG.ORIGIN = origin ∧
        t.get (GEO.TRG_FIRES.COUNT u) = satNext 32 (m.get (GEO.TRG_FIRES.COUNT u)) ∧
        RegsKept [GEO.MARKRX.COUNT.addr, GEO.LASTMARK.ID.addr, GEO.LASTORIG.ORIGIN.addr, (GEO.TRG_FIRES.COUNT u).addr] m t ∧ MemKept m t))) ∧
  (∀ (s : State) (x : MarkSt), s.geo.marks.find? (fun m => decide (m.tat ≤ s.time64)) = some x →
    (s.geo.cur = none → Yields .markTatReached s (fun t => t.geo.marks = s.geo.marks.erase x ∧ RegsKept [] s t ∧ MemKept s t)) ∧
    (∀ r, s.geo.cur = some r → s.geoState = gArmed → s.isCell = true → Yields .markTatReached s (fun t => t.geo.marks = s.geo.marks.erase x ∧
      t.geoState = gPost ∧ ∃ r', t.geo.cur = some r' ∧ r'.slot = r.slot ∧ r'.stamp = x.tat ∧ r'.mark = some (x.ident, x.origin, x.cls) ∧
      r'.tmask = 2 ^ ((s.unitsOfType 5).headD 0)))) ∧
  (∀ (s : State) (o : Origin) (v : Nat), s.mayWrite o GEO.CMD.MARK.addr = true → s.runs bGEO = true → v < 2 ^ 32 →
    (List.range 5).all (fun j => j == 3 || !v.testBit j) = true →
    (s.isCell = true → Yields (.geoMark o v) s (fun t => RegsKept [] s t ∧ t.out = s.out ∧ MemKept s t)) ∧
    (s.isCell = false →
      let id := (s.get GEO.MARKSEQ.ID + 1) % 2 ^ 32
      let tat := (s.time64 : Int) + toSigned 32 (s.get GEO.MARKLEAD.LEAD) * 64 + s.govOffset64 s.gov
      Yields (.geoMark o v) s (fun t => t.get GEO.MARKSEQ.ID = id ∧ RegsKept (GEO.MARKSEQ.ID.addr :: laneCounts (List.range 16)) s t ∧ MemKept s t ∧
        ∀ l, (s.isHub = true ∧ (l ∈ s.rings ∨ l = 12 ∨ l = 13)) ∨ (s.isHub = false ∧ (l = 0 ∨ (2 ≤ l ∧ l < 8) ∨ (l = 8 ∧ s.get (LNK.CTRL.MODE 8) = 1))) → s.laneUp l = true →
          Sends t l (fun g => g.ftype = ftMark ∧ g.dst = addrAll ∧ leAt g.body 0 4 = id ∧ leAt g.body 4 4 = ofSigned 32 (tat / 64) ∧
            leAt g.body 8 2 = s.address ∧ leAt g.body 10 2 = s.get GEO.MARKOUT.CLASS)))) ∧
  (∀ (s m : State) (n i : Nat) (f : Frame), s.executes n f opCapup (permNeed 128) (bodyLen 12) = some (i, m) →
    let k := byteAt (txnOf n f).body 0
    let off := (txnOf n f).at 4 4
    let used := m.slotUsed k
    let len := if (txnOf n f).at 8 4 = 0xFFFFFFFF then used - off else (txnOf n f).at 8 4
    let locks := [GEO.RECLOCK_LO.LOCK.addr, GEO.RECLOCK_HI.LOCK.addr]
    (m.nrec ≤ k ∨ m.slotState k = 0 → Yields (.capup n f) s (fun t => Served m t i stDenied [] [MGT.REFUSED.COUNT.addr] noByte)) ∧
    (k < m.nrec → m.slotState k ≠ 0 → m.slotSize < off + len → m.recordsOnly (srcMGT 1) = true → Yields (.capup n f) s (fun t =>
      Served m t i stLenerr [] [MGT.REFUSED.COUNT.addr, (srcMGT 1).stat.addr, (srcMGT 1).live.addr] noByte)) ∧
    (k < m.nrec → 2 ≤ m.slotState k → off + len ≤ m.slotSize → 0 < len → len ≤ 448 → m.sys.eccCap = [] → m.geoState ≠ gStalled →
      Yields (.capup n f) s (fun t => Served m t i stOk (toLE 4 off ++ m.capGet (m.slotAddr k + off) len) locks noByte ∧
        t.slotLocked k = decide (off + len < used)))) ∧
  (∀ (s : State) (k : Nat), k < 64 →
    (s.slotLocked k = true → SMap.get 0 s.geo.upload k + 65535 ≤ s.tick → s.geoState ≠ gStalled → Yields (.reclockTimeout k) s (fun t =>
      t.slotLocked k = false ∧ (∀ j, j ≠ k → j < 64 → t.slotLocked j = s.slotLocked j) ∧
      RegsKept [GEO.RECLOCK_LO.LOCK.addr, GEO.RECLOCK_HI.LOCK.addr] s t ∧ MemKept s t)) ∧
    (s.slotLocked k = false ∨ s.tick < SMap.get 0 s.geo.upload k + 65535 → Yields (.reclockTimeout k) s (fun t => t = s))) ∧
  (∀ (s m : State) (n i : Nat) (f : Frame), s.executes n f opCapasm (permNeed 128) (bodyLen 6) = some (i, m) →
    (m.isCell = true → Yields (.capasm n f) s (fun t => Served m t i stDenied [] [MGT.REFUSED.COUNT.addr] noByte)) ∧
    (m.isCell = false → m.mgt.asm = none → m.asmDevices = [] →
      let own := m.get GEO.LASTMARK.ID == (txnOf n f).at 0 4 && m.get GEO.LASTORIG.ORIGIN == (txnOf n f).at 4 2
      Yields (.capasm n f) s (fun t => t.mgt.asm = none ∧ t.jState i = 2 ∧ byteAt (t.jReply i) 3 = stOk ∧
        (t.jReply i).drop 32 = (if own then asmRecord m.address (m.get GEO.LASTREC.SLOT) (m.get GEO.RECNUM.NUM) else []))) ∧
    (m.isCell = false → m.mgt.asm = none → m.asmDevices ≠ [] → Yields (.capasm n f) s (fun t => ∃ x, t.mgt.asm = some x ∧ x.entry = i ∧
      x.markid = (txnOf n f).at 0 4 ∧ x.origin = (txnOf n f).at 4 2 ∧ x.todo = m.asmDevices)))

/-! ## Pairs -/

/-- Pair-hello, forming and heartbeats (R356, R357, R360, R361, R362, R365, R366, R368): a pair-hello that is due is sent; one received shows the partner's epoch and
moves a FORMING member by the table; the senior names a tick at least 16 ahead (how far is open), the junior takes it; at that tick state is cleared and the pair serves; a member alone
decides by the count rule; a tick without heartbeat on one path counts, K of them on both declare the partner failed. -/
def Obligations.PairForming : Prop :=
  (∀ (s m : State) (n : Nat) (f : Frame), s.notes n f opHello .group = some m →
    let t := txnOf n f
    let tag := t.at 0 4
    let mine := m.get CNV.PAIRTAG.PAIRTAG
    let st := t.at 5 1
    let known := tag = mine ∧ tag ≠ 0
    let regs := [RED.STAT.STATE.addr, RED.EPOCH.OWN.addr, RED.JOINSTAT.CTX.addr, (srcRED 0).stat.addr, (srcRED 0).live.addr]
    m.redRuns = true → t.src = m.partner → t.body.length = 16 → t.at 4 1 % 2 ≠ m.get RST.STRAPS.PAIRSEN → m.noReset srcRED →
    (m.redState ≠ rsIsolated → Yields (.hello n f) s (fun u => u.get RED.EPOCH.PARTNER = t.at 6 2 ∧ u.get RED.EPOCH.OWN = m.get RED.EPOCH.OWN ∧
      u.flag RED.STAT.PPRIMARY = decide (st = rsPrimary) ∧ u.red.partState = st ∧ u.red.helloTick = some m.tick ∧ RegsKept regs m u ∧ MemKept m u ∧
      (m.redState = rsForming → ¬ known → u.redState = rsTagmis ∧ u.flag (srcRED 5).stat = true) ∧
      (m.redState = rsForming → known → st = rsPrimary ∨ st = rsStandby → u.redState = rsJoining ∧ u.red.joinAsked = m.flag RED.CFG.AUTOJOIN ∧
        u.get RED.JOINSTAT.TRIES = 0 ∧ u.red.admitted = []) ∧
      (m.redState = rsForming → known → st = rsForming → m.senior = true → m.red.formTick = none → u.redState = rsForming ∧
        ∃ k, u.red.formTick = some k ∧ m.tick + 16 ≤ k) ∧
      (m.redState = rsForming → known → st = rsForming → m.senior = false → m.red.formTick = none → t.at 10 2 ≠ 0xFFFF → u.redState = rsForming ∧
        u.red.formTick = some (namedTick m.tick (t.at 10 2))) ∧
      (m.redState = rsTagmis → known → u.redState = rsForming ∧ u.red.formTick = none) ∧
      (m.serves = true → u.redState = m.redState) ∧
      (m.redState = rsPrimary → st = rsJoining → u.red.serving = true))) ∧
    (m.redState = rsIsolated → m.red.partFailed = false → m.flag RED.STAT.PSERVE = true → Yields (.hello n f) s (fun u => u.redState = rsJoining ∧
      u.red.joinAsked = m.flag RED.CFG.AUTOJOIN))) ∧
  (∀ s : State, s.helloDue = false → Yields .pairHelloSend s (fun t => t = s)) ∧
  (∀ s : State, s.redRuns = true → s.helloDue = true → Yields .pairHelloSend s (fun t => t.red.helloSent = some (s.tick, s.redState) ∧ RegsKept (laneCounts (List.range 16)) s t ∧ MemKept s t ∧
    ∀ l, (s.laneUp s.crossLane = true ∧ l = s.crossLane) ∨ (s.laneUp s.crossLane = false ∧ s.isHub = true ∧ (l ∈ s.rings ∨ l = 12 ∨ l = 13)) ∨
        (s.laneUp s.crossLane = false ∧ s.isHub = false ∧ 2 ≤ l ∧ l < 8) → s.laneUp l = true →
      Sends t l (fun g => g.ftype = ftMgmt ∧ g.dst = s.partner ∧ byteAt g.body 8 = opHello ∧ sliceB g.body 40 16 = s.helloBody))) ∧
  (∀ (s : State) (k : Nat), s.red.formTick = some k → s.redRuns = true → s.redState = rsForming → k ≤ s.tick → s.isHub = true →
    s.noReset srcRED → s.log.queue.length < 12 → Yields .pairForm s (fun t => t.red.formTick = none ∧ t.scr.held = [] ∧ t.scr.shares = (0, []) ∧ t.get SCR.XIN.X = 0 ∧
      t.get SCR.XSHARE.DELTA = 0 ∧ t.lpe.val0 = 0 ∧ (s.senior = true → t.redState = rsPrimary ∧ t.get RED.EPOCH.OWN = 2) ∧
      (s.senior = false → t.redState = rsStandby ∧ t.get RED.EPOCH.OWN = 1) ∧ (s.inRun = true → t.flag SCR.ARMCTL.BLOCK = true) ∧
      (s.inRun = false → t.flag SCR.ARMCTL.BLOCK = s.flag SCR.ARMCTL.BLOCK ∧ MemKept s t) ∧
      ∀ p ∈ s.cnv.progs, s.runs bLPE = true → (t.ctx p.ctx).resetPend = true)) ∧
  (∀ s : State, s.redRuns = true → s.redState = rsForming → s.isHub = true → s.noReset srcRED →
    max (s.red.helloTick.getD s.red.formingSince) s.red.formingSince + 256 * s.get RED.CFG.FORMWAIT ≤ s.tick →
    let wins := s.get RED.SEENTOT.T < 2 * s.get RED.SEEN.OWN ∨ (s.get RED.SEENTOT.T = 2 * s.get RED.SEEN.OWN ∧ s.senior = true)
    Yields .formWaitExpire s (fun t => t.get RED.EPOCH.PARTNER = 1 ∧
      (wins → t.redState = rsPrimary ∧ t.get RED.EPOCH.OWN = 2 ∧ t.get RED.TAKEOVERS.COUNT = satNext 32 (s.get RED.TAKEOVERS.COUNT)) ∧
      (¬ wins → t.redState = rsIsolated ∧ t.get RED.EPOCH.OWN = 0 ∧ t.get RED.TAKEOVERS.COUNT = s.get RED.TAKEOVERS.COUNT ∧ t.flag (srcRED 7).stat = true ∧
        MemKept s t))) ∧
  (∀ s : State, s.redRuns = true → s.tickEvents = true → s.isHub = true → s.noReset srcRED →
    let k := s.tickAt s.offO - 1
    let x := s.red.xTicks.contains k
    let p := s.red.pTicks.contains k
    let misses := satNext 8 (s.get RED.STAT.HBMISS)
    let m := s.countSeen
    Yields .heartbeatDeadline s (fun t => t.flag RED.STAT.XHB = x ∧ t.flag RED.STAT.PHB = p ∧ t.get RED.SEEN.OWN = m.get RED.SEEN.OWN ∧
      t.red.ringSeen = [] ∧ t.red.addrs = [] ∧ t.get RED.STAT.HBMISS = (if x || p then 0 else misses) ∧
      t.get RED.XMISS.COUNT = (if !x && p then satNext 32 (s.get RED.XMISS.COUNT) else s.get RED.XMISS.COUNT) ∧
      t.get RED.PMISS.COUNT = (if x && !p then satNext 32 (s.get RED.PMISS.COUNT) else s.get RED.PMISS.COUNT) ∧
      ((x || p) = true ∨ misses < s.get RED.CFG.K ∨ s.red.partFailed = true → t.redState = s.redState ∧ t.red.partFailed = s.red.partFailed ∧ MemKept s t) ∧
      ((x || p) = false → s.get RED.CFG.K ≤ misses → s.red.partFailed = false → s.serves = true → t.red.partFailed = true ∧ t.flag RED.STAT.PSERVE = false ∧
        (m.wins = false → t.redState = rsIsolated ∧ t.get RED.EPOCH.OWN = s.get RED.EPOCH.OWN) ∧
        (m.wins = true → t.redState = rsPrimary ∧ (s.redState = rsStandby →
          t.get RED.TAKEOVERS.COUNT = satNext 32 (s.get RED.TAKEOVERS.COUNT) ∧ (s.get RED.EPOCH.OWN < 0xFFFF → s.get RED.EPOCH.PARTNER < 0xFFFF →
            t.get RED.EPOCH.OWN = max (s.get RED.EPOCH.OWN) (s.get RED.EPOCH.PARTNER) + 1)))) ∧
      ((x || p) = false → s.get RED.CFG.K ≤ misses → s.red.partFailed = false → s.redState = rsJoining → t.redState = rsIsolated))) ∧
  (∀ (s : State) (n k : Nat) (f : Frame) (c : Instr), n < 16 →
    (c = .ringOrderArrive n f ∧ s.isRingLane n = true) ∨ (c = .trunkOrderArrive n f ∧ s.isCentral = true ∧ s.isTrunkLane n = true) →
    let m := (s.rxFrame n f).2
    (s.rxFrame n f).1 = true → f.ftype = ftOrder → f.field 1 0 2 = m.partner → m.redRuns = true → m.expectedTick f.seq = some k →
    m.redState ≠ rsIsolated →
    let act := (f.field 1 4 1).testBit 1
    let own := m.get RED.EPOCH.OWN
    let epoch := f.field 1 2 2
    Yields c s (fun t => t.red.pTicks.contains k = true ∧ t.flag RED.STAT.PSERVE = act ∧ t.get RED.EPOCH.PARTNER = epoch ∧ t.red.partFailed = false ∧
      t.get RED.EPOCH.OWN = own ∧ t.redState = (if m.redState = rsPrimary ∧ act = true ∧ (own < epoch ∨ (own = epoch ∧ m.senior = false)) then rsStandby
        else m.redState) ∧
      RegsKept [RED.STAT.STATE.addr, RED.EPOCH.OWN.addr, (srcRED 0).live.addr] m t ∧ MemKept m t))

/-- Yield, join and state transfer (R357, R369, R374 to R376, R471, R481): a yield is armed only by a primary with a serving partner and at least 16 ticks
ahead, and takes effect at its tick unless digests differ; JOIN restarts the transfer; the joiner stores banks, state and slots as they come; four failed
attempts end it; a journal query gives the stored reply. -/
def Obligations.YieldAndTransfer : Prop :=
  (∀ (s : State) (o : Origin) (v : Nat), s.mayWrite o RED.YIELD.SEQ.addr = true → v < 2 ^ 16 →
    (s.redState = rsPrimary → s.flag RED.STAT.PSERVE = true → s.tick + 16 ≤ namedTick s.tick v → Yields (.redYieldArm o v) s (fun t =>
      t.flag RED.YIELD.ARMED = true ∧ t.get RED.YIELD.SEQ = v ∧ t.red.yieldTick = namedTick s.tick v ∧ RegsKept [RED.YIELD.SEQ.addr] s t ∧ MemKept s t)) ∧
    (s.redState ≠ rsPrimary ∨ s.flag RED.STAT.PSERVE = false ∨ namedTick s.tick v < s.tick + 16 → Yields (.redYieldArm o v) s (fun t =>
      t.flag RED.YIELD.LATE = true ∧ t.flag RED.YIELD.ARMED = s.flag RED.YIELD.ARMED ∧ t.red = s.red ∧ RegsKept [RED.YIELD.SEQ.addr] s t ∧ MemKept s t))) ∧
  (∀ s : State, s.redRuns = true →
    (s.redState = rsPrimary → s.flag RED.YIELD.ARMED = true → s.red.yieldTick ≤ s.tickAt s.offO → Yields .yieldTakeEffect s (fun t =>
      t.flag RED.YIELD.ARMED = false ∧ MemKept s t ∧
      (s.get RED.STAT.DIGCNT = 0 → t.redState = rsStandby ∧ t.get RED.YIELDS.COUNT = satNext 32 (s.get RED.YIELDS.COUNT)) ∧
      (0 < s.get RED.STAT.DIGCNT → t.redState = rsPrimary ∧ t.flag RED.YIELD.LATE = true ∧ t.get RED.YIELDS.COUNT = s.get RED.YIELDS.COUNT))) ∧
    (∀ j, s.redState = rsStandby → s.red.partYield = some j → j ≤ s.tickAt s.offO → s.isHub = true → s.noReset srcRED → Yields .yieldTakeEffect s (fun t =>
      t.red.partYield = none ∧ MemKept s t ∧
      (s.get RED.STAT.DIGCNT = 0 → t.redState = rsPrimary ∧ t.get RED.YIELDS.COUNT = satNext 32 (s.get RED.YIELDS.COUNT) ∧
        t.get RED.TAKEOVERS.COUNT = satNext 32 (s.get RED.TAKEOVERS.COUNT)) ∧
      (0 < s.get RED.STAT.DIGCNT → t.redState = rsStandby ∧ t.flag RED.YIELD.LATE = true)))) ∧
  (∀ (s : State) (o : Origin) (v : Nat), s.mayWrite o RED.CMD.JOIN.addr = true → v < 2 ^ 32 →
    let held (b : Bool) : Bool := if s.isCentral && b then false else s.red.withheld
    let joins (t : State) : Prop := t.red.joinAsked = true ∧ t.red.admitted = [] ∧ t.red.items = [] ∧ t.get RED.JOINSTAT.TRIES = 0 ∧
      t.flag RED.JOINSTAT.SCRDONE = false ∧ t.flag RED.JOINSTAT.COMPARE = false
    Yields (.redJoin o v) s (fun t => RegsKept [RED.JOINSTAT.CTX.addr] s t ∧ MemKept s t ∧ t.redState = s.redState ∧ t.red.withheld = held (v.testBit 1) ∧
      (s.redState = rsJoining → joins t) ∧ (s.redState ≠ rsJoining → t.red = { s.red with withheld := held (v.testBit 1) } ∧ RegsKept [] s t)) ∧
    Yields (.redRelease o v) s (fun t => RegsKept [RED.JOINSTAT.CTX.addr] s t ∧ MemKept s t ∧ t.redState = s.redState ∧ t.red.withheld = held true ∧
      (s.redState = rsJoining → v.testBit 0 = true → joins t) ∧
      (s.redState ≠ rsJoining ∨ v.testBit 0 = false → t.red = { s.red with withheld := held true } ∧ RegsKept [] s t))) ∧
  (∀ (s m : State) (n : Nat) (f : Frame) (item : XferItem), s.notes n f opXfer .group = some m → m.redRuns = true → (txnOf n f).src = m.partner →
    (m.redState ≠ rsJoining → Yields (.xfer n f item) s (fun u => u = m)) ∧
    (m.redState = rsJoining → m.red.joinAsked = true → m.flag RED.JOINSTAT.SCRDONE = false → Yields (.xfer n f item) s (fun u => MemKept m u ∧
      (∀ c coef act swap, item = .banks c coef act swap → (u.ctx c).coef = coef.foldl (fun b p => SMap.set 0 b p.1 p.2) [] ∧ (u.ctx c).startTick = none ∧
        u.get (LPE.CTX_STAT.ACTBANK c) = act % 2 ∧ u.flag (LPE.CTX_STAT.SWAPPEND c) = swap ∧ SMap.get false u.red.admitted c = false) ∧
      (∀ c st slots, item = .commit c st slots → (m.ctx c).startTick = none → (u.ctx c).stateW = st.foldl (fun b p => SMap.set 0 b p.1 p.2) [] ∧
        (u.ctx c).slots = slots.foldl (fun b p => SMap.set 0 b p.1 p.2) [] ∧ (u.ctx c).fresh = false ∧ SMap.get false u.red.admitted c = true) ∧
      (∀ c st slots, item = .commit c st slots → (m.ctx c).startTick ≠ none → u = m) ∧
      (∀ c a v, item = .delay c [(a, v)] → SMap.get 0 u.lpe.delay (32768 * engineOf c + a % 32768) = v ∧ u.regs = m.regs) ∧
      (∀ k run hostin, item = .refs k run hostin → u.red.items = item :: m.red.items ∧ u.red.itemTick = some k ∧ u.regs = m.regs)))) ∧
  (∀ (s : State) (c : Nat), s.redState = rsJoining → s.red.joinAsked = true → SMap.get false s.red.admitted c = false → 1024 ≤ SMap.get 0 s.red.tries c →
    s.recordsOnly (srcRED 4) = true → Yields (.transferAdmissionTimeout c) s (fun t =>
      let tries := satNext 3 (s.get RED.JOINSTAT.TRIES)
      t.get RED.JOINSTAT.TRIES = tries ∧ t.red.admitted = [] ∧ t.red.tries = [] ∧ t.red.items = [] ∧ t.red.joinAsked = decide (tries < 4) ∧
      (4 ≤ tries → t.flag (srcRED 4).stat = true) ∧ t.redState = rsJoining ∧
      RegsKept [RED.JOINSTAT.CTX.addr, (srcRED 4).stat.addr, (srcRED 4).live.addr] s t ∧ MemKept s t)) ∧
  (∀ (s m : State) (n i : Nat) (f : Frame), s.executes n f opJquery groupNeed (bodyLen 8) = some (i, m) →
    let t := txnOf n f
    let found := m.jLook (t.at 0 2) (byteAt t.body 2) (t.at 4 4)
    (found = none → Yields (.jquery n f) s (fun u => Served m u i stNotfound [] [] noByte)) ∧
    (∀ j, found = some j → 0 < (m.jReply j).length → (m.jReply j).length ≤ 456 → Yields (.jquery n f) s (fun u => Served m u i stOk (m.jReply j) [] noByte)))

/-! ## Security -/

/-- Fuses, keys, quotes and entropy (R443, R445, R451, R456, R458, R460, R466): GO programs in Idle with VFUSE in band and with permission, else it is refused; both
cases are logged; blown bits join both copies; a key is installed when its hash is that of the canvas, else counted; a quote is made once at a time and
carries the device's record; a failed entropy test ends every attempt. -/
def Obligations.FusesAndKeys : Prop :=
  (∀ (s : State) (o : Origin) (v : Nat) (vfuse : Bool), s.mayWrite o FUSE.PROGCMD.GO.addr = true → v < 2 ^ 32 → s.log.queue.length < queuePlaces o →
    let w := s.get FUSE.PROGADDR.WORD
    let mask := s.get FUSE.PROGDATA.MASK
    let allowed : Prop := s.power = 1 ∧ vfuse = true ∧ (w < 0x30 ∨ 0x47 < w) ∧ s.lastKeyGone w mask = false ∧ s.mayFuse o = true ∧ s.fuse.job = none
    Yields (.fuseProgram o v vfuse) s (fun t => t.flag FUSE.PROGCMD.VFUSEOK = vfuse ∧ t.fuse.first = s.fuse.first ∧ t.fuse.second = s.fuse.second ∧
      (∃ e, t.log.queue = s.log.queue ++ [e] ∧ byteAt e 0 = 0x03) ∧ RegsKept [FUSE.PROGCMD.GO.addr, LOG.STAT.QUEUE.addr] s t ∧ MemKept s t ∧
      (allowed → t.fuse.job = some (w, BitVec.ofNat 32 mask) ∧ t.flag FUSE.PROGCMD.BUSY = true) ∧
      (¬ allowed → t.fuse.job = s.fuse.job ∧ t.flag FUSE.PROGCMD.BUSY = s.flag FUSE.PROGCMD.BUSY ∧ t.flag FUSE.PROGCMD.DENIED = true))) ∧
  (∀ (s : State) (w : Nat) (mask a b : Word), s.fuse.job = some (w, mask) → s.recordsOnly (srcFUSE 1) = true →
    let x := SMap.get 0 s.fuse.first w ||| (mask &&& a)
    let y := SMap.get 0 s.fuse.second w ||| (mask &&& b)
    Yields (.fuseProgramDone a b) s (fun t => t.fuse.job = none ∧ SMap.get 0 t.fuse.first w = x ∧ SMap.get 0 t.fuse.second w = y ∧
      (∀ j, j ≠ w → SMap.get 0 t.fuse.first j = SMap.get 0 s.fuse.first j ∧ SMap.get 0 t.fuse.second j = SMap.get 0 s.fuse.second j) ∧
      t.flag FUSE.PROGCMD.BUSY = false ∧ t.flag FUSE.PROGCMD.DONE = true ∧ t.get FUSE.PROGCNT.COUNT = satNext 32 (s.get FUSE.PROGCNT.COUNT) ∧
      t.flag (srcFUSE 1).live = !(decide (x &&& mask = mask) && decide (y &&& mask = mask)) ∧
      RegsKept [FUSE.PROGCMD.GO.addr, FUSE.PROGCNT.COUNT.addr, (srcFUSE 1).stat.addr, (srcFUSE 1).live.addr] s t ∧ MemKept s t)) ∧
  (∀ (s m : State) (n i : Nat) (f : Frame), s.executes n f opKeyinst (permNeed 64) (bodyLen 33) = some (i, m) → m.log.queue.length < 11 →
    let t := txnOf n f
    let which := byteAt t.body 0
    let key := xorBytes (sliceB t.body 1 32) (hmac256 (m.sessKey t.sess) ([0x04] ++ toLE 4 t.ctr))
    let good := which ≤ 1 ∧ t.inSession = true ∧ sha256 key = (if which = 0 then m.rstHash else m.grpHash)
    (good → Yields (.keyinst n f) s (fun u => Served m u i stOk [] [SEC.STAT.RSTKEY.addr, LOG.STAT.QUEUE.addr] noByte ∧
      (which = 0 → u.sec.rstKey = some key ∧ u.flag SEC.STAT.RSTKEY = true ∧ u.sec.grpKey = m.sec.grpKey) ∧
      (which = 1 → u.sec.grpKey = some key ∧ u.flag SEC.STAT.GRPKEY = true ∧ u.sec.rstKey = m.sec.rstKey) ∧
      u.log.queue.length = m.log.queue.length + 2)) ∧
    (¬ good → Yields (.keyinst n f) s (fun u => Served m u i stDenied [] [SEC.KEYREJ.COUNT.addr, MGT.REFUSED.COUNT.addr] noByte ∧
      u.get SEC.KEYREJ.COUNT = satNext 32 (m.get SEC.KEYREJ.COUNT) ∧ u.sec.rstKey = m.sec.rstKey ∧ u.sec.grpKey = m.sec.grpKey))) ∧
  (∀ (s m : State) (n i : Nat) (f : Frame), s.executes n f opAttest freeNeed (bodyLen 32) = some (i, m) →
    let busy := m.sec.quote.isSome || m.sec.rngBad || (m.sec.quoteTick.map (fun k => decide (m.tick < k + 1024))).getD false
    (busy = true → m.recordsOnly (srcMGT 0) = true → Yields (.attest n f) s (fun u =>
      Served m u i stBusy [] [MGT.REFUSED.COUNT.addr, (srcMGT 0).stat.addr, (srcMGT 0).live.addr] noByte)) ∧
    (busy = false → Yields (.attest n f) s (fun u => u.sec.quoteTick = some m.tick ∧ u.jState i = 1 ∧ RegsKept [MGT.STAT.CTXFREE.addr] m u ∧ MemKept m u ∧
      ∃ q, u.sec.quote = some q ∧ q.entry = i ∧ q.nonce = (txnOf n f).body ∧ q.src = (txnOf n f).src))) ∧
  (∀ (s : State) (q : QuoteSt), s.sec.quote = some q → q.entry < 256 → s.log.queue.length < 12 → Yields .quoteDone s (fun t => t.sec.quote = none ∧
    t.jState q.entry = 2 ∧ byteAt (t.jReply q.entry) 3 = stOk ∧ (∃ k, (t.jReply q.entry).drop 32 = s.quoteBytes q.nonce ++
      (ecdsaSign s.idKey k (s.quoteBytes q.nonce)).1 ++ (ecdsaSign s.idKey k (s.quoteBytes q.nonce)).2) ∧
    (∃ e, t.log.queue = s.log.queue ++ [e] ∧ byteAt e 0 = 0x0B))) ∧
  (∀ s : State, s.recordsOnly (srcSEC 4) = true → s.recordsOnly (srcSEC 2) = true → s.sec.shakes.length + s.log.queue.length ≤ 12 →
    Yields .rngHealthFail s (fun t => t.flag SEC.STAT.RNGOK = false ∧ t.sec.rngBad = true ∧ t.flag (srcSEC 4).stat = true ∧ t.sec.shakes = [] ∧ MemKept s t ∧
      (s.sec.shakes = [] → RegsKept [SEC.STAT.RNGOK.addr, (srcSEC 4).stat.addr, (srcSEC 4).live.addr] s t) ∧
      (∀ h, s.sec.shakes = [h] → t.get SEC.SESSFAILS.COUNT = satNext 32 (s.get SEC.SESSFAILS.COUNT))))

/-- Sessions (R68, R452, R453, R455, R456, R481): without a canvas OPEN is denied; OPEN by a known operator key makes an attempt of its own session number; CONFIRM with the operator's signature opens the
session; every refusal counts and is logged, the eighth within 65 536 ticks starts the backoff; attempts and sessions end after their times; CLOSE ends a
session. -/
def Obligations.Sessions : Prop :=
  (∀ (s : State) (n : Nat) (f : Frame),
    let m := (s.mgmtArrive n f).2
    let t := txnOf n f
    (s.mgmtArrive n f).1 = true → t.op = opSopen → t.reply = false → t.broadcast = false → m.servesMgmt t = true → m.tagGood t = true →
    m.jFind t 0 = none → m.ctrFresh t = true → 32 + t.blen = t.pay.length → 145 ≤ t.body.length → m.active = false → m.recordsOnly (srcMGT 2) = true →
    Yields (.sopen n f) s (fun u => u.get MGT.REFUSED.COUNT = satNext 32 (m.get MGT.REFUSED.COUNT) ∧ u.flag (srcMGT 2).stat = true ∧
      u.get MGT.RXREQ.COUNT = m.get MGT.RXREQ.COUNT ∧ u.sec.shakes = m.sec.shakes)) ∧
  (∀ (s m : State) (n i : Nat) (f : Frame), s.executes n f opSopen freeNeed (bodyLen 145) = some (i, m) →
    let t := txnOf n f
    let opidx := byteAt t.body 144
    let fits := opidx < 4 ∧ sha256 (sliceB t.body 64 64) = (m.opKey opidx).1 ∧ (m.opKey opidx).2 ≠ 0 ∧ (pubPoint (sliceB t.body 0 64)).isSome = true
    (m.active = true → (m.sec.rngBad = true ∨ m.sec.backoff.isSome = true) → Yields (.sopen n f) s (fun u =>
      Served m u i stDenied [] [MGT.REFUSED.COUNT.addr] noByte ∧ u.sec.shakes = m.sec.shakes)) ∧
    (m.active = true → m.sec.rngBad = false → m.sec.backoff = none → ¬ fits → m.recordsOnly (srcSEC 2) = true → m.log.queue.length < 12 →
      Yields (.sopen n f) s (fun u => Served m u i stDenied [] [MGT.REFUSED.COUNT.addr, SEC.SESSFAILS.COUNT.addr, SEC.STAT.BACKOFF.addr, (srcSEC 2).stat.addr,
        (srcSEC 2).live.addr, LOG.STAT.QUEUE.addr] noByte ∧ u.get SEC.SESSFAILS.COUNT = satNext 32 (m.get SEC.SESSFAILS.COUNT) ∧ u.sec.shakes = m.sec.shakes ∧
        u.log.queue.length = m.log.queue.length + 1)) ∧
    (∀ k, m.active = true → m.sec.rngBad = false → m.sec.backoff = none → fits → m.freeSess = some k → Yields (.sopen n f) s (fun u =>
      (∃ body, body.length = 145 ∧ byteAt body 80 = k ∧ Served m u i stOk body [] noByte) ∧
      ∃ h, u.sec.shakes = m.sec.shakes ++ [h] ∧ h.sess = k ∧ h.src = t.src ∧ h.opidx = opidx ∧ h.qo = sliceB t.body 64 64 ∧ h.tick = m.tick))) ∧
  (∀ (s m : State) (n i : Nat) (f : Frame), s.executes n f opSconf freeNeed (bodyLen 64) = some (i, m) → m.active = true → m.log.queue.length < 12 →
    let t := txnOf n f
    let fails := [MGT.REFUSED.COUNT.addr, SEC.SESSFAILS.COUNT.addr, SEC.STAT.BACKOFF.addr, (srcSEC 2).stat.addr, (srcSEC 2).live.addr, LOG.STAT.QUEUE.addr]
    (m.shakeOf t = none → m.recordsOnly (srcSEC 2) = true → Yields (.sconf n f) s (fun u => Served m u i stDenied [] fails noByte ∧
      u.get SEC.SESSFAILS.COUNT = satNext 32 (m.get SEC.SESSFAILS.COUNT))) ∧
    (∀ h, m.shakeOf t = some h → h.sess < 8 → t.inSession = false →
      let msg := [0x02] ++ m.serial ++ h.qd ++ h.qh ++ h.nd ++ h.nh ++ toLE 2 m.address
      let good := ecdsaVerify h.qo msg (sliceB t.body 0 32) (sliceB t.body 32 32) && decide (m.tick ≤ h.tick + 2 ^ 18)
      (good = false → m.recordsOnly (srcSEC 2) = true → Yields (.sconf n f) s (fun u => Served m u i stDenied [] fails noByte ∧
        u.sec.shakes = m.sec.shakes.filter (fun x => x.sess != h.sess) ∧ u.get SEC.SESSFAILS.COUNT = satNext 32 (m.get SEC.SESSFAILS.COUNT))) ∧
      (∀ x, good = true → ecdh h.priv h.qh = some x → Yields (.sconf n f) s (fun u =>
        Served m u i stOk [] [(SEC.SESS_STAT.OPEN h.sess).addr, (SEC.SESS_CTRIN.CTR h.sess).addr, SEC.STAT.OPEN.addr, (srcSEC 2).live.addr,
          LOG.STAT.QUEUE.addr] noByte ∧ u.sessOpen h.sess = true ∧ u.get (SEC.SESS_STAT.OPIDX h.sess) = h.opidx % 4 ∧
        u.get (SEC.SESS_STAT.PERM h.sess) = (m.opKey h.opidx).2 % 256 ∧ u.get (SEC.SESS_CTRIN.CTR h.sess) = 0 ∧ u.get (SEC.SESS_CTROUT.CTR h.sess) = 0 ∧
        u.sessKey h.sess = hmac256 x ([0x03] ++ h.nh ++ h.nd ++ toLE 1 h.sess) ∧ u.sec.shakes = m.sec.shakes.filter (fun y => y.sess != h.sess))))) ∧
  (∀ (s : State) (n : Nat) (h : ShakeSt), s.sec.shakes.find? (fun x => x.sess == n) = some h →
    (s.tick ≤ h.tick + 2 ^ 18 → Yields (.handshakeTimeout n) s (fun t => t = s)) ∧
    (h.tick + 2 ^ 18 < s.tick → s.recordsOnly (srcSEC 2) = true → s.log.queue.length < 12 → Yields (.handshakeTimeout n) s (fun t =>
      t.sec.shakes = s.sec.shakes.filter (fun x => x.sess != n) ∧ t.get SEC.SESSFAILS.COUNT = satNext 32 (s.get SEC.SESSFAILS.COUNT) ∧
      t.flag (srcSEC 2).stat = true ∧ MemKept s t ∧
      (7 ≤ (s.sec.fails.filter (fun k => decide (s.tick < k + 65536))).length → t.flag SEC.STAT.BACKOFF = true ∧ t.sec.backoff = some s.tick) ∧
      ((s.sec.fails.filter (fun k => decide (s.tick < k + 65536))).length < 7 → t.flag SEC.STAT.BACKOFF = s.flag SEC.STAT.BACKOFF ∧
        t.sec.backoff = s.sec.backoff)))) ∧
  (∀ (s : State) (k : Nat), s.sec.backoff = some k →
    (s.tick < k + 2 ^ 20 → Yields .backoffExpire s (fun t => t = s)) ∧
    (k + 2 ^ 20 ≤ s.tick → Yields .backoffExpire s (fun t => t.sec.backoff = none ∧ t.flag SEC.STAT.BACKOFF = false ∧ RegsKept [SEC.STAT.BACKOFF.addr] s t ∧
      MemKept s t))) ∧
  (∀ (s : State) (n : Nat) (x : SessSt), SMap.get none s.sec.sess n = some x → s.sessOpen n = true → x.last + s.sessIdle ≤ s.tick → s.log.queue.length < 12 →
    Yields (.sessionIdleTimeout n) s (fun t => t.sessOpen n = false ∧ SMap.get none t.sec.sess n = none ∧
      (∀ j, j < 8 → j ≠ n → t.sessOpen j = s.sessOpen j) ∧ (∀ i, i < 256 → s.jState i = 2 → s.jGet i 8 1 = n → t.jState i = 3) ∧
      RegsKept [(SEC.SESS_STAT.OPEN n).addr, SEC.STAT.OPEN.addr, MGT.STAT.JFREE.addr, LOG.STAT.QUEUE.addr, SYS.INJCTL.ARMED.addr] s t ∧
      (∀ a, inJournal a = false → memByte 0 t.sram a = memByte 0 s.sram a))) ∧
  (∀ (s m : State) (n i : Nat) (f : Frame), s.executes n f opSclose (permNeed 0) (bodyLen 1) = some (i, m) →
    let k := byteAt (txnOf n f).body 0
    (m.sessOpen k = false → Yields (.sclose n f) s (fun u => Served m u i stDenied [] [MGT.REFUSED.COUNT.addr] noByte)) ∧
    (m.sessOpen k = true → m.log.queue.length < 12 → Yields (.sclose n f) s (fun u => u.sessOpen k = false ∧ SMap.get none u.sec.sess k = none ∧
      byteAt (u.jReply i) 3 = stOk ∧ (∀ j, j < 8 → j ≠ k → u.sessOpen j = m.sessOpen j))))

/-! ## Transactions, log, relaying, service calls -/

/-- Remote accesses (R21, R22, R26, R27, R115, R457, R471 to R473, R481, R482, R524): a discovery from a hub places the cell by its lane, its ring and the hops behind
it, leaves it unjoined when it comes from member A on L1 or after 64 devices, and is answered with the device's data (for how long a position from one end
stands against the other, and that a ring or count that cannot be right moves nothing, is the model's choice, assumption 136); a read and a write answer what their bus accesses give; HOSTIN of a hub takes no direct write; a timed write is armed for a tick
at least 16 ahead, and takes effect then; an unlisted operation is BADOP; ECHOREP gives the hub a link delay; a journal entry ends in its time. -/
def Obligations.RemoteAccess : Prop :=
  (∀ (s m : State) (n i : Nat) (f : Frame), n < 2 → f.ftype = ftMgmt → (s.rxFrame n f).1 = true →
    (s.set (LNK.STAT.HOPIN n) f.hop).reaches n f opDiscover (fun _ => .free) (fun t => decide (6 ≤ t.body.length)) = some (i, m) → m.isCell = true →
    isHubAddr (txnOf n f).src = true →
    let t := txnOf n f
    let seg := byteAt t.body 0
    let ring := byteAt t.body 1
    let len := byteAt t.body 2
    let told (addr p : Nat) (u : State) : Prop := u.get SYS.DEVADDR.ADDR = addr ∧ u.get SYS.DEVADDR.POS = p ∧ u.get (LNK.STAT.HOPIN n) = f.hop ∧
      u.get SYS.SENIOR.ADDR = t.at 4 2 ∧ u.jState i = (if t.broadcast then 3 else 2) ∧ byteAt (u.jReply i) 3 = stOk ∧ (u.jReply i).drop 32 = u.discoverBody n ∧
      ∀ a, replyWrites a = false → a ∉ [SYS.DEVADDR.ADDR.addr, SYS.SENIOR.ADDR.addr] → u.reg a = m.reg a
    let place (p : Nat) : State → Prop := told (seg * 2 ^ 10 + ring * 2 ^ 6 + p) p
    let same : State → Prop := told (m.get SYS.DEVADDR.ADDR) (m.get SYS.DEVADDR.POS)
    let apart : State → Prop := told addrUnjoined 0xFF
    let member := byteAt t.body 3 % 2
    f.hop < 256 →
    (23 < seg ∨ 11 < ring → Yields (.discover n f) s same) ∧
    (seg < 24 → ring < 12 →
      (n = 0 → member = 0 → f.hop < 64 → Yields (.discover n f) s (place f.hop)) ∧
      (n = 0 → member = 0 → 64 ≤ f.hop → Yields (.discover n f) s (if m.lately m.link.fromB then same else apart)) ∧
      (n = 1 → member = 0 → Yields (.discover n f) s apart) ∧
      (n = 0 → member = 1 → Yields (.discover n f) s same) ∧
      (n = 1 → member = 1 → m.lately m.link.fromA = false → f.hop + 1 ≤ len → len ≤ 64 → Yields (.discover n f) s (place (len - (f.hop + 1)))) ∧
      (n = 1 → member = 1 → m.lately m.link.fromA = true ∨ len < f.hop + 1 ∨ 64 < len → Yields (.discover n f) s same))) ∧
  (∀ (s m : State) (n i : Nat) (f : Frame), s.executes n f opRead readNeed readLen = some (i, m) →
    let t := txnOf n f
    let a := t.at 0 4
    let bytes := t.at 4 2 * (wordBits a / 8)
    let r := m.readWords (m.remoteOrigin t) a (wordBits a) (t.at 4 2)
    (a < 0x20300000 ∧ 0x20280000 < a + bytes → Yields (.read n f) s (fun u => Served m u i stDenied [] [MGT.REFUSED.COUNT.addr] noByte)) ∧
    (0x20300000 ≤ a ∨ a + bytes ≤ 0x20280000 → r.2.2.replyLane t < 16 → Yields (.read n f) s (fun u =>
      Served r.2.2 u i (if r.2.1 then stOk else stBuserr) r.1 [] noByte))) ∧
  (∀ (s m : State) (n i : Nat) (f : Frame), s.executes n f opWrite writeNeed writeLen = some (i, m) →
    let t := txnOf n f
    let a := t.at 0 4
    let r := m.writeWords (m.remoteOrigin t) a (wordBits a) (t.body.drop 8) (t.at 4 2)
    let direct := (List.range (t.at 4 2)).any (fun j => m.hostinDirect (a + j * (wordBits a / 8)))
    (direct = true → Yields (.write n f) s (fun u => Served m u i stDenied [] [MGT.REFUSED.COUNT.addr] noByte)) ∧
    (direct = false → r.2.replyLane t < 16 → Yields (.write n f) s (fun u => Served r.2 u i (if r.1 then stOk else stBuserr) [] [] noByte))) ∧
  (∀ (s m : State) (n i : Nat) (f : Frame), s.executes n f opTwrite twriteNeed (bodyLen 16) = some (i, m) →
    let t := txnOf n f
    (namedTick m.tick (t.at 0 2) < m.tick + 16 ∨ m.flag TB.STAT.ALIGNED = false ∨ m.sumRegs (t.at 4 4) = true → Yields (.twrite n f) s (fun u =>
      Served m u i stDenied [] [MGT.REFUSED.COUNT.addr] noByte ∧ u.mgt.timed = m.mgt.timed)) ∧
    (∀ k, namedTick m.tick (t.at 0 2) = k → m.tick + 16 ≤ k → m.flag TB.STAT.ALIGNED = true → m.sumRegs (t.at 4 4) = false →
      (16 ≤ m.mgt.timed.length → m.recordsOnly (srcMGT 0) = true → Yields (.twrite n f) s (fun u =>
        Served m u i stBusy [] [MGT.REFUSED.COUNT.addr, (srcMGT 0).stat.addr, (srcMGT 0).live.addr] noByte ∧ u.mgt.timed = m.mgt.timed)) ∧
      (m.mgt.timed.length < 16 → Yields (.twrite n f) s (fun u => Served m u i stOk [] [MGT.TWSEQ.PEND.addr] noByte ∧
        u.mgt.timed = m.mgt.timed ++ [⟨k, t.at 4 4, t.at 8 4, t.at 12 4, m.remoteOrigin t⟩] ∧ u.get MGT.TWSEQ.PEND = m.mgt.timed.length + 1)))) ∧
  (∀ (s : State) (o : Origin) (v : Nat), s.mayWrite o MGT.TWSEQ.ARM.addr = true → v < 2 ^ 16 →
    let k := namedTick s.tick v
    Yields (.timedWriteArmLocal o v) s (fun t => t.get MGT.TWSEQ.SEQ = v ∧ RegsKept [MGT.TWSEQ.SEQ.addr] s t ∧ MemKept s t ∧
      (s.flag TB.STAT.ALIGNED = true → s.tick + 2 ≤ k → s.mgt.timed.length < 16 → t.mgt.timed = s.mgt.timed ++
        [⟨k, s.get MGT.TWADDR.ADDR, s.get MGT.TWVAL.VALUE, s.get MGT.TWMASK.MASK, o⟩] ∧ t.get MGT.TWSEQ.PEND = s.mgt.timed.length + 1) ∧
      (s.flag TB.STAT.ALIGNED = false ∨ k < s.tick + 2 → t.mgt.timed = s.mgt.timed ∧ t.flag MGT.TWSEQ.LATE = true) ∧
      (s.flag TB.STAT.ALIGNED = true → s.tick + 2 ≤ k → 16 ≤ s.mgt.timed.length → t.mgt.timed = s.mgt.timed ∧ t.flag MGT.TWSEQ.FULL = true))) ∧
  (∀ (s : State) (x : TimedSt), s.mgt.timed = [x] →
    (s.tick < x.tick → Yields .timedWriteFire s (fun t => t.mgt.timed = [x] ∧ RegsKept [MGT.TWSEQ.PEND.addr] s t ∧ MemKept s t)) ∧
    (x.tick ≤ s.tick → isWindow x.addr = true → x.addr % 4 = 0 → s.mayWrite x.origin x.addr = true → blockOf x.addr ∈ [bSEC, bADC, bSDM] →
      fieldsAt x.addr ≠ [] → cntclrOf x.addr = none → hasAccess (fieldsAt x.addr) .rwa = false → criticalReg x.addr = false →
      Yields .timedWriteFire s (fun t => t.mgt.timed = [] ∧ t.get MGT.TWSEQ.PEND = 0 ∧ RegsKept [x.addr, MGT.TWSEQ.PEND.addr] s t ∧ MemKept s t ∧
        t.reg x.addr = storeWord (fieldsAt x.addr) false (BitVec.ofNat 32 (SMap.get 0 s.sys.setNow x.addr)) (BitVec.ofNat 32 x.value) (BitVec.ofNat 32 x.mask)
          (s.reg x.addr)))) ∧
  (∀ (s m : State) (n i : Nat) (f : Frame), s.executes n f (txnOf n f).op freeNeed (fun _ => true) = some (i, m) →
    listedOps.contains (txnOf n f).op = false → (txnOf n f).op ≠ 0xF0 → Yields (.badopRequest n f) s (fun u => Served m u i stBadop [] [] noByte)) ∧
  (∀ (s m : State) (n : Nat) (f : Frame), s.notes n f opEchorep .free = some m → m.isHub = true → m.runs bSCR = false → (txnOf n f).body.length = 8 →
    isCellAddr (txnOf n f).src = true → cellSegment (txnOf n f).src = m.segment → (txnOf n f).src ≠ m.partner →
    let key := 128 * cellRing (txnOf n f).src + cellPos (txnOf n f).src
    Yields (.echorep n f) s (fun u => SMap.get 0 u.link.delays key = (txnOf n f).at 4 4 + 1 ∧
      (∀ k, k ≠ key → SMap.get 0 u.link.delays k = SMap.get 0 m.link.delays k) ∧ u.regs = m.regs ∧ MemKept m u)) ∧
  (∀ (s : State) (i : Nat), i < 256 → s.jState i = 2 → SMap.get 0 s.mgt.replied i ≠ 0 →
    (SMap.get 0 s.mgt.replied i + 65536 ≤ s.tick + 1 → Yields (.journalEntryExpire i) s (fun t => t.jState i = 3 ∧ (∀ j, j < 256 → j ≠ i → t.jState j = s.jState j) ∧
      (t.jReply i) = s.jReply i ∧ RegsKept [MGT.STAT.JFREE.addr, SYS.INJCTL.ARMED.addr] s t ∧ (∀ a, inJournal a = false → memByte 0 t.sram a = memByte 0 s.sram a))) ∧
    (s.tick + 1 < SMap.get 0 s.mgt.replied i + 65536 → Yields (.journalEntryExpire i) s (fun t => t = s)))

/-- The log, relaying and this device's own requests (R25, R66, R106, R372, R459 to R465, R474, R477): a drain gives entries from its start, as far as they stand; an
acknowledgement moves RDSEQ forwards only; an entry is stored with its chain, and one that overwrites an unread entry counts it and moves RDSEQ on; a hub passes a frame of its ring on to its trunk and remembers the request; a reply ends what it
answers, a missing one is sent again and then given up. -/
def Obligations.LogAndRelay : Prop :=
  (∀ (s m : State) (n i : Nat) (f : Frame), s.executes n f opLogdrain (permNeed 128) drainLen = some (i, m) →
    let t := txnOf n f
    let start := if t.at 0 8 = 2 ^ 64 - 1 then m.rdseq else t.at 0 8
    let want := if t.at 8 2 = 0xFFFF then 14 else t.at 8 2
    let first := max start (m.wrseq - logEntries)
    Yields (.logdrain n f) s (fun u => Served m u i stOk
      (toLE 8 first ++ (List.range (min want (m.wrseq - first))).flatMap (fun j => m.logAt (first + j))) [] noByte)) ∧
  (∀ (s m : State) (n i : Nat) (f : Frame), s.executes n f opLogack (permNeed 128) (bodyLen 8) = some (i, m) →
    let k := (txnOf n f).at 0 8
    let regs := [LOG.RDSEQ_LO.SEQ.addr, LOG.RDSEQ_HI.SEQ.addr, LOG.RUNLOST.COUNT.addr, (srcLOG 0).live.addr, LOG.STAT.QUEUE.addr]
    (m.rdseq ≤ k → k ≤ m.wrseq → m.log.queue.length < 12 → Yields (.logack (.frame n f)) s (fun u => Served m u i stOk [] regs noByte ∧ u.rdseq = k ∧
      u.get LOG.RUNLOST.COUNT = 0 ∧ u.log.queue.length = m.log.queue.length + 1)) ∧
    (k < m.rdseq ∨ m.wrseq < k → m.recordsOnly (srcLOG 2) = true → Yields (.logack (.frame n f)) s (fun u => u.rdseq = m.rdseq ∧
      Served m u i stDenied [] [MGT.REFUSED.COUNT.addr, (srcLOG 2).stat.addr, (srcLOG 2).live.addr] noByte ∧ u.flag (srcLOG 2).stat = true))) ∧
  (∀ (s : State) (o : Origin) (v : Nat), s.mayWrite o LOG.ACKSEQ_HI.SEQ.addr = true → v < 2 ^ 32 → s.log.queue.length < queuePlaces o →
    let h := SMap.get 0 s.sys.held LOG.ACKSEQ_LO.SEQ.addr
    let k := (if h = 0 then s.get LOG.ACKSEQ_LO.SEQ else (h - 1) % 2 ^ 32) + 2 ^ 32 * v
    s.rdseq ≤ k → k ≤ s.wrseq → Yields (.logack (.write o v)) s (fun t => t.rdseq = k ∧ t.get LOG.ACKSEQ_HI.SEQ = v ∧ MemKept s t)) ∧
  (∀ s : State, (s.log.queue = [] → Yields .logEntryWrite s (fun t => t = s)) ∧
    (∀ e q, s.log.queue = e :: q → e.length = 24 → s.chainGood = true → s.wrseq < s.rdseq + logEntries → s.wrseq + 1 < 2 ^ 64 →
      Yields .logEntryWrite s (fun t => t.log.queue = q ∧ t.wrseq = s.wrseq + 1 ∧ (t.logAt s.wrseq).take 24 = e ∧
        (t.logAt s.wrseq).drop 24 = (sha256 (s.logPrev s.wrseq ++ e)).take 8 ∧ hashRegs t LOG.HEAD.HASH = sha256 (t.logAt s.wrseq) ∧
        t.get LOG.LOST.COUNT = s.get LOG.LOST.COUNT ∧ t.get LOG.RUNLOST.COUNT = s.get LOG.RUNLOST.COUNT ∧
        t.rdseq = s.rdseq ∧ (∀ a, (a < logAddr s.wrseq ∨ logAddr s.wrseq + 32 ≤ a) → memByte 0 t.sram a = memByte 0 s.sram a))) ∧
    (∀ e q, s.log.queue = e :: q → e.length = 24 → s.chainGood = true → s.wrseq = s.rdseq + logEntries → s.get LOG.RUNLOST.COUNT % 1024 ≠ 0 →
      s.wrseq + 1 < 2 ^ 64 → Yields .logEntryWrite s (fun t => t.log.queue = q ∧ t.wrseq = s.wrseq + 1 ∧ t.rdseq = s.rdseq + 1 ∧
        (t.logAt s.wrseq).take 24 = e ∧ t.get LOG.LOST.COUNT = satNext 32 (s.get LOG.LOST.COUNT) ∧
        t.get LOG.RUNLOST.COUNT = satNext 32 (s.get LOG.RUNLOST.COUNT)))) ∧
  (∀ s : State, s.forwarderOnly = false → s.get SER.CORESTAT.VENDOR ≠ 0 → s.flag LOG.CTRL.FLASHEN = true →
    (∀ n, s.recordsOnly (srcLOG 2) = true → Yields (.logFlashDrain n false) s (fun t => t.flag (srcLOG 2).stat = true ∧ t.rdseq = s.rdseq ∧ t.log = s.log ∧
      MemKept s t)) ∧
    (s.rdseq < s.wrseq → s.get LOG.FLASHSIZE.BYTES ≠ 0 → s.log.queue.length < 12 → Yields (.logFlashDrain 1 true) s (fun t => t.rdseq = s.rdseq + 1 ∧
      t.log.flashed = s.log.flashed + 1 ∧ (∀ j, j < 32 →
        memByte 0xFF t.flash (s.get LOG.FLASHBASE.ADDR + 32 * s.rdseq % s.get LOG.FLASHSIZE.BYTES + j) = (s.logAt s.rdseq).getD j 0) ∧ t.sram = s.sram))) ∧
  (∀ (s : State) (o : Origin) (v : Nat), s.mayWrite o LOG.APPCMD.GO.addr = true → s.log.queue.length < queuePlaces o → v < 128 → Yields (.logAppend o v) s (fun t =>
    RegsKept [LOG.STAT.QUEUE.addr] s t ∧ MemKept s t ∧
    (0x40 ≤ v ∧ v ≤ 0x7E → t.log.queue = s.log.queue ++ [s.entry v o (s.get LOG.APPADDR.ADDR) (s.get LOG.APPOLD.OLD) (s.get LOG.APPNEW.NEW)]) ∧
    (v < 0x40 ∨ v = 0x7F → t.log.queue = s.log.queue))) ∧
  (∀ (s : State) (n : Nat) (f : Frame), s.isCell = false → (s.rxFrame n f).1 = true → f.ftype = ftMgmt → f.dst ≠ addrAll → f.dst ≠ s.address →
    let m := (s.rxFrame n f).2.forward n f false
    let t := txnOf n f
    m.forwarderOnly = false → n < 16 →
    (isReservedAddr f.dst = true → (s.isHub && s.isTrunkLane n) = false → Yields (.mgmtRelay n f) s (fun u =>
      u.get (LNK.UNROUTE.COUNT n) = satNext 32 (m.get (LNK.UNROUTE.COUNT n)) ∧ RegsKept [(LNK.UNROUTE.COUNT n).addr] m u ∧ MemKept m u)) ∧
    (s.isHub = true → n < 12 → isReservedAddr f.dst = false → f.dst ≠ s.partner → (isCellAddr f.dst && decide (cellSegment f.dst = s.segment)) = false →
      t.reply = false → m.jFind t 1 = none → m.ctxFree = true →
      let l := if m.laneUp 12 then 12 else 13
      m.laneUp l = true → ∀ e, m.jNew t 1 = some e → Yields (.mgmtRelay n f) s (fun u =>
        Sends u l (fun g => g.dst = f.dst ∧ g.ftype = ftMgmt ∧ g.hop = satNext 8 f.hop ∧ g.body = f.body) ∧ u.jState e.1 = 1 ∧ u.jGet e.1 1 1 = 1 ∧
        u.mgt.relayed = m.mgt.relayed ++ [⟨t.src, t.sess, t.ctr, t.dst, m.tick⟩]))) ∧
  (∀ (s : State) (n : Nat) (f : Frame),
    let m := (s.mgmtArrive n f).2
    let t := txnOf n f
    (s.mgmtArrive n f).1 = true → t.reply = true →
    (t.op = opDiscover → m.isHub = true → n < 12 → t.at 0 2 ≠ addrUnjoined → byteAt t.body 2 ≠ 0xFF → Yields (.replyReceive n f) s (fun u =>
      SMap.get 0 u.mgt.cells (128 * n + byteAt t.body 2 % 64) = 2 ^ 24 + t.at 0 2 + 2 ^ 16 * byteAt t.body 24 ∧
      RegsKept [(SCR.RINGLEN.LEN (n / 4)).addr] m u ∧ MemKept m u)) ∧
    (t.op = opDiscover → m.isHub = true → n < 12 → t.at 0 2 = addrUnjoined → Yields (.replyReceive n f) s (fun u =>
      let hop := byteAt t.body 3
      SMap.get 0 u.mgt.cells (128 * n + 64 + hop % 64) = 2 ^ 24 + addrUnjoined + 2 ^ 16 * byteAt t.body 24 ∧
      (u.mgt.reversed.contains (128 * n + hop) = true ↔ m.mgt.reversed.contains (128 * n + hop) = true ∨ hop < 64 ∧ m.member = 0) ∧
      u.mgt.overLength.testBit n = (m.mgt.overLength.testBit n || decide (64 ≤ hop)) ∧ RegsKept [(SCR.RINGLEN.LEN (n / 4)).addr] m u ∧ MemKept m u)) ∧
    (∀ x, t.op ≠ opDiscover → m.sendOf t = some x → t.more = false →
      (x.customer = true → Yields (.replyReceive n f) s (fun u => (∃ y, y ∈ u.mgt.sends ∧ y.ctx = x.ctx ∧ y.ended = some t.status ∧ y.reply = t.pay) ∧
        RegsKept [MGT.STAT.CTXFREE.addr] m u ∧ MemKept m u)) ∧
      (x.customer = false → x.replay = none → t.op ≠ opRead → Yields (.replyReceive n f) s (fun u =>
        u.mgt.sends = m.mgt.sends.filter (fun y => y.ctx != x.ctx) ∧ RegsKept [MGT.STAT.CTXFREE.addr] m u ∧ MemKept m u)))) ∧
  (∀ (s : State) (c : Nat) (x : SendSt), s.mgt.sends.find? (fun y => y.ctx == c && y.ended.isNone) = some x →
    (s.tick < x.since + s.get MGT.CTRL.TIMEOUT → Yields (.replyTimeout c) s (fun t => t = s)) ∧
    (x.since + s.get MGT.CTRL.TIMEOUT ≤ s.tick → x.launches ≤ s.get MGT.CTRL.RETRIES → Yields (.replyTimeout c) s (fun t =>
      t.get MGT.RETRYCNT.COUNT = satNext 32 (s.get MGT.RETRYCNT.COUNT) ∧ { x with since := s.tick, launches := x.launches + 1 } ∈ t.mgt.sends ∧ MemKept s t)) ∧
    (x.since + s.get MGT.CTRL.TIMEOUT ≤ s.tick → s.get MGT.CTRL.RETRIES < x.launches → byteAt x.payload 0 ≠ opRead → s.recordsOnly (srcMGT 4) = true →
      Yields (.replyTimeout c) s (fun t => t.flag (srcMGT 4).stat = true ∧ t.mgt.sends = s.mgt.sends.filter (fun y => y.ctx != c) ++
        (if x.customer then [{ x with ended := some stBusy }] else []) ∧ MemKept s t))) ∧
  (∀ (s : State) (key : Nat), s.isHub = true → s.basecamp = true → s.tickEvents = false → s.forwarderOnly = false → SMap.get 0 s.mgt.cells key ≠ 0 →
    key % 128 < 64 → SMap.get 0 s.mgt.cells key % 2 ^ 16 ≠ addrAll → s.mgt.sends = [] → Yields (.basecampPoll key) s (fun t => ∃ x y, t.mgt.sends = [x, y] ∧
      x.dst = SMap.get 0 s.mgt.cells key % 2 ^ 16 ∧ y.dst = x.dst ∧ byteAt x.payload 0 = opRead ∧ leAt x.payload 32 4 = ADC.VCAP.CODE.addr ∧
      byteAt y.payload 0 = opRead ∧ leAt y.payload 32 4 = ADC.TEMP.CODE.addr ∧ MemKept s t)) ∧
  (∀ (s : State) (src sess ctr : Nat), Yields (.relayContextTimeout src sess ctr) s (fun t =>
    (∀ r, r ∈ t.mgt.relayed ↔ r ∈ s.mgt.relayed ∧ ¬ (r.src = src ∧ r.sess = sess ∧ r.ctr = ctr ∧
      r.tick + s.get MGT.CTRL.TIMEOUT * (s.get MGT.CTRL.RETRIES + 1) ≤ s.tick)) ∧ RegsKept [MGT.STAT.CTXFREE.addr] s t ∧ MemKept s t))

/-- Service calls, software interrupts and the lockup of a core (R127, R464, R485, R486, R491). -/
def Obligations.ServiceCores : Prop :=
  (∀ (s : State) (core : Nat), s.customerCore core = true →
    (∀ (pay : List Byte) (dst : Nat), 32 ≤ pay.length → pay.length ≤ 488 → 32 + leAt pay 8 2 = pay.length → dst ≠ addrAll → s.ctxFree = true →
      Yields (.ecallSend core pay dst) s (fun t => MemKept s t ∧ Emit.ecall core 0 s.freeCtx ∈ t.out ∧ ∃ x, x ∈ t.mgt.sends ∧ x.ctx = s.freeCtx ∧ x.dst = dst ∧
        x.customer = true ∧ x.ended = none ∧ byteAt x.payload 0 = byteAt pay 0 ∧ leAt x.payload 4 4 = leAt pay 4 4 ∧ x.payload.drop 32 = pay.drop 32)) ∧
    (∀ (pay : List Byte) (dst : Nat), (pay.length < 32 ∨ 488 < pay.length ∨ 32 + leAt pay 8 2 ≠ pay.length) → Yields (.ecallSend core pay dst) s (fun t =>
      t = s.emit (.ecall core (-2) 0))) ∧
    (∀ c, (∀ x, s.mgt.sends.find? (fun y => y.ctx == c && y.customer) = some x → Yields (.ecallPoll core c) s (fun t =>
        t = s.emit (match x.ended with | none => .ecall core 0 0 | some st => .ecall core (-(st : Int)) x.replyAddr))) ∧
      (s.mgt.sends.find? (fun y => y.ctx == c && y.customer) = none → Yields (.ecallPoll core c) s (fun t => t = s.emit (.ecall core (-6) 0)))) ∧
    (∀ src handler, (src < 24 → Yields (.ecallIrqreg core src handler) s (fun t => t.out = s.out ++ [.ecall core 0 0] ∧
        SMap.get 0 t.ser.handlers (32 * core + src) = handler + 1 ∧ RegsKept [] s t ∧ MemKept s t)) ∧
      (24 ≤ src → Yields (.ecallIrqreg core src handler) s (fun t => t = s.emit (.ecall core (-3) 0)))) ∧
    (∀ typ addr old new, (0x40 ≤ typ ∧ typ ≤ 0x7E → s.log.queue.length < 12 → Yields (.ecallNote core typ addr old new) s (fun t =>
        t.log.queue = s.log.queue ++ [s.entry typ (coreOrigin core) addr old new] ∧ t.out = s.out ++ [.ecall core 0 0] ∧ RegsKept [LOG.STAT.QUEUE.addr] s t ∧
        MemKept s t)) ∧
      (typ < 0x40 ∨ 0x7E < typ → Yields (.ecallNote core typ addr old new) s (fun t => t = s.emit (.ecall core (-3) 0)))) ∧
    Yields (.ecallTime core) s (fun t => t.get TB.SNAP_SHORT.COUNT = s.short % 2 ^ 32 ∧ t.get TB.SNAP_NSEC.NS = s.nsecNow ∧
      t.out = s.out ++ [.ecall core 0 (s.short % 2 ^ 32)] ∧ MemKept s t)) ∧
  (∀ (s : State) (o : Origin) (v : Nat), s.mayWrite o SER.SWISET.SET.addr = true → v < 16 → Yields (.softwareInterruptSet o v) s (fun t =>
    t.get SER.SWI.PEND = s.get SER.SWI.PEND ||| v ∧ RegsKept [SER.SWI.PEND.addr] s t ∧ MemKept s t)) ∧
  (∀ (s : State) (core : Nat),
    (s.getBit SER.CORESTAT.RUN core = true → s.getBit SER.CORESTAT.HALTED core = false → s.recordsOnly (srcSER 2) = true → Yields (.corelock core) s (fun t =>
      t.flag (srcSER 2).stat = true ∧ RegsKept [(srcSER 2).stat.addr, (srcSER 2).live.addr] s t ∧ MemKept s t)) ∧
    (s.getBit SER.CORESTAT.RUN core = false ∨ s.getBit SER.CORESTAT.HALTED core = true → Yields (.corelock core) s (fun t => t = s)))
end

