-- ==== Sys2Proof/Laws/Sparse.lean ====
section
/-!
SUPPORT. Laws/Sparse.lean: what reading after writing gives in a sparse map, and that writing keeps the canonical form.
-/

namespace Sys2Proof.Machine

variable {α : Type}

theorem SMap.get_erase_self (d : α) (m : SMap α) (k : Nat) : SMap.get d (SMap.erase m k) k = d := by
  induction m with
  | nil => rfl
  | cons e m ih =>
    by_cases h : e.1 = k
    · simp [SMap.erase, h, ih]
    · simp [SMap.erase, SMap.get, h, ih]

theorem SMap.get_erase_ne (d : α) (m : SMap α) {k j : Nat} (hj : j ≠ k) :
    SMap.get d (SMap.erase m k) j = SMap.get d m j := by
  induction m with
  | nil => rfl
  | cons e m ih =>
    by_cases h : e.1 = k
    · have : ¬ k = j := fun x => hj x.symm
      simp [SMap.erase, SMap.get, h, ih, this]
    · simp [SMap.erase, SMap.get, h, ih]

theorem SMap.get_insert_self (d v : α) (m : SMap α) (k : Nat) (hm : SMap.erase m k = m) :
    SMap.get d (SMap.insert k v m) k = v := by
  induction m with
  | nil => simp [SMap.insert, SMap.get]
  | cons e m ih =>
    by_cases h : e.1 = k
    · rw [SMap.erase, if_pos h] at hm
      have hl : (SMap.erase m k).length ≤ m.length := by
        clear ih hm h
        induction m with
        | nil => simp [SMap.erase]
        | cons a m ih => by_cases h : a.1 = k <;> simp [SMap.erase, h] <;> omega
      rw [hm] at hl
      rw [List.length_cons] at hl
      omega
    · have hm' : SMap.erase m k = m := by simpa [SMap.erase, h] using hm
      by_cases hl : k < e.1
      · simp [SMap.insert, hl, SMap.get]
      · simp [SMap.insert, hl, SMap.get, h, ih hm']

theorem SMap.get_insert_ne (d v : α) (m : SMap α) {k j : Nat} (hj : j ≠ k) :
    SMap.get d (SMap.insert k v m) j = SMap.get d m j := by
  have hk : ¬ k = j := fun x => hj x.symm
  induction m with
  | nil => simp [SMap.insert, SMap.get, hk]
  | cons e m ih =>
    by_cases hl : k < e.1
    · simp [SMap.insert, hl, SMap.get, hk]
    · simp [SMap.insert, hl, SMap.get, ih]

theorem SMap.erase_erase (m : SMap α) (k : Nat) : SMap.erase (SMap.erase m k) k = SMap.erase m k := by
  induction m with
  | nil => rfl
  | cons e m ih =>
    by_cases h : e.1 = k
    · simp [SMap.erase, h, ih]
    · simp [SMap.erase, h, ih]

theorem SMap.get_set_self [DecidableEq α] (d : α) (m : SMap α) (k : Nat) (v : α) :
    SMap.get d (SMap.set d m k v) k = v := by
  unfold SMap.set
  split
  · next h => rw [h]; exact SMap.get_erase_self d m k
  · exact SMap.get_insert_self d v _ k (SMap.erase_erase m k)

theorem SMap.get_set_ne [DecidableEq α] (d d' : α) (m : SMap α) {k j : Nat} (v : α) (hj : j ≠ k) :
    SMap.get d' (SMap.set d m k v) j = SMap.get d' m j := by
  unfold SMap.set
  split
  · exact SMap.get_erase_ne d' m hj
  · rw [SMap.get_insert_ne d' v _ hj, SMap.get_erase_ne d' m hj]

theorem SMap.above_erase {m : SMap α} {j k : Nat} (h : SMap.above j m = true) : SMap.above j (SMap.erase m k) = true := by
  induction m with
  | nil => simp [SMap.erase, SMap.above]
  | cons e m ih =>
    simp only [SMap.above, List.all_cons, Bool.and_eq_true] at h
    have h2 := ih (by simpa [SMap.above] using h.2)
    by_cases hk : e.1 = k
    · simpa [SMap.erase, hk] using h2
    · simp only [SMap.erase, hk, if_false, SMap.above, List.all_cons, Bool.and_eq_true]
      exact ⟨h.1, by simpa [SMap.above] using h2⟩

theorem SMap.wf_erase [DecidableEq α] {d : Nat → α} {m : SMap α} (k : Nat) (h : SMap.wf d m = true) :
    SMap.wf d (SMap.erase m k) = true := by
  induction m with
  | nil => rfl
  | cons e m ih =>
    simp only [SMap.wf, Bool.and_eq_true] at h
    by_cases hk : e.1 = k
    · simpa [SMap.erase, hk] using ih h.2
    · simp only [SMap.erase, hk, if_false, SMap.wf, Bool.and_eq_true]
      exact ⟨⟨SMap.above_erase h.1.1, h.1.2⟩, ih h.2⟩

theorem SMap.above_insert {m : SMap α} {j k : Nat} {v : α} (h : SMap.above j m = true) (hk : j < k) :
    SMap.above j (SMap.insert k v m) = true := by
  induction m with
  | nil => simp [SMap.insert, SMap.above, hk]
  | cons e m ih =>
    have h' := h
    simp only [SMap.above, List.all_cons, Bool.and_eq_true] at h
    have h2 := ih (by simpa [SMap.above] using h.2)
    by_cases hl : k < e.1
    · simp only [SMap.insert, hl, if_true, SMap.above, List.all_cons, Bool.and_eq_true]
      exact ⟨by simpa using hk, by simpa [SMap.above] using h'⟩
    · simp only [SMap.insert, hl, if_false, SMap.above, List.all_cons, Bool.and_eq_true]
      exact ⟨h.1, by simpa [SMap.above] using h2⟩

theorem SMap.above_mono {m : SMap α} {i j : Nat} (hij : i ≤ j) (h : SMap.above j m = true) : SMap.above i m = true := by
  simp only [SMap.above, List.all_eq_true, decide_eq_true_eq] at h ⊢
  intro e he
  exact Nat.lt_of_le_of_lt hij (h e he)

theorem SMap.wf_insert [DecidableEq α] {d : Nat → α} {m : SMap α} {k : Nat} {v : α} (h : SMap.wf d m = true)
    (hv : v ≠ d k) (hm : SMap.erase m k = m) : SMap.wf d (SMap.insert k v m) = true := by
  induction m with
  | nil => simp [SMap.insert, SMap.wf, SMap.above, hv]
  | cons e m ih =>
    have h0 := h
    simp only [SMap.wf, Bool.and_eq_true] at h
    have hne : ¬ e.1 = k := by
      intro hk
      have := SMap.get_insert_self (d k) v (e :: m) k hm
      rw [SMap.erase, if_pos hk] at hm
      have hl : (SMap.erase m k).length ≤ m.length := by
        clear ih hm hk h h0 this
        induction m with
        | nil => simp [SMap.erase]
        | cons a m ih => by_cases h : a.1 = k <;> simp [SMap.erase, h] <;> omega
      rw [hm] at hl
      rw [List.length_cons] at hl
      omega
    have hm' : SMap.erase m k = m := by simpa [SMap.erase, hne] using hm
    by_cases hl : k < e.1
    · simp only [SMap.insert, hl, if_true, SMap.wf, Bool.and_eq_true]
      refine ⟨⟨?_, by simpa using hv⟩, by simpa only [SMap.wf, Bool.and_eq_true] using h0⟩
      simp only [SMap.above, List.all_cons, Bool.and_eq_true]
      refine ⟨by simpa using hl, ?_⟩
      have := SMap.above_mono (Nat.le_of_lt hl) h.1.1
      simpa [SMap.above] using this
    · simp only [SMap.insert, hl, if_false, SMap.wf, Bool.and_eq_true]
      exact ⟨⟨SMap.above_insert h.1.1 (by omega), h.1.2⟩, ih h.2 hm'⟩

/-- Writing keeps the canonical form, whatever is written where. -/
theorem SMap.wf_set [DecidableEq α] {d : Nat → α} {m : SMap α} (k : Nat) (v : α) (h : SMap.wf d m = true) :
    SMap.wf d (SMap.set (d k) m k v) = true := by
  unfold SMap.set
  split
  · exact SMap.wf_erase k h
  · next hv => exact SMap.wf_insert (SMap.wf_erase k h) hv (SMap.erase_erase m k)

end Sys2Proof.Machine
end

