-- ==== Sys2Proof/Laws/Fields.lean ====
section
/-!
SUPPORT. Laws/Fields.lean: what reading a register or a field gives after another has been set; the register file stays canonical.
-/

namespace Sys2Proof.Machine

theorem fldMask_getLsbD (f : Fld) (i : Nat) (h : i < 32) :
    (fldMask f).getLsbD i = (decide (f.lo ≤ i) && decide (i < f.lo + f.w)) := by
  unfold fldMask
  simp only [BitVec.getLsbD_shiftLeft, h, decide_true, Bool.true_and]
  by_cases hl : f.lo ≤ i
  · have : i - f.lo < 32 := by omega
    simp only [BitVec.getLsbD_ofNat, this, decide_true, Bool.true_and, Nat.testBit_two_pow_sub_one]
    simp only [Nat.not_lt.mpr hl, decide_false, Bool.not_false, Bool.true_and, hl, decide_true]
    congr 1
    exact propext ⟨fun x => by omega, fun x => by omega⟩
  · simp [hl, Nat.lt_of_not_le hl]

theorem wordSet_getLsbD (w : Word) (f : Fld) (v i : Nat) (h : i < 32) :
    (wordSet w f v).getLsbD i = if f.lo ≤ i ∧ i < f.lo + f.w then v.testBit (i - f.lo) else w.getLsbD i := by
  unfold wordSet
  have hm := fldMask_getLsbD f i h
  simp only [BitVec.getLsbD_or, BitVec.getLsbD_and, BitVec.getLsbD_not, hm, h, decide_true, Bool.true_and]
  by_cases hl : f.lo ≤ i
  · by_cases hr : i < f.lo + f.w
    · have : i - f.lo < 32 := by omega
      simp [hl, hr, h, -BitVec.getLsbD_eq_getElem, BitVec.getLsbD_ofNat, this, Nat.not_lt.mpr hl]
    · simp [hl, hr]
  · simp [hl]

theorem wordGet_testBit (w : Word) (f : Fld) (i : Nat) :
    (wordGet w f).testBit i = (decide (i < f.w) && w.getLsbD (f.lo + i)) := by
  unfold wordGet
  rw [← BitVec.getLsbD, BitVec.getLsbD_extractLsb']

theorem wordGet_lt (w : Word) (f : Fld) : wordGet w f < 2 ^ f.w := by
  unfold wordGet; exact BitVec.isLt _

/-- A field set reads the low bits of what was set. -/
theorem wordGet_wordSet_self (w : Word) (f : Fld) (v : Nat) (h : f.lo + f.w ≤ 32) :
    wordGet (wordSet w f v) f = v % 2 ^ f.w := by
  apply Nat.eq_of_testBit_eq
  intro i
  rw [wordGet_testBit, Nat.testBit_mod_two_pow]
  by_cases hi : i < f.w
  · rw [wordSet_getLsbD _ _ _ _ (by omega), if_pos ⟨by omega, by omega⟩]
    simp [hi]
  · simp [hi]

/-- Setting a field leaves every field of the word that shares no bit with it. -/
theorem wordGet_wordSet_ne (w : Word) (f g : Fld) (v : Nat) (h : f.lo + f.w ≤ g.lo ∨ g.lo + g.w ≤ f.lo) :
    wordGet (wordSet w f v) g = wordGet w g := by
  apply Nat.eq_of_testBit_eq
  intro i
  rw [wordGet_testBit, wordGet_testBit]
  by_cases hi : i < g.w
  · by_cases hb : g.lo + i < 32
    · rw [wordSet_getLsbD _ _ _ _ hb, if_neg (by omega)]
    · rw [BitVec.getLsbD_of_ge _ _ (by omega), BitVec.getLsbD_of_ge _ _ (by omega)]
  · simp [hi]

/-! ## Registers -/

@[simp] theorem State.reg_setReg_self (s : State) (a : Nat) (w : Word) : (s.setReg a w).reg a = w :=
  SMap.get_set_self _ _ _ _

theorem State.reg_setReg_ne (s : State) {a b : Nat} (w : Word) (h : b ≠ a) : (s.setReg a w).reg b = s.reg b :=
  SMap.get_set_ne _ _ _ _ h

@[simp] theorem State.reg_set_self (s : State) (f : Fld) (v : Nat) : (s.set f v).reg f.addr = wordSet (s.reg f.addr) f v :=
  State.reg_setReg_self _ _ _

theorem State.reg_set_ne (s : State) (f : Fld) (v : Nat) {b : Nat} (h : b ≠ f.addr) : (s.set f v).reg b = s.reg b :=
  State.reg_setReg_ne _ _ h

/-- A field reads what was set, modulo its width. -/
theorem State.get_set_self (s : State) (f : Fld) (v : Nat) (h : f.lo + f.w ≤ 32) : (s.set f v).get f = v % 2 ^ f.w := by
  unfold State.get
  rw [State.reg_set_self, wordGet_wordSet_self _ _ _ h]

/-- A field of another register, or of other bits, is not touched. -/
theorem State.get_set_ne (s : State) (f g : Fld) (v : Nat)
    (h : g.addr ≠ f.addr ∨ f.lo + f.w ≤ g.lo ∨ g.lo + g.w ≤ f.lo) : (s.set f v).get g = s.get g := by
  unfold State.get
  by_cases ha : g.addr = f.addr
  · rw [ha, State.reg_set_self, wordGet_wordSet_ne _ _ _ _ (by rcases h with h | h; exact absurd ha h; exact h)]
  · rw [State.reg_set_ne _ _ _ ha]

theorem State.get_lt (s : State) (f : Fld) : s.get f < 2 ^ f.w := wordGet_lt _ _

theorem State.get_setReg_ne (s : State) (f : Fld) {a : Nat} (w : Word) (h : f.addr ≠ a) : (s.setReg a w).get f = s.get f := by
  unfold State.get
  rw [State.reg_setReg_ne _ _ h]

theorem bit_eq_one_iff (b : Bool) : (bit b != 0) = b := by cases b <;> rfl

/-- A one-bit flag set from a condition reads the condition. -/
theorem State.flag_setFlag_self (s : State) (f : Fld) (b : Bool) (hw : f.w = 1) (h : f.lo + f.w ≤ 32) :
    (s.setFlag f b).flag f = b := by
  unfold State.flag State.setFlag
  rw [State.get_set_self _ _ _ h, hw]
  cases b <;> rfl

theorem State.flag_set_ne (s : State) (f g : Fld) (v : Nat)
    (h : g.addr ≠ f.addr ∨ f.lo + f.w ≤ g.lo ∨ g.lo + g.w ≤ f.lo) : (s.set f v).flag g = s.flag g := by
  unfold State.flag
  rw [State.get_set_ne _ _ _ _ h]

/-- A saturating count (R422): the sum, or all ones. -/
theorem State.get_add_self (s : State) (f : Fld) (n : Nat) (h : f.lo + f.w ≤ 32) :
    (s.add f n).get f = if s.get f + n < 2 ^ f.w then s.get f + n else 2 ^ f.w - 1 := by
  unfold State.add
  rw [State.get_set_self _ _ _ h]
  apply Nat.mod_eq_of_lt
  have := Nat.two_pow_pos f.w
  split <;> omega

/-! ## The canonical form -/

theorem State.setReg_wf (s : State) (a : Nat) (w : Word) (h : SMap.wf regDefault s.regs = true) :
    SMap.wf regDefault (s.setReg a w).regs = true := SMap.wf_set a w h

theorem State.set_wf (s : State) (f : Fld) (v : Nat) (h : SMap.wf regDefault s.regs = true) :
    SMap.wf regDefault (s.set f v).regs = true := State.setReg_wf _ _ _ h

theorem memPut_wf (d : Byte) (m : List Host.Cell) (a : Nat) (bs : List Byte) (h : SMap.wf (fun _ => d) m = true) :
    SMap.wf (fun _ => d) (memPut d m a bs) = true := by
  induction bs generalizing m a with
  | nil => exact h
  | cons b bs ih => exact ih _ _ (SMap.wf_set (d := fun _ => d) a b h)

/-- A byte written is read; every other byte reads as before. -/
theorem memByte_memPut (d : Byte) (m : List Host.Cell) (a : Nat) (bs : List Byte) (x : Nat) :
    memByte d (memPut d m a bs) x = if a ≤ x ∧ x < a + bs.length then bs.getD (x - a) d else memByte d m x := by
  induction bs generalizing m a with
  | nil => rw [memPut, if_neg (by intro h; simp only [List.length_nil] at h; omega)]
  | cons b bs ih =>
    rw [memPut, ih]
    by_cases h : x = a
    · subst h
      rw [if_neg (by omega), if_pos (by simp), Nat.sub_self, List.getD_cons_zero]
      exact SMap.get_set_self _ _ _ _
    · have hne : memByte d (SMap.set d m a b) x = memByte d m x := SMap.get_set_ne _ _ _ _ h
      by_cases h1 : a ≤ x
      · by_cases h2 : x < a + (bs.length + 1)
        · have e : x - a = (x - (a + 1)) + 1 := by omega
          simp only [List.length_cons]
          rw [if_pos (by omega), if_pos (by omega), e, List.getD_cons_succ]
        · simp only [List.length_cons]
          rw [if_neg (by omega), if_neg (by omega), hne]
      · simp only [List.length_cons]
        rw [if_neg (by omega), if_neg (by omega), hne]

end Sys2Proof.Machine
end

