-- ==== Sys2Proof/Laws/State.lean ====
section
/-!
SUPPORT. Laws/State.lean: what each named operation over State leaves as it was, one lemma per field and operation.
-/

namespace Sys2Proof.Machine

/-! ## setReg -/

@[simp] theorem State.setReg_sram (s : State) (a : Nat) (w : Word) : (s.setReg a w).sram = s.sram := rfl
@[simp] theorem State.setReg_cap (s : State) (a : Nat) (w : Word) : (s.setReg a w).cap = s.cap := rfl
@[simp] theorem State.setReg_flash (s : State) (a : Nat) (w : Word) : (s.setReg a w).flash = s.flash := rfl
@[simp] theorem State.setReg_time (s : State) (a : Nat) (w : Word) : (s.setReg a w).time = s.time := rfl
@[simp] theorem State.setReg_link (s : State) (a : Nat) (w : Word) : (s.setReg a w).link = s.link := rfl
@[simp] theorem State.setReg_cnv (s : State) (a : Nat) (w : Word) : (s.setReg a w).cnv = s.cnv := rfl
@[simp] theorem State.setReg_rst (s : State) (a : Nat) (w : Word) : (s.setReg a w).rst = s.rst := rfl
@[simp] theorem State.setReg_sys (s : State) (a : Nat) (w : Word) : (s.setReg a w).sys = s.sys := rfl
@[simp] theorem State.setReg_log (s : State) (a : Nat) (w : Word) : (s.setReg a w).log = s.log := rfl
@[simp] theorem State.setReg_scr (s : State) (a : Nat) (w : Word) : (s.setReg a w).scr = s.scr := rfl
@[simp] theorem State.setReg_pwm (s : State) (a : Nat) (w : Word) : (s.setReg a w).pwm = s.pwm := rfl
@[simp] theorem State.setReg_lpe (s : State) (a : Nat) (w : Word) : (s.setReg a w).lpe = s.lpe := rfl
@[simp] theorem State.setReg_sense (s : State) (a : Nat) (w : Word) : (s.setReg a w).sense = s.sense := rfl
@[simp] theorem State.setReg_red (s : State) (a : Nat) (w : Word) : (s.setReg a w).red = s.red := rfl
@[simp] theorem State.setReg_saf (s : State) (a : Nat) (w : Word) : (s.setReg a w).saf = s.saf := rfl
@[simp] theorem State.setReg_mgt (s : State) (a : Nat) (w : Word) : (s.setReg a w).mgt = s.mgt := rfl
@[simp] theorem State.setReg_sec (s : State) (a : Nat) (w : Word) : (s.setReg a w).sec = s.sec := rfl
@[simp] theorem State.setReg_fuse (s : State) (a : Nat) (w : Word) : (s.setReg a w).fuse = s.fuse := rfl
@[simp] theorem State.setReg_geo (s : State) (a : Nat) (w : Word) : (s.setReg a w).geo = s.geo := rfl
@[simp] theorem State.setReg_clk (s : State) (a : Nat) (w : Word) : (s.setReg a w).clk = s.clk := rfl
@[simp] theorem State.setReg_pwr (s : State) (a : Nat) (w : Word) : (s.setReg a w).pwr = s.pwr := rfl
@[simp] theorem State.setReg_eth (s : State) (a : Nat) (w : Word) : (s.setReg a w).eth = s.eth := rfl
@[simp] theorem State.setReg_ser (s : State) (a : Nat) (w : Word) : (s.setReg a w).ser = s.ser := rfl
@[simp] theorem State.setReg_pin (s : State) (a : Nat) (w : Word) : (s.setReg a w).pin = s.pin := rfl
@[simp] theorem State.setReg_out (s : State) (a : Nat) (w : Word) : (s.setReg a w).out = s.out := rfl
@[simp] theorem State.setReg_free (s : State) (a : Nat) (w : Word) : (s.setReg a w).free = s.free := rfl
@[simp] theorem State.setReg_pending (s : State) (a : Nat) (w : Word) : (s.setReg a w).pending = s.pending := rfl

/-! ## set -/

@[simp] theorem State.set_sram (s : State) (f : Fld) (v : Nat) : (s.set f v).sram = s.sram := rfl
@[simp] theorem State.set_cap (s : State) (f : Fld) (v : Nat) : (s.set f v).cap = s.cap := rfl
@[simp] theorem State.set_flash (s : State) (f : Fld) (v : Nat) : (s.set f v).flash = s.flash := rfl
@[simp] theorem State.set_time (s : State) (f : Fld) (v : Nat) : (s.set f v).time = s.time := rfl
@[simp] theorem State.set_link (s : State) (f : Fld) (v : Nat) : (s.set f v).link = s.link := rfl
@[simp] theorem State.set_cnv (s : State) (f : Fld) (v : Nat) : (s.set f v).cnv = s.cnv := rfl
@[simp] theorem State.set_rst (s : State) (f : Fld) (v : Nat) : (s.set f v).rst = s.rst := rfl
@[simp] theorem State.set_sys (s : State) (f : Fld) (v : Nat) : (s.set f v).sys = s.sys := rfl
@[simp] theorem State.set_log (s : State) (f : Fld) (v : Nat) : (s.set f v).log = s.log := rfl
@[simp] theorem State.set_scr (s : State) (f : Fld) (v : Nat) : (s.set f v).scr = s.scr := rfl
@[simp] theorem State.set_pwm (s : State) (f : Fld) (v : Nat) : (s.set f v).pwm = s.pwm := rfl
@[simp] theorem State.set_lpe (s : State) (f : Fld) (v : Nat) : (s.set f v).lpe = s.lpe := rfl
@[simp] theorem State.set_sense (s : State) (f : Fld) (v : Nat) : (s.set f v).sense = s.sense := rfl
@[simp] theorem State.set_red (s : State) (f : Fld) (v : Nat) : (s.set f v).red = s.red := rfl
@[simp] theorem State.set_saf (s : State) (f : Fld) (v : Nat) : (s.set f v).saf = s.saf := rfl
@[simp] theorem State.set_mgt (s : State) (f : Fld) (v : Nat) : (s.set f v).mgt = s.mgt := rfl
@[simp] theorem State.set_sec (s : State) (f : Fld) (v : Nat) : (s.set f v).sec = s.sec := rfl
@[simp] theorem State.set_fuse (s : State) (f : Fld) (v : Nat) : (s.set f v).fuse = s.fuse := rfl
@[simp] theorem State.set_geo (s : State) (f : Fld) (v : Nat) : (s.set f v).geo = s.geo := rfl
@[simp] theorem State.set_clk (s : State) (f : Fld) (v : Nat) : (s.set f v).clk = s.clk := rfl
@[simp] theorem State.set_pwr (s : State) (f : Fld) (v : Nat) : (s.set f v).pwr = s.pwr := rfl
@[simp] theorem State.set_eth (s : State) (f : Fld) (v : Nat) : (s.set f v).eth = s.eth := rfl
@[simp] theorem State.set_ser (s : State) (f : Fld) (v : Nat) : (s.set f v).ser = s.ser := rfl
@[simp] theorem State.set_pin (s : State) (f : Fld) (v : Nat) : (s.set f v).pin = s.pin := rfl
@[simp] theorem State.set_out (s : State) (f : Fld) (v : Nat) : (s.set f v).out = s.out := rfl
@[simp] theorem State.set_free (s : State) (f : Fld) (v : Nat) : (s.set f v).free = s.free := rfl
@[simp] theorem State.set_pending (s : State) (f : Fld) (v : Nat) : (s.set f v).pending = s.pending := rfl

/-! ## setFlag -/

@[simp] theorem State.setFlag_sram (s : State) (f : Fld) (b : Bool) : (s.setFlag f b).sram = s.sram := rfl
@[simp] theorem State.setFlag_cap (s : State) (f : Fld) (b : Bool) : (s.setFlag f b).cap = s.cap := rfl
@[simp] theorem State.setFlag_flash (s : State) (f : Fld) (b : Bool) : (s.setFlag f b).flash = s.flash := rfl
@[simp] theorem State.setFlag_time (s : State) (f : Fld) (b : Bool) : (s.setFlag f b).time = s.time := rfl
@[simp] theorem State.setFlag_link (s : State) (f : Fld) (b : Bool) : (s.setFlag f b).link = s.link := rfl
@[simp] theorem State.setFlag_cnv (s : State) (f : Fld) (b : Bool) : (s.setFlag f b).cnv = s.cnv := rfl
@[simp] theorem State.setFlag_rst (s : State) (f : Fld) (b : Bool) : (s.setFlag f b).rst = s.rst := rfl
@[simp] theorem State.setFlag_sys (s : State) (f : Fld) (b : Bool) : (s.setFlag f b).sys = s.sys := rfl
@[simp] theorem State.setFlag_log (s : State) (f : Fld) (b : Bool) : (s.setFlag f b).log = s.log := rfl
@[simp] theorem State.setFlag_scr (s : State) (f : Fld) (b : Bool) : (s.setFlag f b).scr = s.scr := rfl
@[simp] theorem State.setFlag_pwm (s : State) (f : Fld) (b : Bool) : (s.setFlag f b).pwm = s.pwm := rfl
@[simp] theorem State.setFlag_lpe (s : State) (f : Fld) (b : Bool) : (s.setFlag f b).lpe = s.lpe := rfl
@[simp] theorem State.setFlag_sense (s : State) (f : Fld) (b : Bool) : (s.setFlag f b).sense = s.sense := rfl
@[simp] theorem State.setFlag_red (s : State) (f : Fld) (b : Bool) : (s.setFlag f b).red = s.red := rfl
@[simp] theorem State.setFlag_saf (s : State) (f : Fld) (b : Bool) : (s.setFlag f b).saf = s.saf := rfl
@[simp] theorem State.setFlag_mgt (s : State) (f : Fld) (b : Bool) : (s.setFlag f b).mgt = s.mgt := rfl
@[simp] theorem State.setFlag_sec (s : State) (f : Fld) (b : Bool) : (s.setFlag f b).sec = s.sec := rfl
@[simp] theorem State.setFlag_fuse (s : State) (f : Fld) (b : Bool) : (s.setFlag f b).fuse = s.fuse := rfl
@[simp] theorem State.setFlag_geo (s : State) (f : Fld) (b : Bool) : (s.setFlag f b).geo = s.geo := rfl
@[simp] theorem State.setFlag_clk (s : State) (f : Fld) (b : Bool) : (s.setFlag f b).clk = s.clk := rfl
@[simp] theorem State.setFlag_pwr (s : State) (f : Fld) (b : Bool) : (s.setFlag f b).pwr = s.pwr := rfl
@[simp] theorem State.setFlag_eth (s : State) (f : Fld) (b : Bool) : (s.setFlag f b).eth = s.eth := rfl
@[simp] theorem State.setFlag_ser (s : State) (f : Fld) (b : Bool) : (s.setFlag f b).ser = s.ser := rfl
@[simp] theorem State.setFlag_pin (s : State) (f : Fld) (b : Bool) : (s.setFlag f b).pin = s.pin := rfl
@[simp] theorem State.setFlag_out (s : State) (f : Fld) (b : Bool) : (s.setFlag f b).out = s.out := rfl
@[simp] theorem State.setFlag_free (s : State) (f : Fld) (b : Bool) : (s.setFlag f b).free = s.free := rfl
@[simp] theorem State.setFlag_pending (s : State) (f : Fld) (b : Bool) : (s.setFlag f b).pending = s.pending := rfl

/-! ## setIf -/

@[simp] theorem State.setIf_sram (s : State) (c : Bool) (f : Fld) (v : Nat) : (s.setIf c f v).sram = s.sram := by cases c <;> rfl
@[simp] theorem State.setIf_cap (s : State) (c : Bool) (f : Fld) (v : Nat) : (s.setIf c f v).cap = s.cap := by cases c <;> rfl
@[simp] theorem State.setIf_flash (s : State) (c : Bool) (f : Fld) (v : Nat) : (s.setIf c f v).flash = s.flash := by cases c <;> rfl
@[simp] theorem State.setIf_time (s : State) (c : Bool) (f : Fld) (v : Nat) : (s.setIf c f v).time = s.time := by cases c <;> rfl
@[simp] theorem State.setIf_link (s : State) (c : Bool) (f : Fld) (v : Nat) : (s.setIf c f v).link = s.link := by cases c <;> rfl
@[simp] theorem State.setIf_cnv (s : State) (c : Bool) (f : Fld) (v : Nat) : (s.setIf c f v).cnv = s.cnv := by cases c <;> rfl
@[simp] theorem State.setIf_rst (s : State) (c : Bool) (f : Fld) (v : Nat) : (s.setIf c f v).rst = s.rst := by cases c <;> rfl
@[simp] theorem State.setIf_sys (s : State) (c : Bool) (f : Fld) (v : Nat) : (s.setIf c f v).sys = s.sys := by cases c <;> rfl
@[simp] theorem State.setIf_log (s : State) (c : Bool) (f : Fld) (v : Nat) : (s.setIf c f v).log = s.log := by cases c <;> rfl
@[simp] theorem State.setIf_scr (s : State) (c : Bool) (f : Fld) (v : Nat) : (s.setIf c f v).scr = s.scr := by cases c <;> rfl
@[simp] theorem State.setIf_pwm (s : State) (c : Bool) (f : Fld) (v : Nat) : (s.setIf c f v).pwm = s.pwm := by cases c <;> rfl
@[simp] theorem State.setIf_lpe (s : State) (c : Bool) (f : Fld) (v : Nat) : (s.setIf c f v).lpe = s.lpe := by cases c <;> rfl
@[simp] theorem State.setIf_sense (s : State) (c : Bool) (f : Fld) (v : Nat) : (s.setIf c f v).sense = s.sense := by cases c <;> rfl
@[simp] theorem State.setIf_red (s : State) (c : Bool) (f : Fld) (v : Nat) : (s.setIf c f v).red = s.red := by cases c <;> rfl
@[simp] theorem State.setIf_saf (s : State) (c : Bool) (f : Fld) (v : Nat) : (s.setIf c f v).saf = s.saf := by cases c <;> rfl
@[simp] theorem State.setIf_mgt (s : State) (c : Bool) (f : Fld) (v : Nat) : (s.setIf c f v).mgt = s.mgt := by cases c <;> rfl
@[simp] theorem State.setIf_sec (s : State) (c : Bool) (f : Fld) (v : Nat) : (s.setIf c f v).sec = s.sec := by cases c <;> rfl
@[simp] theorem State.setIf_fuse (s : State) (c : Bool) (f : Fld) (v : Nat) : (s.setIf c f v).fuse = s.fuse := by cases c <;> rfl
@[simp] theorem State.setIf_geo (s : State) (c : Bool) (f : Fld) (v : Nat) : (s.setIf c f v).geo = s.geo := by cases c <;> rfl
@[simp] theorem State.setIf_clk (s : State) (c : Bool) (f : Fld) (v : Nat) : (s.setIf c f v).clk = s.clk := by cases c <;> rfl
@[simp] theorem State.setIf_pwr (s : State) (c : Bool) (f : Fld) (v : Nat) : (s.setIf c f v).pwr = s.pwr := by cases c <;> rfl
@[simp] theorem State.setIf_eth (s : State) (c : Bool) (f : Fld) (v : Nat) : (s.setIf c f v).eth = s.eth := by cases c <;> rfl
@[simp] theorem State.setIf_ser (s : State) (c : Bool) (f : Fld) (v : Nat) : (s.setIf c f v).ser = s.ser := by cases c <;> rfl
@[simp] theorem State.setIf_pin (s : State) (c : Bool) (f : Fld) (v : Nat) : (s.setIf c f v).pin = s.pin := by cases c <;> rfl
@[simp] theorem State.setIf_out (s : State) (c : Bool) (f : Fld) (v : Nat) : (s.setIf c f v).out = s.out := by cases c <;> rfl
@[simp] theorem State.setIf_free (s : State) (c : Bool) (f : Fld) (v : Nat) : (s.setIf c f v).free = s.free := by cases c <;> rfl
@[simp] theorem State.setIf_pending (s : State) (c : Bool) (f : Fld) (v : Nat) : (s.setIf c f v).pending = s.pending := by cases c <;> rfl

/-! ## stick -/

@[simp] theorem State.stick_sram (s : State) (f : Fld) : (s.stick f).sram = s.sram := rfl
@[simp] theorem State.stick_cap (s : State) (f : Fld) : (s.stick f).cap = s.cap := rfl
@[simp] theorem State.stick_flash (s : State) (f : Fld) : (s.stick f).flash = s.flash := rfl
@[simp] theorem State.stick_time (s : State) (f : Fld) : (s.stick f).time = s.time := rfl
@[simp] theorem State.stick_link (s : State) (f : Fld) : (s.stick f).link = s.link := rfl
@[simp] theorem State.stick_cnv (s : State) (f : Fld) : (s.stick f).cnv = s.cnv := rfl
@[simp] theorem State.stick_rst (s : State) (f : Fld) : (s.stick f).rst = s.rst := rfl
@[simp] theorem State.stick_log (s : State) (f : Fld) : (s.stick f).log = s.log := rfl
@[simp] theorem State.stick_scr (s : State) (f : Fld) : (s.stick f).scr = s.scr := rfl
@[simp] theorem State.stick_pwm (s : State) (f : Fld) : (s.stick f).pwm = s.pwm := rfl
@[simp] theorem State.stick_lpe (s : State) (f : Fld) : (s.stick f).lpe = s.lpe := rfl
@[simp] theorem State.stick_sense (s : State) (f : Fld) : (s.stick f).sense = s.sense := rfl
@[simp] theorem State.stick_red (s : State) (f : Fld) : (s.stick f).red = s.red := rfl
@[simp] theorem State.stick_saf (s : State) (f : Fld) : (s.stick f).saf = s.saf := rfl
@[simp] theorem State.stick_mgt (s : State) (f : Fld) : (s.stick f).mgt = s.mgt := rfl
@[simp] theorem State.stick_sec (s : State) (f : Fld) : (s.stick f).sec = s.sec := rfl
@[simp] theorem State.stick_fuse (s : State) (f : Fld) : (s.stick f).fuse = s.fuse := rfl
@[simp] theorem State.stick_geo (s : State) (f : Fld) : (s.stick f).geo = s.geo := rfl
@[simp] theorem State.stick_clk (s : State) (f : Fld) : (s.stick f).clk = s.clk := rfl
@[simp] theorem State.stick_pwr (s : State) (f : Fld) : (s.stick f).pwr = s.pwr := rfl
@[simp] theorem State.stick_eth (s : State) (f : Fld) : (s.stick f).eth = s.eth := rfl
@[simp] theorem State.stick_ser (s : State) (f : Fld) : (s.stick f).ser = s.ser := rfl
@[simp] theorem State.stick_pin (s : State) (f : Fld) : (s.stick f).pin = s.pin := rfl
@[simp] theorem State.stick_out (s : State) (f : Fld) : (s.stick f).out = s.out := rfl
@[simp] theorem State.stick_free (s : State) (f : Fld) : (s.stick f).free = s.free := rfl
@[simp] theorem State.stick_pending (s : State) (f : Fld) : (s.stick f).pending = s.pending := rfl

/-! ## stickIf -/

@[simp] theorem State.stickIf_sram (s : State) (c : Bool) (f : Fld) : (s.stickIf c f).sram = s.sram := by cases c <;> rfl
@[simp] theorem State.stickIf_cap (s : State) (c : Bool) (f : Fld) : (s.stickIf c f).cap = s.cap := by cases c <;> rfl
@[simp] theorem State.stickIf_flash (s : State) (c : Bool) (f : Fld) : (s.stickIf c f).flash = s.flash := by cases c <;> rfl
@[simp] theorem State.stickIf_time (s : State) (c : Bool) (f : Fld) : (s.stickIf c f).time = s.time := by cases c <;> rfl
@[simp] theorem State.stickIf_link (s : State) (c : Bool) (f : Fld) : (s.stickIf c f).link = s.link := by cases c <;> rfl
@[simp] theorem State.stickIf_cnv (s : State) (c : Bool) (f : Fld) : (s.stickIf c f).cnv = s.cnv := by cases c <;> rfl
@[simp] theorem State.stickIf_rst (s : State) (c : Bool) (f : Fld) : (s.stickIf c f).rst = s.rst := by cases c <;> rfl
@[simp] theorem State.stickIf_log (s : State) (c : Bool) (f : Fld) : (s.stickIf c f).log = s.log := by cases c <;> rfl
@[simp] theorem State.stickIf_scr (s : State) (c : Bool) (f : Fld) : (s.stickIf c f).scr = s.scr := by cases c <;> rfl
@[simp] theorem State.stickIf_pwm (s : State) (c : Bool) (f : Fld) : (s.stickIf c f).pwm = s.pwm := by cases c <;> rfl
@[simp] theorem State.stickIf_lpe (s : State) (c : Bool) (f : Fld) : (s.stickIf c f).lpe = s.lpe := by cases c <;> rfl
@[simp] theorem State.stickIf_sense (s : State) (c : Bool) (f : Fld) : (s.stickIf c f).sense = s.sense := by cases c <;> rfl
@[simp] theorem State.stickIf_red (s : State) (c : Bool) (f : Fld) : (s.stickIf c f).red = s.red := by cases c <;> rfl
@[simp] theorem State.stickIf_saf (s : State) (c : Bool) (f : Fld) : (s.stickIf c f).saf = s.saf := by cases c <;> rfl
@[simp] theorem State.stickIf_mgt (s : State) (c : Bool) (f : Fld) : (s.stickIf c f).mgt = s.mgt := by cases c <;> rfl
@[simp] theorem State.stickIf_sec (s : State) (c : Bool) (f : Fld) : (s.stickIf c f).sec = s.sec := by cases c <;> rfl
@[simp] theorem State.stickIf_fuse (s : State) (c : Bool) (f : Fld) : (s.stickIf c f).fuse = s.fuse := by cases c <;> rfl
@[simp] theorem State.stickIf_geo (s : State) (c : Bool) (f : Fld) : (s.stickIf c f).geo = s.geo := by cases c <;> rfl
@[simp] theorem State.stickIf_clk (s : State) (c : Bool) (f : Fld) : (s.stickIf c f).clk = s.clk := by cases c <;> rfl
@[simp] theorem State.stickIf_pwr (s : State) (c : Bool) (f : Fld) : (s.stickIf c f).pwr = s.pwr := by cases c <;> rfl
@[simp] theorem State.stickIf_eth (s : State) (c : Bool) (f : Fld) : (s.stickIf c f).eth = s.eth := by cases c <;> rfl
@[simp] theorem State.stickIf_ser (s : State) (c : Bool) (f : Fld) : (s.stickIf c f).ser = s.ser := by cases c <;> rfl
@[simp] theorem State.stickIf_pin (s : State) (c : Bool) (f : Fld) : (s.stickIf c f).pin = s.pin := by cases c <;> rfl
@[simp] theorem State.stickIf_out (s : State) (c : Bool) (f : Fld) : (s.stickIf c f).out = s.out := by cases c <;> rfl
@[simp] theorem State.stickIf_free (s : State) (c : Bool) (f : Fld) : (s.stickIf c f).free = s.free := by cases c <;> rfl
@[simp] theorem State.stickIf_pending (s : State) (c : Bool) (f : Fld) : (s.stickIf c f).pending = s.pending := by cases c <;> rfl

/-! ## add -/

@[simp] theorem State.add_sram (s : State) (f : Fld) (n : Nat) : (s.add f n).sram = s.sram := rfl
@[simp] theorem State.add_cap (s : State) (f : Fld) (n : Nat) : (s.add f n).cap = s.cap := rfl
@[simp] theorem State.add_flash (s : State) (f : Fld) (n : Nat) : (s.add f n).flash = s.flash := rfl
@[simp] theorem State.add_time (s : State) (f : Fld) (n : Nat) : (s.add f n).time = s.time := rfl
@[simp] theorem State.add_link (s : State) (f : Fld) (n : Nat) : (s.add f n).link = s.link := rfl
@[simp] theorem State.add_cnv (s : State) (f : Fld) (n : Nat) : (s.add f n).cnv = s.cnv := rfl
@[simp] theorem State.add_rst (s : State) (f : Fld) (n : Nat) : (s.add f n).rst = s.rst := rfl
@[simp] theorem State.add_sys (s : State) (f : Fld) (n : Nat) : (s.add f n).sys = s.sys := rfl
@[simp] theorem State.add_log (s : State) (f : Fld) (n : Nat) : (s.add f n).log = s.log := rfl
@[simp] theorem State.add_scr (s : State) (f : Fld) (n : Nat) : (s.add f n).scr = s.scr := rfl
@[simp] theorem State.add_pwm (s : State) (f : Fld) (n : Nat) : (s.add f n).pwm = s.pwm := rfl
@[simp] theorem State.add_lpe (s : State) (f : Fld) (n : Nat) : (s.add f n).lpe = s.lpe := rfl
@[simp] theorem State.add_sense (s : State) (f : Fld) (n : Nat) : (s.add f n).sense = s.sense := rfl
@[simp] theorem State.add_red (s : State) (f : Fld) (n : Nat) : (s.add f n).red = s.red := rfl
@[simp] theorem State.add_saf (s : State) (f : Fld) (n : Nat) : (s.add f n).saf = s.saf := rfl
@[simp] theorem State.add_mgt (s : State) (f : Fld) (n : Nat) : (s.add f n).mgt = s.mgt := rfl
@[simp] theorem State.add_sec (s : State) (f : Fld) (n : Nat) : (s.add f n).sec = s.sec := rfl
@[simp] theorem State.add_fuse (s : State) (f : Fld) (n : Nat) : (s.add f n).fuse = s.fuse := rfl
@[simp] theorem State.add_geo (s : State) (f : Fld) (n : Nat) : (s.add f n).geo = s.geo := rfl
@[simp] theorem State.add_clk (s : State) (f : Fld) (n : Nat) : (s.add f n).clk = s.clk := rfl
@[simp] theorem State.add_pwr (s : State) (f : Fld) (n : Nat) : (s.add f n).pwr = s.pwr := rfl
@[simp] theorem State.add_eth (s : State) (f : Fld) (n : Nat) : (s.add f n).eth = s.eth := rfl
@[simp] theorem State.add_ser (s : State) (f : Fld) (n : Nat) : (s.add f n).ser = s.ser := rfl
@[simp] theorem State.add_pin (s : State) (f : Fld) (n : Nat) : (s.add f n).pin = s.pin := rfl
@[simp] theorem State.add_out (s : State) (f : Fld) (n : Nat) : (s.add f n).out = s.out := rfl
@[simp] theorem State.add_free (s : State) (f : Fld) (n : Nat) : (s.add f n).free = s.free := rfl
@[simp] theorem State.add_pending (s : State) (f : Fld) (n : Nat) : (s.add f n).pending = s.pending := rfl

/-! ## inc -/

@[simp] theorem State.inc_sram (s : State) (f : Fld) : (s.inc f).sram = s.sram := rfl
@[simp] theorem State.inc_cap (s : State) (f : Fld) : (s.inc f).cap = s.cap := rfl
@[simp] theorem State.inc_flash (s : State) (f : Fld) : (s.inc f).flash = s.flash := rfl
@[simp] theorem State.inc_time (s : State) (f : Fld) : (s.inc f).time = s.time := rfl
@[simp] theorem State.inc_link (s : State) (f : Fld) : (s.inc f).link = s.link := rfl
@[simp] theorem State.inc_cnv (s : State) (f : Fld) : (s.inc f).cnv = s.cnv := rfl
@[simp] theorem State.inc_rst (s : State) (f : Fld) : (s.inc f).rst = s.rst := rfl
@[simp] theorem State.inc_sys (s : State) (f : Fld) : (s.inc f).sys = s.sys := rfl
@[simp] theorem State.inc_log (s : State) (f : Fld) : (s.inc f).log = s.log := rfl
@[simp] theorem State.inc_scr (s : State) (f : Fld) : (s.inc f).scr = s.scr := rfl
@[simp] theorem State.inc_pwm (s : State) (f : Fld) : (s.inc f).pwm = s.pwm := rfl
@[simp] theorem State.inc_lpe (s : State) (f : Fld) : (s.inc f).lpe = s.lpe := rfl
@[simp] theorem State.inc_sense (s : State) (f : Fld) : (s.inc f).sense = s.sense := rfl
@[simp] theorem State.inc_red (s : State) (f : Fld) : (s.inc f).red = s.red := rfl
@[simp] theorem State.inc_saf (s : State) (f : Fld) : (s.inc f).saf = s.saf := rfl
@[simp] theorem State.inc_mgt (s : State) (f : Fld) : (s.inc f).mgt = s.mgt := rfl
@[simp] theorem State.inc_sec (s : State) (f : Fld) : (s.inc f).sec = s.sec := rfl
@[simp] theorem State.inc_fuse (s : State) (f : Fld) : (s.inc f).fuse = s.fuse := rfl
@[simp] theorem State.inc_geo (s : State) (f : Fld) : (s.inc f).geo = s.geo := rfl
@[simp] theorem State.inc_clk (s : State) (f : Fld) : (s.inc f).clk = s.clk := rfl
@[simp] theorem State.inc_pwr (s : State) (f : Fld) : (s.inc f).pwr = s.pwr := rfl
@[simp] theorem State.inc_eth (s : State) (f : Fld) : (s.inc f).eth = s.eth := rfl
@[simp] theorem State.inc_ser (s : State) (f : Fld) : (s.inc f).ser = s.ser := rfl
@[simp] theorem State.inc_pin (s : State) (f : Fld) : (s.inc f).pin = s.pin := rfl
@[simp] theorem State.inc_out (s : State) (f : Fld) : (s.inc f).out = s.out := rfl
@[simp] theorem State.inc_free (s : State) (f : Fld) : (s.inc f).free = s.free := rfl
@[simp] theorem State.inc_pending (s : State) (f : Fld) : (s.inc f).pending = s.pending := rfl

/-! ## wrap -/

@[simp] theorem State.wrap_sram (s : State) (f : Fld) : (s.wrap f).sram = s.sram := rfl
@[simp] theorem State.wrap_cap (s : State) (f : Fld) : (s.wrap f).cap = s.cap := rfl
@[simp] theorem State.wrap_flash (s : State) (f : Fld) : (s.wrap f).flash = s.flash := rfl
@[simp] theorem State.wrap_time (s : State) (f : Fld) : (s.wrap f).time = s.time := rfl
@[simp] theorem State.wrap_link (s : State) (f : Fld) : (s.wrap f).link = s.link := rfl
@[simp] theorem State.wrap_cnv (s : State) (f : Fld) : (s.wrap f).cnv = s.cnv := rfl
@[simp] theorem State.wrap_rst (s : State) (f : Fld) : (s.wrap f).rst = s.rst := rfl
@[simp] theorem State.wrap_sys (s : State) (f : Fld) : (s.wrap f).sys = s.sys := rfl
@[simp] theorem State.wrap_log (s : State) (f : Fld) : (s.wrap f).log = s.log := rfl
@[simp] theorem State.wrap_scr (s : State) (f : Fld) : (s.wrap f).scr = s.scr := rfl
@[simp] theorem State.wrap_pwm (s : State) (f : Fld) : (s.wrap f).pwm = s.pwm := rfl
@[simp] theorem State.wrap_lpe (s : State) (f : Fld) : (s.wrap f).lpe = s.lpe := rfl
@[simp] theorem State.wrap_sense (s : State) (f : Fld) : (s.wrap f).sense = s.sense := rfl
@[simp] theorem State.wrap_red (s : State) (f : Fld) : (s.wrap f).red = s.red := rfl
@[simp] theorem State.wrap_saf (s : State) (f : Fld) : (s.wrap f).saf = s.saf := rfl
@[simp] theorem State.wrap_mgt (s : State) (f : Fld) : (s.wrap f).mgt = s.mgt := rfl
@[simp] theorem State.wrap_sec (s : State) (f : Fld) : (s.wrap f).sec = s.sec := rfl
@[simp] theorem State.wrap_fuse (s : State) (f : Fld) : (s.wrap f).fuse = s.fuse := rfl
@[simp] theorem State.wrap_geo (s : State) (f : Fld) : (s.wrap f).geo = s.geo := rfl
@[simp] theorem State.wrap_clk (s : State) (f : Fld) : (s.wrap f).clk = s.clk := rfl
@[simp] theorem State.wrap_pwr (s : State) (f : Fld) : (s.wrap f).pwr = s.pwr := rfl
@[simp] theorem State.wrap_eth (s : State) (f : Fld) : (s.wrap f).eth = s.eth := rfl
@[simp] theorem State.wrap_ser (s : State) (f : Fld) : (s.wrap f).ser = s.ser := rfl
@[simp] theorem State.wrap_pin (s : State) (f : Fld) : (s.wrap f).pin = s.pin := rfl
@[simp] theorem State.wrap_out (s : State) (f : Fld) : (s.wrap f).out = s.out := rfl
@[simp] theorem State.wrap_free (s : State) (f : Fld) : (s.wrap f).free = s.free := rfl
@[simp] theorem State.wrap_pending (s : State) (f : Fld) : (s.wrap f).pending = s.pending := rfl

/-! ## setPair -/

@[simp] theorem State.setPair_sram (s : State) (l h : Fld) (v : Nat) : (s.setPair l h v).sram = s.sram := rfl
@[simp] theorem State.setPair_cap (s : State) (l h : Fld) (v : Nat) : (s.setPair l h v).cap = s.cap := rfl
@[simp] theorem State.setPair_flash (s : State) (l h : Fld) (v : Nat) : (s.setPair l h v).flash = s.flash := rfl
@[simp] theorem State.setPair_time (s : State) (l h : Fld) (v : Nat) : (s.setPair l h v).time = s.time := rfl
@[simp] theorem State.setPair_link (s : State) (l h : Fld) (v : Nat) : (s.setPair l h v).link = s.link := rfl
@[simp] theorem State.setPair_cnv (s : State) (l h : Fld) (v : Nat) : (s.setPair l h v).cnv = s.cnv := rfl
@[simp] theorem State.setPair_rst (s : State) (l h : Fld) (v : Nat) : (s.setPair l h v).rst = s.rst := rfl
@[simp] theorem State.setPair_sys (s : State) (l h : Fld) (v : Nat) : (s.setPair l h v).sys = s.sys := rfl
@[simp] theorem State.setPair_log (s : State) (l h : Fld) (v : Nat) : (s.setPair l h v).log = s.log := rfl
@[simp] theorem State.setPair_scr (s : State) (l h : Fld) (v : Nat) : (s.setPair l h v).scr = s.scr := rfl
@[simp] theorem State.setPair_pwm (s : State) (l h : Fld) (v : Nat) : (s.setPair l h v).pwm = s.pwm := rfl
@[simp] theorem State.setPair_lpe (s : State) (l h : Fld) (v : Nat) : (s.setPair l h v).lpe = s.lpe := rfl
@[simp] theorem State.setPair_sense (s : State) (l h : Fld) (v : Nat) : (s.setPair l h v).sense = s.sense := rfl
@[simp] theorem State.setPair_red (s : State) (l h : Fld) (v : Nat) : (s.setPair l h v).red = s.red := rfl
@[simp] theorem State.setPair_saf (s : State) (l h : Fld) (v : Nat) : (s.setPair l h v).saf = s.saf := rfl
@[simp] theorem State.setPair_mgt (s : State) (l h : Fld) (v : Nat) : (s.setPair l h v).mgt = s.mgt := rfl
@[simp] theorem State.setPair_sec (s : State) (l h : Fld) (v : Nat) : (s.setPair l h v).sec = s.sec := rfl
@[simp] theorem State.setPair_fuse (s : State) (l h : Fld) (v : Nat) : (s.setPair l h v).fuse = s.fuse := rfl
@[simp] theorem State.setPair_geo (s : State) (l h : Fld) (v : Nat) : (s.setPair l h v).geo = s.geo := rfl
@[simp] theorem State.setPair_clk (s : State) (l h : Fld) (v : Nat) : (s.setPair l h v).clk = s.clk := rfl
@[simp] theorem State.setPair_pwr (s : State) (l h : Fld) (v : Nat) : (s.setPair l h v).pwr = s.pwr := rfl
@[simp] theorem State.setPair_eth (s : State) (l h : Fld) (v : Nat) : (s.setPair l h v).eth = s.eth := rfl
@[simp] theorem State.setPair_ser (s : State) (l h : Fld) (v : Nat) : (s.setPair l h v).ser = s.ser := rfl
@[simp] theorem State.setPair_pin (s : State) (l h : Fld) (v : Nat) : (s.setPair l h v).pin = s.pin := rfl
@[simp] theorem State.setPair_out (s : State) (l h : Fld) (v : Nat) : (s.setPair l h v).out = s.out := rfl
@[simp] theorem State.setPair_free (s : State) (l h : Fld) (v : Nat) : (s.setPair l h v).free = s.free := rfl
@[simp] theorem State.setPair_pending (s : State) (l h : Fld) (v : Nat) : (s.setPair l h v).pending = s.pending := rfl

/-! ## setBit -/

@[simp] theorem State.setBit_sram (s : State) (f : Fld) (i : Nat) (b : Bool) : (s.setBit f i b).sram = s.sram := rfl
@[simp] theorem State.setBit_cap (s : State) (f : Fld) (i : Nat) (b : Bool) : (s.setBit f i b).cap = s.cap := rfl
@[simp] theorem State.setBit_flash (s : State) (f : Fld) (i : Nat) (b : Bool) : (s.setBit f i b).flash = s.flash := rfl
@[simp] theorem State.setBit_time (s : State) (f : Fld) (i : Nat) (b : Bool) : (s.setBit f i b).time = s.time := rfl
@[simp] theorem State.setBit_link (s : State) (f : Fld) (i : Nat) (b : Bool) : (s.setBit f i b).link = s.link := rfl
@[simp] theorem State.setBit_cnv (s : State) (f : Fld) (i : Nat) (b : Bool) : (s.setBit f i b).cnv = s.cnv := rfl
@[simp] theorem State.setBit_rst (s : State) (f : Fld) (i : Nat) (b : Bool) : (s.setBit f i b).rst = s.rst := rfl
@[simp] theorem State.setBit_sys (s : State) (f : Fld) (i : Nat) (b : Bool) : (s.setBit f i b).sys = s.sys := rfl
@[simp] theorem State.setBit_log (s : State) (f : Fld) (i : Nat) (b : Bool) : (s.setBit f i b).log = s.log := rfl
@[simp] theorem State.setBit_scr (s : State) (f : Fld) (i : Nat) (b : Bool) : (s.setBit f i b).scr = s.scr := rfl
@[simp] theorem State.setBit_pwm (s : State) (f : Fld) (i : Nat) (b : Bool) : (s.setBit f i b).pwm = s.pwm := rfl
@[simp] theorem State.setBit_lpe (s : State) (f : Fld) (i : Nat) (b : Bool) : (s.setBit f i b).lpe = s.lpe := rfl
@[simp] theorem State.setBit_sense (s : State) (f : Fld) (i : Nat) (b : Bool) : (s.setBit f i b).sense = s.sense := rfl
@[simp] theorem State.setBit_red (s : State) (f : Fld) (i : Nat) (b : Bool) : (s.setBit f i b).red = s.red := rfl
@[simp] theorem State.setBit_saf (s : State) (f : Fld) (i : Nat) (b : Bool) : (s.setBit f i b).saf = s.saf := rfl
@[simp] theorem State.setBit_mgt (s : State) (f : Fld) (i : Nat) (b : Bool) : (s.setBit f i b).mgt = s.mgt := rfl
@[simp] theorem State.setBit_sec (s : State) (f : Fld) (i : Nat) (b : Bool) : (s.setBit f i b).sec = s.sec := rfl
@[simp] theorem State.setBit_fuse (s : State) (f : Fld) (i : Nat) (b : Bool) : (s.setBit f i b).fuse = s.fuse := rfl
@[simp] theorem State.setBit_geo (s : State) (f : Fld) (i : Nat) (b : Bool) : (s.setBit f i b).geo = s.geo := rfl
@[simp] theorem State.setBit_clk (s : State) (f : Fld) (i : Nat) (b : Bool) : (s.setBit f i b).clk = s.clk := rfl
@[simp] theorem State.setBit_pwr (s : State) (f : Fld) (i : Nat) (b : Bool) : (s.setBit f i b).pwr = s.pwr := rfl
@[simp] theorem State.setBit_eth (s : State) (f : Fld) (i : Nat) (b : Bool) : (s.setBit f i b).eth = s.eth := rfl
@[simp] theorem State.setBit_ser (s : State) (f : Fld) (i : Nat) (b : Bool) : (s.setBit f i b).ser = s.ser := rfl
@[simp] theorem State.setBit_pin (s : State) (f : Fld) (i : Nat) (b : Bool) : (s.setBit f i b).pin = s.pin := rfl
@[simp] theorem State.setBit_out (s : State) (f : Fld) (i : Nat) (b : Bool) : (s.setBit f i b).out = s.out := rfl
@[simp] theorem State.setBit_free (s : State) (f : Fld) (i : Nat) (b : Bool) : (s.setBit f i b).free = s.free := rfl
@[simp] theorem State.setBit_pending (s : State) (f : Fld) (i : Nat) (b : Bool) : (s.setBit f i b).pending = s.pending := rfl

/-! ## flashPut -/

@[simp] theorem State.flashPut_regs (s : State) (a : Nat) (bs : List Byte) : (s.flashPut a bs).regs = s.regs := rfl
@[simp] theorem State.flashPut_sram (s : State) (a : Nat) (bs : List Byte) : (s.flashPut a bs).sram = s.sram := rfl
@[simp] theorem State.flashPut_cap (s : State) (a : Nat) (bs : List Byte) : (s.flashPut a bs).cap = s.cap := rfl
@[simp] theorem State.flashPut_time (s : State) (a : Nat) (bs : List Byte) : (s.flashPut a bs).time = s.time := rfl
@[simp] theorem State.flashPut_link (s : State) (a : Nat) (bs : List Byte) : (s.flashPut a bs).link = s.link := rfl
@[simp] theorem State.flashPut_cnv (s : State) (a : Nat) (bs : List Byte) : (s.flashPut a bs).cnv = s.cnv := rfl
@[simp] theorem State.flashPut_rst (s : State) (a : Nat) (bs : List Byte) : (s.flashPut a bs).rst = s.rst := rfl
@[simp] theorem State.flashPut_sys (s : State) (a : Nat) (bs : List Byte) : (s.flashPut a bs).sys = s.sys := rfl
@[simp] theorem State.flashPut_log (s : State) (a : Nat) (bs : List Byte) : (s.flashPut a bs).log = s.log := rfl
@[simp] theorem State.flashPut_scr (s : State) (a : Nat) (bs : List Byte) : (s.flashPut a bs).scr = s.scr := rfl
@[simp] theorem State.flashPut_pwm (s : State) (a : Nat) (bs : List Byte) : (s.flashPut a bs).pwm = s.pwm := rfl
@[simp] theorem State.flashPut_lpe (s : State) (a : Nat) (bs : List Byte) : (s.flashPut a bs).lpe = s.lpe := rfl
@[simp] theorem State.flashPut_sense (s : State) (a : Nat) (bs : List Byte) : (s.flashPut a bs).sense = s.sense := rfl
@[simp] theorem State.flashPut_red (s : State) (a : Nat) (bs : List Byte) : (s.flashPut a bs).red = s.red := rfl
@[simp] theorem State.flashPut_saf (s : State) (a : Nat) (bs : List Byte) : (s.flashPut a bs).saf = s.saf := rfl
@[simp] theorem State.flashPut_mgt (s : State) (a : Nat) (bs : List Byte) : (s.flashPut a bs).mgt = s.mgt := rfl
@[simp] theorem State.flashPut_sec (s : State) (a : Nat) (bs : List Byte) : (s.flashPut a bs).sec = s.sec := rfl
@[simp] theorem State.flashPut_fuse (s : State) (a : Nat) (bs : List Byte) : (s.flashPut a bs).fuse = s.fuse := rfl
@[simp] theorem State.flashPut_geo (s : State) (a : Nat) (bs : List Byte) : (s.flashPut a bs).geo = s.geo := rfl
@[simp] theorem State.flashPut_clk (s : State) (a : Nat) (bs : List Byte) : (s.flashPut a bs).clk = s.clk := rfl
@[simp] theorem State.flashPut_pwr (s : State) (a : Nat) (bs : List Byte) : (s.flashPut a bs).pwr = s.pwr := rfl
@[simp] theorem State.flashPut_eth (s : State) (a : Nat) (bs : List Byte) : (s.flashPut a bs).eth = s.eth := rfl
@[simp] theorem State.flashPut_ser (s : State) (a : Nat) (bs : List Byte) : (s.flashPut a bs).ser = s.ser := rfl
@[simp] theorem State.flashPut_pin (s : State) (a : Nat) (bs : List Byte) : (s.flashPut a bs).pin = s.pin := rfl
@[simp] theorem State.flashPut_out (s : State) (a : Nat) (bs : List Byte) : (s.flashPut a bs).out = s.out := rfl
@[simp] theorem State.flashPut_free (s : State) (a : Nat) (bs : List Byte) : (s.flashPut a bs).free = s.free := rfl
@[simp] theorem State.flashPut_pending (s : State) (a : Nat) (bs : List Byte) : (s.flashPut a bs).pending = s.pending := rfl

/-! ## setLane -/

@[simp] theorem State.setLane_regs (s : State) (n : Nat) (l : LaneSt) : (s.setLane n l).regs = s.regs := rfl
@[simp] theorem State.setLane_sram (s : State) (n : Nat) (l : LaneSt) : (s.setLane n l).sram = s.sram := rfl
@[simp] theorem State.setLane_cap (s : State) (n : Nat) (l : LaneSt) : (s.setLane n l).cap = s.cap := rfl
@[simp] theorem State.setLane_flash (s : State) (n : Nat) (l : LaneSt) : (s.setLane n l).flash = s.flash := rfl
@[simp] theorem State.setLane_time (s : State) (n : Nat) (l : LaneSt) : (s.setLane n l).time = s.time := rfl
@[simp] theorem State.setLane_cnv (s : State) (n : Nat) (l : LaneSt) : (s.setLane n l).cnv = s.cnv := rfl
@[simp] theorem State.setLane_rst (s : State) (n : Nat) (l : LaneSt) : (s.setLane n l).rst = s.rst := rfl
@[simp] theorem State.setLane_sys (s : State) (n : Nat) (l : LaneSt) : (s.setLane n l).sys = s.sys := rfl
@[simp] theorem State.setLane_log (s : State) (n : Nat) (l : LaneSt) : (s.setLane n l).log = s.log := rfl
@[simp] theorem State.setLane_scr (s : State) (n : Nat) (l : LaneSt) : (s.setLane n l).scr = s.scr := rfl
@[simp] theorem State.setLane_pwm (s : State) (n : Nat) (l : LaneSt) : (s.setLane n l).pwm = s.pwm := rfl
@[simp] theorem State.setLane_lpe (s : State) (n : Nat) (l : LaneSt) : (s.setLane n l).lpe = s.lpe := rfl
@[simp] theorem State.setLane_sense (s : State) (n : Nat) (l : LaneSt) : (s.setLane n l).sense = s.sense := rfl
@[simp] theorem State.setLane_red (s : State) (n : Nat) (l : LaneSt) : (s.setLane n l).red = s.red := rfl
@[simp] theorem State.setLane_saf (s : State) (n : Nat) (l : LaneSt) : (s.setLane n l).saf = s.saf := rfl
@[simp] theorem State.setLane_mgt (s : State) (n : Nat) (l : LaneSt) : (s.setLane n l).mgt = s.mgt := rfl
@[simp] theorem State.setLane_sec (s : State) (n : Nat) (l : LaneSt) : (s.setLane n l).sec = s.sec := rfl
@[simp] theorem State.setLane_fuse (s : State) (n : Nat) (l : LaneSt) : (s.setLane n l).fuse = s.fuse := rfl
@[simp] theorem State.setLane_geo (s : State) (n : Nat) (l : LaneSt) : (s.setLane n l).geo = s.geo := rfl
@[simp] theorem State.setLane_clk (s : State) (n : Nat) (l : LaneSt) : (s.setLane n l).clk = s.clk := rfl
@[simp] theorem State.setLane_pwr (s : State) (n : Nat) (l : LaneSt) : (s.setLane n l).pwr = s.pwr := rfl
@[simp] theorem State.setLane_eth (s : State) (n : Nat) (l : LaneSt) : (s.setLane n l).eth = s.eth := rfl
@[simp] theorem State.setLane_ser (s : State) (n : Nat) (l : LaneSt) : (s.setLane n l).ser = s.ser := rfl
@[simp] theorem State.setLane_pin (s : State) (n : Nat) (l : LaneSt) : (s.setLane n l).pin = s.pin := rfl
@[simp] theorem State.setLane_out (s : State) (n : Nat) (l : LaneSt) : (s.setLane n l).out = s.out := rfl
@[simp] theorem State.setLane_free (s : State) (n : Nat) (l : LaneSt) : (s.setLane n l).free = s.free := rfl
@[simp] theorem State.setLane_pending (s : State) (n : Nat) (l : LaneSt) : (s.setLane n l).pending = s.pending := rfl

/-! ## modLane -/

@[simp] theorem State.modLane_regs (s : State) (n : Nat) (f : LaneSt → LaneSt) : (s.modLane n f).regs = s.regs := rfl
@[simp] theorem State.modLane_sram (s : State) (n : Nat) (f : LaneSt → LaneSt) : (s.modLane n f).sram = s.sram := rfl
@[simp] theorem State.modLane_cap (s : State) (n : Nat) (f : LaneSt → LaneSt) : (s.modLane n f).cap = s.cap := rfl
@[simp] theorem State.modLane_flash (s : State) (n : Nat) (f : LaneSt → LaneSt) : (s.modLane n f).flash = s.flash := rfl
@[simp] theorem State.modLane_time (s : State) (n : Nat) (f : LaneSt → LaneSt) : (s.modLane n f).time = s.time := rfl
@[simp] theorem State.modLane_cnv (s : State) (n : Nat) (f : LaneSt → LaneSt) : (s.modLane n f).cnv = s.cnv := rfl
@[simp] theorem State.modLane_rst (s : State) (n : Nat) (f : LaneSt → LaneSt) : (s.modLane n f).rst = s.rst := rfl
@[simp] theorem State.modLane_sys (s : State) (n : Nat) (f : LaneSt → LaneSt) : (s.modLane n f).sys = s.sys := rfl
@[simp] theorem State.modLane_log (s : State) (n : Nat) (f : LaneSt → LaneSt) : (s.modLane n f).log = s.log := rfl
@[simp] theorem State.modLane_scr (s : State) (n : Nat) (f : LaneSt → LaneSt) : (s.modLane n f).scr = s.scr := rfl
@[simp] theorem State.modLane_pwm (s : State) (n : Nat) (f : LaneSt → LaneSt) : (s.modLane n f).pwm = s.pwm := rfl
@[simp] theorem State.modLane_lpe (s : State) (n : Nat) (f : LaneSt → LaneSt) : (s.modLane n f).lpe = s.lpe := rfl
@[simp] theorem State.modLane_sense (s : State) (n : Nat) (f : LaneSt → LaneSt) : (s.modLane n f).sense = s.sense := rfl
@[simp] theorem State.modLane_red (s : State) (n : Nat) (f : LaneSt → LaneSt) : (s.modLane n f).red = s.red := rfl
@[simp] theorem State.modLane_saf (s : State) (n : Nat) (f : LaneSt → LaneSt) : (s.modLane n f).saf = s.saf := rfl
@[simp] theorem State.modLane_mgt (s : State) (n : Nat) (f : LaneSt → LaneSt) : (s.modLane n f).mgt = s.mgt := rfl
@[simp] theorem State.modLane_sec (s : State) (n : Nat) (f : LaneSt → LaneSt) : (s.modLane n f).sec = s.sec := rfl
@[simp] theorem State.modLane_fuse (s : State) (n : Nat) (f : LaneSt → LaneSt) : (s.modLane n f).fuse = s.fuse := rfl
@[simp] theorem State.modLane_geo (s : State) (n : Nat) (f : LaneSt → LaneSt) : (s.modLane n f).geo = s.geo := rfl
@[simp] theorem State.modLane_clk (s : State) (n : Nat) (f : LaneSt → LaneSt) : (s.modLane n f).clk = s.clk := rfl
@[simp] theorem State.modLane_pwr (s : State) (n : Nat) (f : LaneSt → LaneSt) : (s.modLane n f).pwr = s.pwr := rfl
@[simp] theorem State.modLane_eth (s : State) (n : Nat) (f : LaneSt → LaneSt) : (s.modLane n f).eth = s.eth := rfl
@[simp] theorem State.modLane_ser (s : State) (n : Nat) (f : LaneSt → LaneSt) : (s.modLane n f).ser = s.ser := rfl
@[simp] theorem State.modLane_pin (s : State) (n : Nat) (f : LaneSt → LaneSt) : (s.modLane n f).pin = s.pin := rfl
@[simp] theorem State.modLane_out (s : State) (n : Nat) (f : LaneSt → LaneSt) : (s.modLane n f).out = s.out := rfl
@[simp] theorem State.modLane_free (s : State) (n : Nat) (f : LaneSt → LaneSt) : (s.modLane n f).free = s.free := rfl
@[simp] theorem State.modLane_pending (s : State) (n : Nat) (f : LaneSt → LaneSt) : (s.modLane n f).pending = s.pending := rfl

/-! ## emit -/

@[simp] theorem State.emit_regs (s : State) (e : Emit) : (s.emit e).regs = s.regs := rfl
@[simp] theorem State.emit_sram (s : State) (e : Emit) : (s.emit e).sram = s.sram := rfl
@[simp] theorem State.emit_cap (s : State) (e : Emit) : (s.emit e).cap = s.cap := rfl
@[simp] theorem State.emit_flash (s : State) (e : Emit) : (s.emit e).flash = s.flash := rfl
@[simp] theorem State.emit_time (s : State) (e : Emit) : (s.emit e).time = s.time := rfl
@[simp] theorem State.emit_link (s : State) (e : Emit) : (s.emit e).link = s.link := rfl
@[simp] theorem State.emit_cnv (s : State) (e : Emit) : (s.emit e).cnv = s.cnv := rfl
@[simp] theorem State.emit_rst (s : State) (e : Emit) : (s.emit e).rst = s.rst := rfl
@[simp] theorem State.emit_sys (s : State) (e : Emit) : (s.emit e).sys = s.sys := rfl
@[simp] theorem State.emit_log (s : State) (e : Emit) : (s.emit e).log = s.log := rfl
@[simp] theorem State.emit_scr (s : State) (e : Emit) : (s.emit e).scr = s.scr := rfl
@[simp] theorem State.emit_pwm (s : State) (e : Emit) : (s.emit e).pwm = s.pwm := rfl
@[simp] theorem State.emit_lpe (s : State) (e : Emit) : (s.emit e).lpe = s.lpe := rfl
@[simp] theorem State.emit_sense (s : State) (e : Emit) : (s.emit e).sense = s.sense := rfl
@[simp] theorem State.emit_red (s : State) (e : Emit) : (s.emit e).red = s.red := rfl
@[simp] theorem State.emit_saf (s : State) (e : Emit) : (s.emit e).saf = s.saf := rfl
@[simp] theorem State.emit_mgt (s : State) (e : Emit) : (s.emit e).mgt = s.mgt := rfl
@[simp] theorem State.emit_sec (s : State) (e : Emit) : (s.emit e).sec = s.sec := rfl
@[simp] theorem State.emit_fuse (s : State) (e : Emit) : (s.emit e).fuse = s.fuse := rfl
@[simp] theorem State.emit_geo (s : State) (e : Emit) : (s.emit e).geo = s.geo := rfl
@[simp] theorem State.emit_clk (s : State) (e : Emit) : (s.emit e).clk = s.clk := rfl
@[simp] theorem State.emit_pwr (s : State) (e : Emit) : (s.emit e).pwr = s.pwr := rfl
@[simp] theorem State.emit_eth (s : State) (e : Emit) : (s.emit e).eth = s.eth := rfl
@[simp] theorem State.emit_ser (s : State) (e : Emit) : (s.emit e).ser = s.ser := rfl
@[simp] theorem State.emit_pin (s : State) (e : Emit) : (s.emit e).pin = s.pin := rfl
@[simp] theorem State.emit_free (s : State) (e : Emit) : (s.emit e).free = s.free := rfl
@[simp] theorem State.emit_pending (s : State) (e : Emit) : (s.emit e).pending = s.pending := rfl

/-! ## draw -/

@[simp] theorem State.draw_free (s : State) (w : Nat) : (s.draw w).2.free = s.free + 1 := rfl
@[simp] theorem State.draw_regs (s : State) (w : Nat) : (s.draw w).2.regs = s.regs := rfl
@[simp] theorem State.draw_sram (s : State) (w : Nat) : (s.draw w).2.sram = s.sram := rfl
@[simp] theorem State.draw_cap (s : State) (w : Nat) : (s.draw w).2.cap = s.cap := rfl
@[simp] theorem State.draw_flash (s : State) (w : Nat) : (s.draw w).2.flash = s.flash := rfl
@[simp] theorem State.draw_time (s : State) (w : Nat) : (s.draw w).2.time = s.time := rfl
@[simp] theorem State.draw_link (s : State) (w : Nat) : (s.draw w).2.link = s.link := rfl
@[simp] theorem State.draw_cnv (s : State) (w : Nat) : (s.draw w).2.cnv = s.cnv := rfl
@[simp] theorem State.draw_rst (s : State) (w : Nat) : (s.draw w).2.rst = s.rst := rfl
@[simp] theorem State.draw_sys (s : State) (w : Nat) : (s.draw w).2.sys = s.sys := rfl
@[simp] theorem State.draw_log (s : State) (w : Nat) : (s.draw w).2.log = s.log := rfl
@[simp] theorem State.draw_scr (s : State) (w : Nat) : (s.draw w).2.scr = s.scr := rfl
@[simp] theorem State.draw_pwm (s : State) (w : Nat) : (s.draw w).2.pwm = s.pwm := rfl
@[simp] theorem State.draw_lpe (s : State) (w : Nat) : (s.draw w).2.lpe = s.lpe := rfl
@[simp] theorem State.draw_sense (s : State) (w : Nat) : (s.draw w).2.sense = s.sense := rfl
@[simp] theorem State.draw_red (s : State) (w : Nat) : (s.draw w).2.red = s.red := rfl
@[simp] theorem State.draw_saf (s : State) (w : Nat) : (s.draw w).2.saf = s.saf := rfl
@[simp] theorem State.draw_mgt (s : State) (w : Nat) : (s.draw w).2.mgt = s.mgt := rfl
@[simp] theorem State.draw_sec (s : State) (w : Nat) : (s.draw w).2.sec = s.sec := rfl
@[simp] theorem State.draw_fuse (s : State) (w : Nat) : (s.draw w).2.fuse = s.fuse := rfl
@[simp] theorem State.draw_geo (s : State) (w : Nat) : (s.draw w).2.geo = s.geo := rfl
@[simp] theorem State.draw_clk (s : State) (w : Nat) : (s.draw w).2.clk = s.clk := rfl
@[simp] theorem State.draw_pwr (s : State) (w : Nat) : (s.draw w).2.pwr = s.pwr := rfl
@[simp] theorem State.draw_eth (s : State) (w : Nat) : (s.draw w).2.eth = s.eth := rfl
@[simp] theorem State.draw_ser (s : State) (w : Nat) : (s.draw w).2.ser = s.ser := rfl
@[simp] theorem State.draw_pin (s : State) (w : Nat) : (s.draw w).2.pin = s.pin := rfl
@[simp] theorem State.draw_out (s : State) (w : Nat) : (s.draw w).2.out = s.out := rfl
@[simp] theorem State.draw_pending (s : State) (w : Nat) : (s.draw w).2.pending = s.pending := rfl

/-! ## random -/

@[simp] theorem State.random_free (s : State) (n : Nat) : (s.random n).2.free = s.free + 1 := rfl
@[simp] theorem State.random_regs (s : State) (n : Nat) : (s.random n).2.regs = s.regs := rfl
@[simp] theorem State.random_sram (s : State) (n : Nat) : (s.random n).2.sram = s.sram := rfl
@[simp] theorem State.random_cap (s : State) (n : Nat) : (s.random n).2.cap = s.cap := rfl
@[simp] theorem State.random_flash (s : State) (n : Nat) : (s.random n).2.flash = s.flash := rfl
@[simp] theorem State.random_time (s : State) (n : Nat) : (s.random n).2.time = s.time := rfl
@[simp] theorem State.random_link (s : State) (n : Nat) : (s.random n).2.link = s.link := rfl
@[simp] theorem State.random_cnv (s : State) (n : Nat) : (s.random n).2.cnv = s.cnv := rfl
@[simp] theorem State.random_rst (s : State) (n : Nat) : (s.random n).2.rst = s.rst := rfl
@[simp] theorem State.random_sys (s : State) (n : Nat) : (s.random n).2.sys = s.sys := rfl
@[simp] theorem State.random_log (s : State) (n : Nat) : (s.random n).2.log = s.log := rfl
@[simp] theorem State.random_scr (s : State) (n : Nat) : (s.random n).2.scr = s.scr := rfl
@[simp] theorem State.random_pwm (s : State) (n : Nat) : (s.random n).2.pwm = s.pwm := rfl
@[simp] theorem State.random_lpe (s : State) (n : Nat) : (s.random n).2.lpe = s.lpe := rfl
@[simp] theorem State.random_sense (s : State) (n : Nat) : (s.random n).2.sense = s.sense := rfl
@[simp] theorem State.random_red (s : State) (n : Nat) : (s.random n).2.red = s.red := rfl
@[simp] theorem State.random_saf (s : State) (n : Nat) : (s.random n).2.saf = s.saf := rfl
@[simp] theorem State.random_mgt (s : State) (n : Nat) : (s.random n).2.mgt = s.mgt := rfl
@[simp] theorem State.random_sec (s : State) (n : Nat) : (s.random n).2.sec = s.sec := rfl
@[simp] theorem State.random_fuse (s : State) (n : Nat) : (s.random n).2.fuse = s.fuse := rfl
@[simp] theorem State.random_geo (s : State) (n : Nat) : (s.random n).2.geo = s.geo := rfl
@[simp] theorem State.random_clk (s : State) (n : Nat) : (s.random n).2.clk = s.clk := rfl
@[simp] theorem State.random_pwr (s : State) (n : Nat) : (s.random n).2.pwr = s.pwr := rfl
@[simp] theorem State.random_eth (s : State) (n : Nat) : (s.random n).2.eth = s.eth := rfl
@[simp] theorem State.random_ser (s : State) (n : Nat) : (s.random n).2.ser = s.ser := rfl
@[simp] theorem State.random_pin (s : State) (n : Nat) : (s.random n).2.pin = s.pin := rfl
@[simp] theorem State.random_out (s : State) (n : Nat) : (s.random n).2.out = s.out := rfl
@[simp] theorem State.random_pending (s : State) (n : Nat) : (s.random n).2.pending = s.pending := rfl

/-- A drawn value has the width asked for. -/
theorem State.draw_lt (s : State) (w : Nat) : (s.draw w).1 < 2 ^ w := Nat.mod_lt _ (Nat.two_pow_pos w)

/-! ## Memories under ECC -/

/-- Marking check bits answers the state it had, or that state with the injection used up. -/
theorem State.eccStored_cases (s : State) (g lo hi base : Nat) (m : SMap EccMark) :
    (s.eccStored g lo hi base m).2 = s ∨ (s.eccStored g lo hi base m).2 = s.set SYS.INJCTL.ARMED 0 := by
  unfold State.eccStored
  dsimp only
  split
  · exact .inr rfl
  · exact .inl rfl

/-! ## sramPut -/

@[simp] theorem State.sramPut_cap (s : State) (a : Nat) (bs : List Byte) : (s.sramPut a bs).cap = s.cap := by
  unfold State.sramPut
  split
  · rfl
  · rcases State.eccStored_cases s 0 ((a - sramBase) / 8) ((a + bs.length - 1 - sramBase) / 8) sramBase s.sys.eccSys with h | h <;> simp only [h, State.set_cap]
@[simp] theorem State.sramPut_flash (s : State) (a : Nat) (bs : List Byte) : (s.sramPut a bs).flash = s.flash := by
  unfold State.sramPut
  split
  · rfl
  · rcases State.eccStored_cases s 0 ((a - sramBase) / 8) ((a + bs.length - 1 - sramBase) / 8) sramBase s.sys.eccSys with h | h <;> simp only [h, State.set_flash]
@[simp] theorem State.sramPut_time (s : State) (a : Nat) (bs : List Byte) : (s.sramPut a bs).time = s.time := by
  unfold State.sramPut
  split
  · rfl
  · rcases State.eccStored_cases s 0 ((a - sramBase) / 8) ((a + bs.length - 1 - sramBase) / 8) sramBase s.sys.eccSys with h | h <;> simp only [h, State.set_time]
@[simp] theorem State.sramPut_link (s : State) (a : Nat) (bs : List Byte) : (s.sramPut a bs).link = s.link := by
  unfold State.sramPut
  split
  · rfl
  · rcases State.eccStored_cases s 0 ((a - sramBase) / 8) ((a + bs.length - 1 - sramBase) / 8) sramBase s.sys.eccSys with h | h <;> simp only [h, State.set_link]
@[simp] theorem State.sramPut_cnv (s : State) (a : Nat) (bs : List Byte) : (s.sramPut a bs).cnv = s.cnv := by
  unfold State.sramPut
  split
  · rfl
  · rcases State.eccStored_cases s 0 ((a - sramBase) / 8) ((a + bs.length - 1 - sramBase) / 8) sramBase s.sys.eccSys with h | h <;> simp only [h, State.set_cnv]
@[simp] theorem State.sramPut_rst (s : State) (a : Nat) (bs : List Byte) : (s.sramPut a bs).rst = s.rst := by
  unfold State.sramPut
  split
  · rfl
  · rcases State.eccStored_cases s 0 ((a - sramBase) / 8) ((a + bs.length - 1 - sramBase) / 8) sramBase s.sys.eccSys with h | h <;> simp only [h, State.set_rst]
@[simp] theorem State.sramPut_log (s : State) (a : Nat) (bs : List Byte) : (s.sramPut a bs).log = s.log := by
  unfold State.sramPut
  split
  · rfl
  · rcases State.eccStored_cases s 0 ((a - sramBase) / 8) ((a + bs.length - 1 - sramBase) / 8) sramBase s.sys.eccSys with h | h <;> simp only [h, State.set_log]
@[simp] theorem State.sramPut_scr (s : State) (a : Nat) (bs : List Byte) : (s.sramPut a bs).scr = s.scr := by
  unfold State.sramPut
  split
  · rfl
  · rcases State.eccStored_cases s 0 ((a - sramBase) / 8) ((a + bs.length - 1 - sramBase) / 8) sramBase s.sys.eccSys with h | h <;> simp only [h, State.set_scr]
@[simp] theorem State.sramPut_pwm (s : State) (a : Nat) (bs : List Byte) : (s.sramPut a bs).pwm = s.pwm := by
  unfold State.sramPut
  split
  · rfl
  · rcases State.eccStored_cases s 0 ((a - sramBase) / 8) ((a + bs.length - 1 - sramBase) / 8) sramBase s.sys.eccSys with h | h <;> simp only [h, State.set_pwm]
@[simp] theorem State.sramPut_lpe (s : State) (a : Nat) (bs : List Byte) : (s.sramPut a bs).lpe = s.lpe := by
  unfold State.sramPut
  split
  · rfl
  · rcases State.eccStored_cases s 0 ((a - sramBase) / 8) ((a + bs.length - 1 - sramBase) / 8) sramBase s.sys.eccSys with h | h <;> simp only [h, State.set_lpe]
@[simp] theorem State.sramPut_sense (s : State) (a : Nat) (bs : List Byte) : (s.sramPut a bs).sense = s.sense := by
  unfold State.sramPut
  split
  · rfl
  · rcases State.eccStored_cases s 0 ((a - sramBase) / 8) ((a + bs.length - 1 - sramBase) / 8) sramBase s.sys.eccSys with h | h <;> simp only [h, State.set_sense]
@[simp] theorem State.sramPut_red (s : State) (a : Nat) (bs : List Byte) : (s.sramPut a bs).red = s.red := by
  unfold State.sramPut
  split
  · rfl
  · rcases State.eccStored_cases s 0 ((a - sramBase) / 8) ((a + bs.length - 1 - sramBase) / 8) sramBase s.sys.eccSys with h | h <;> simp only [h, State.set_red]
@[simp] theorem State.sramPut_saf (s : State) (a : Nat) (bs : List Byte) : (s.sramPut a bs).saf = s.saf := by
  unfold State.sramPut
  split
  · rfl
  · rcases State.eccStored_cases s 0 ((a - sramBase) / 8) ((a + bs.length - 1 - sramBase) / 8) sramBase s.sys.eccSys with h | h <;> simp only [h, State.set_saf]
@[simp] theorem State.sramPut_mgt (s : State) (a : Nat) (bs : List Byte) : (s.sramPut a bs).mgt = s.mgt := by
  unfold State.sramPut
  split
  · rfl
  · rcases State.eccStored_cases s 0 ((a - sramBase) / 8) ((a + bs.length - 1 - sramBase) / 8) sramBase s.sys.eccSys with h | h <;> simp only [h, State.set_mgt]
@[simp] theorem State.sramPut_sec (s : State) (a : Nat) (bs : List Byte) : (s.sramPut a bs).sec = s.sec := by
  unfold State.sramPut
  split
  · rfl
  · rcases State.eccStored_cases s 0 ((a - sramBase) / 8) ((a + bs.length - 1 - sramBase) / 8) sramBase s.sys.eccSys with h | h <;> simp only [h, State.set_sec]
@[simp] theorem State.sramPut_fuse (s : State) (a : Nat) (bs : List Byte) : (s.sramPut a bs).fuse = s.fuse := by
  unfold State.sramPut
  split
  · rfl
  · rcases State.eccStored_cases s 0 ((a - sramBase) / 8) ((a + bs.length - 1 - sramBase) / 8) sramBase s.sys.eccSys with h | h <;> simp only [h, State.set_fuse]
@[simp] theorem State.sramPut_geo (s : State) (a : Nat) (bs : List Byte) : (s.sramPut a bs).geo = s.geo := by
  unfold State.sramPut
  split
  · rfl
  · rcases State.eccStored_cases s 0 ((a - sramBase) / 8) ((a + bs.length - 1 - sramBase) / 8) sramBase s.sys.eccSys with h | h <;> simp only [h, State.set_geo]
@[simp] theorem State.sramPut_clk (s : State) (a : Nat) (bs : List Byte) : (s.sramPut a bs).clk = s.clk := by
  unfold State.sramPut
  split
  · rfl
  · rcases State.eccStored_cases s 0 ((a - sramBase) / 8) ((a + bs.length - 1 - sramBase) / 8) sramBase s.sys.eccSys with h | h <;> simp only [h, State.set_clk]
@[simp] theorem State.sramPut_pwr (s : State) (a : Nat) (bs : List Byte) : (s.sramPut a bs).pwr = s.pwr := by
  unfold State.sramPut
  split
  · rfl
  · rcases State.eccStored_cases s 0 ((a - sramBase) / 8) ((a + bs.length - 1 - sramBase) / 8) sramBase s.sys.eccSys with h | h <;> simp only [h, State.set_pwr]
@[simp] theorem State.sramPut_eth (s : State) (a : Nat) (bs : List Byte) : (s.sramPut a bs).eth = s.eth := by
  unfold State.sramPut
  split
  · rfl
  · rcases State.eccStored_cases s 0 ((a - sramBase) / 8) ((a + bs.length - 1 - sramBase) / 8) sramBase s.sys.eccSys with h | h <;> simp only [h, State.set_eth]
@[simp] theorem State.sramPut_ser (s : State) (a : Nat) (bs : List Byte) : (s.sramPut a bs).ser = s.ser := by
  unfold State.sramPut
  split
  · rfl
  · rcases State.eccStored_cases s 0 ((a - sramBase) / 8) ((a + bs.length - 1 - sramBase) / 8) sramBase s.sys.eccSys with h | h <;> simp only [h, State.set_ser]
@[simp] theorem State.sramPut_pin (s : State) (a : Nat) (bs : List Byte) : (s.sramPut a bs).pin = s.pin := by
  unfold State.sramPut
  split
  · rfl
  · rcases State.eccStored_cases s 0 ((a - sramBase) / 8) ((a + bs.length - 1 - sramBase) / 8) sramBase s.sys.eccSys with h | h <;> simp only [h, State.set_pin]
@[simp] theorem State.sramPut_out (s : State) (a : Nat) (bs : List Byte) : (s.sramPut a bs).out = s.out := by
  unfold State.sramPut
  split
  · rfl
  · rcases State.eccStored_cases s 0 ((a - sramBase) / 8) ((a + bs.length - 1 - sramBase) / 8) sramBase s.sys.eccSys with h | h <;> simp only [h, State.set_out]
@[simp] theorem State.sramPut_free (s : State) (a : Nat) (bs : List Byte) : (s.sramPut a bs).free = s.free := by
  unfold State.sramPut
  split
  · rfl
  · rcases State.eccStored_cases s 0 ((a - sramBase) / 8) ((a + bs.length - 1 - sramBase) / 8) sramBase s.sys.eccSys with h | h <;> simp only [h, State.set_free]
@[simp] theorem State.sramPut_pending (s : State) (a : Nat) (bs : List Byte) : (s.sramPut a bs).pending = s.pending := by
  unfold State.sramPut
  split
  · rfl
  · rcases State.eccStored_cases s 0 ((a - sramBase) / 8) ((a + bs.length - 1 - sramBase) / 8) sramBase s.sys.eccSys with h | h <;> simp only [h, State.set_pending]
/-- The bytes are written. -/
theorem State.sramPut_sram (s : State) (a : Nat) (bs : List Byte) : (s.sramPut a bs).sram = memPut 0 s.sram a bs := by
  unfold State.sramPut
  split
  · rename_i h
    rw [List.isEmpty_iff.mp h]
    rfl
  · rfl

/-! ## capPut -/

@[simp] theorem State.capPut_sram (s : State) (a : Nat) (bs : List Byte) : (s.capPut a bs).sram = s.sram := by
  unfold State.capPut
  split
  · rfl
  · rcases State.eccStored_cases s 1 ((a - capBase) / 8) ((a + bs.length - 1 - capBase) / 8) capBase s.sys.eccCap with h | h <;> simp only [h, State.set_sram]
@[simp] theorem State.capPut_flash (s : State) (a : Nat) (bs : List Byte) : (s.capPut a bs).flash = s.flash := by
  unfold State.capPut
  split
  · rfl
  · rcases State.eccStored_cases s 1 ((a - capBase) / 8) ((a + bs.length - 1 - capBase) / 8) capBase s.sys.eccCap with h | h <;> simp only [h, State.set_flash]
@[simp] theorem State.capPut_time (s : State) (a : Nat) (bs : List Byte) : (s.capPut a bs).time = s.time := by
  unfold State.capPut
  split
  · rfl
  · rcases State.eccStored_cases s 1 ((a - capBase) / 8) ((a + bs.length - 1 - capBase) / 8) capBase s.sys.eccCap with h | h <;> simp only [h, State.set_time]
@[simp] theorem State.capPut_link (s : State) (a : Nat) (bs : List Byte) : (s.capPut a bs).link = s.link := by
  unfold State.capPut
  split
  · rfl
  · rcases State.eccStored_cases s 1 ((a - capBase) / 8) ((a + bs.length - 1 - capBase) / 8) capBase s.sys.eccCap with h | h <;> simp only [h, State.set_link]
@[simp] theorem State.capPut_cnv (s : State) (a : Nat) (bs : List Byte) : (s.capPut a bs).cnv = s.cnv := by
  unfold State.capPut
  split
  · rfl
  · rcases State.eccStored_cases s 1 ((a - capBase) / 8) ((a + bs.length - 1 - capBase) / 8) capBase s.sys.eccCap with h | h <;> simp only [h, State.set_cnv]
@[simp] theorem State.capPut_rst (s : State) (a : Nat) (bs : List Byte) : (s.capPut a bs).rst = s.rst := by
  unfold State.capPut
  split
  · rfl
  · rcases State.eccStored_cases s 1 ((a - capBase) / 8) ((a + bs.length - 1 - capBase) / 8) capBase s.sys.eccCap with h | h <;> simp only [h, State.set_rst]
@[simp] theorem State.capPut_log (s : State) (a : Nat) (bs : List Byte) : (s.capPut a bs).log = s.log := by
  unfold State.capPut
  split
  · rfl
  · rcases State.eccStored_cases s 1 ((a - capBase) / 8) ((a + bs.length - 1 - capBase) / 8) capBase s.sys.eccCap with h | h <;> simp only [h, State.set_log]
@[simp] theorem State.capPut_scr (s : State) (a : Nat) (bs : List Byte) : (s.capPut a bs).scr = s.scr := by
  unfold State.capPut
  split
  · rfl
  · rcases State.eccStored_cases s 1 ((a - capBase) / 8) ((a + bs.length - 1 - capBase) / 8) capBase s.sys.eccCap with h | h <;> simp only [h, State.set_scr]
@[simp] theorem State.capPut_pwm (s : State) (a : Nat) (bs : List Byte) : (s.capPut a bs).pwm = s.pwm := by
  unfold State.capPut
  split
  · rfl
  · rcases State.eccStored_cases s 1 ((a - capBase) / 8) ((a + bs.length - 1 - capBase) / 8) capBase s.sys.eccCap with h | h <;> simp only [h, State.set_pwm]
@[simp] theorem State.capPut_lpe (s : State) (a : Nat) (bs : List Byte) : (s.capPut a bs).lpe = s.lpe := by
  unfold State.capPut
  split
  · rfl
  · rcases State.eccStored_cases s 1 ((a - capBase) / 8) ((a + bs.length - 1 - capBase) / 8) capBase s.sys.eccCap with h | h <;> simp only [h, State.set_lpe]
@[simp] theorem State.capPut_sense (s : State) (a : Nat) (bs : List Byte) : (s.capPut a bs).sense = s.sense := by
  unfold State.capPut
  split
  · rfl
  · rcases State.eccStored_cases s 1 ((a - capBase) / 8) ((a + bs.length - 1 - capBase) / 8) capBase s.sys.eccCap with h | h <;> simp only [h, State.set_sense]
@[simp] theorem State.capPut_red (s : State) (a : Nat) (bs : List Byte) : (s.capPut a bs).red = s.red := by
  unfold State.capPut
  split
  · rfl
  · rcases State.eccStored_cases s 1 ((a - capBase) / 8) ((a + bs.length - 1 - capBase) / 8) capBase s.sys.eccCap with h | h <;> simp only [h, State.set_red]
@[simp] theorem State.capPut_saf (s : State) (a : Nat) (bs : List Byte) : (s.capPut a bs).saf = s.saf := by
  unfold State.capPut
  split
  · rfl
  · rcases State.eccStored_cases s 1 ((a - capBase) / 8) ((a + bs.length - 1 - capBase) / 8) capBase s.sys.eccCap with h | h <;> simp only [h, State.set_saf]
@[simp] theorem State.capPut_mgt (s : State) (a : Nat) (bs : List Byte) : (s.capPut a bs).mgt = s.mgt := by
  unfold State.capPut
  split
  · rfl
  · rcases State.eccStored_cases s 1 ((a - capBase) / 8) ((a + bs.length - 1 - capBase) / 8) capBase s.sys.eccCap with h | h <;> simp only [h, State.set_mgt]
@[simp] theorem State.capPut_sec (s : State) (a : Nat) (bs : List Byte) : (s.capPut a bs).sec = s.sec := by
  unfold State.capPut
  split
  · rfl
  · rcases State.eccStored_cases s 1 ((a - capBase) / 8) ((a + bs.length - 1 - capBase) / 8) capBase s.sys.eccCap with h | h <;> simp only [h, State.set_sec]
@[simp] theorem State.capPut_fuse (s : State) (a : Nat) (bs : List Byte) : (s.capPut a bs).fuse = s.fuse := by
  unfold State.capPut
  split
  · rfl
  · rcases State.eccStored_cases s 1 ((a - capBase) / 8) ((a + bs.length - 1 - capBase) / 8) capBase s.sys.eccCap with h | h <;> simp only [h, State.set_fuse]
@[simp] theorem State.capPut_geo (s : State) (a : Nat) (bs : List Byte) : (s.capPut a bs).geo = s.geo := by
  unfold State.capPut
  split
  · rfl
  · rcases State.eccStored_cases s 1 ((a - capBase) / 8) ((a + bs.length - 1 - capBase) / 8) capBase s.sys.eccCap with h | h <;> simp only [h, State.set_geo]
@[simp] theorem State.capPut_clk (s : State) (a : Nat) (bs : List Byte) : (s.capPut a bs).clk = s.clk := by
  unfold State.capPut
  split
  · rfl
  · rcases State.eccStored_cases s 1 ((a - capBase) / 8) ((a + bs.length - 1 - capBase) / 8) capBase s.sys.eccCap with h | h <;> simp only [h, State.set_clk]
@[simp] theorem State.capPut_pwr (s : State) (a : Nat) (bs : List Byte) : (s.capPut a bs).pwr = s.pwr := by
  unfold State.capPut
  split
  · rfl
  · rcases State.eccStored_cases s 1 ((a - capBase) / 8) ((a + bs.length - 1 - capBase) / 8) capBase s.sys.eccCap with h | h <;> simp only [h, State.set_pwr]
@[simp] theorem State.capPut_eth (s : State) (a : Nat) (bs : List Byte) : (s.capPut a bs).eth = s.eth := by
  unfold State.capPut
  split
  · rfl
  · rcases State.eccStored_cases s 1 ((a - capBase) / 8) ((a + bs.length - 1 - capBase) / 8) capBase s.sys.eccCap with h | h <;> simp only [h, State.set_eth]
@[simp] theorem State.capPut_ser (s : State) (a : Nat) (bs : List Byte) : (s.capPut a bs).ser = s.ser := by
  unfold State.capPut
  split
  · rfl
  · rcases State.eccStored_cases s 1 ((a - capBase) / 8) ((a + bs.length - 1 - capBase) / 8) capBase s.sys.eccCap with h | h <;> simp only [h, State.set_ser]
@[simp] theorem State.capPut_pin (s : State) (a : Nat) (bs : List Byte) : (s.capPut a bs).pin = s.pin := by
  unfold State.capPut
  split
  · rfl
  · rcases State.eccStored_cases s 1 ((a - capBase) / 8) ((a + bs.length - 1 - capBase) / 8) capBase s.sys.eccCap with h | h <;> simp only [h, State.set_pin]
@[simp] theorem State.capPut_out (s : State) (a : Nat) (bs : List Byte) : (s.capPut a bs).out = s.out := by
  unfold State.capPut
  split
  · rfl
  · rcases State.eccStored_cases s 1 ((a - capBase) / 8) ((a + bs.length - 1 - capBase) / 8) capBase s.sys.eccCap with h | h <;> simp only [h, State.set_out]
@[simp] theorem State.capPut_free (s : State) (a : Nat) (bs : List Byte) : (s.capPut a bs).free = s.free := by
  unfold State.capPut
  split
  · rfl
  · rcases State.eccStored_cases s 1 ((a - capBase) / 8) ((a + bs.length - 1 - capBase) / 8) capBase s.sys.eccCap with h | h <;> simp only [h, State.set_free]
@[simp] theorem State.capPut_pending (s : State) (a : Nat) (bs : List Byte) : (s.capPut a bs).pending = s.pending := by
  unfold State.capPut
  split
  · rfl
  · rcases State.eccStored_cases s 1 ((a - capBase) / 8) ((a + bs.length - 1 - capBase) / 8) capBase s.sys.eccCap with h | h <;> simp only [h, State.set_pending]
/-- The bytes are written. -/
theorem State.capPut_cap (s : State) (a : Nat) (bs : List Byte) : (s.capPut a bs).cap = memPut 0 s.cap a bs := by
  unfold State.capPut
  split
  · rename_i h
    rw [List.isEmpty_iff.mp h]
    rfl
  · rfl

end Sys2Proof.Machine
end

