-- ==== Sys2Proof/Machine/Coding.lean ====
section
/-!
DEFINITION. Machine/Coding.lean: the blocks of a Guyline lane (R73, R74, R78, R80): sync headers, the block of each kind, the self-synchronising
scrambler 1 + x^39 + x^58 over the payloads. Commands and outputs hold whole frames; this file says which 66-bit blocks they are on the line. The
scrambler's state at any moment is what the lane sent before, IDLE blocks included, so it is an operand here.
-/

namespace Sys2Proof.Machine

/-- A block: 2-bit sync header and 64 payload bits. Byte k of the block is payload bits 8k to 8k + 7. -/
structure LineBlock where
  header : BitVec 2
  payload : BitVec 64
  deriving DecidableEq, Repr

def headData : BitVec 2 := 0b01
def headControl : BitVec 2 := 0b10

def payloadOf (bs : List Byte) : BitVec 64 := BitVec.ofNat 64 (fromLE (bs.take 8))
def dataBlock (bs : List Byte) : LineBlock := ⟨headData, payloadOf bs⟩
/-- A control block: its type, and bytes 1 to 7. -/
def controlBlock (typ : Byte) (bs : List Byte) : LineBlock := ⟨headControl, payloadOf (typ :: bs)⟩

def typeIdle : Byte := 0x1E
def typeSof : Byte := 0x78
def typeEof : Byte := 0x87
def typeAbort : Byte := 0xB4

/-- LSTAT and SENDER of an IDLE block (R75). -/
def idleLine (b : IdleBlock) : LineBlock :=
  controlBlock typeIdle
    (toLE 1 (bit b.rxok + 2 * bit b.beacon + 4 * bit b.inreset + 8 * bit b.wrap) ++ toLE 2 b.sender ++ zeroB 4)

/-- The blocks of a frame as this device sends it: SOF, data, and the EOF with its CRC or the ABORT that ends it (R78, R80, R105). -/
def frameLine (f : Frame) : List LineBlock :=
  let datas := (List.range (f.blocks - 2)).map (fun i => dataBlock (sliceB f.body (8 * i) 8))
  let last := match f.ending with
    | .eof => controlBlock typeEof (eofBytes f ++ toLE 4 f.crc.toNat)
    | _ => controlBlock typeAbort (zeroB 7)
  controlBlock typeSof (sofBytes f) :: datas ++ [last]

/-- What a receiver sees in a block (R74). -/
inductive BlockKind where
  | data | idle | sof | eof | abort | badHeader | badType
  deriving DecidableEq, Repr

def LineBlock.kind (b : LineBlock) : BlockKind :=
  let t := b.payload.extractLsb' 0 8
  if b.header = headData then .data
  else if b.header = headControl then
    (if t = typeIdle then .idle else if t = typeSof then .sof else if t = typeEof then .eof else if t = typeAbort then .abort else .badType)
  else .badHeader

/-! ## The scrambler -/

/-- The last 58 payload bits sent, the oldest in bit 0. -/
abbrev ScramSt := BitVec 58

/-- Bit i of the next 32 bits is mixed with those sent 39 and 58 bits before. -/
def scramKey (st : ScramSt) : BitVec 32 := st.extractLsb' 0 32 ^^^ st.extractLsb' 19 32
/-- 32 bits `o` have been sent. -/
def scramNext (st : ScramSt) (o : BitVec 32) : ScramSt := (st >>> 32) ||| (o.zeroExtend 58 <<< 26)

/-- The payload scrambled, bit 0 first, and the state after it. -/
def scramble (st : ScramSt) (p : BitVec 64) : BitVec 64 × ScramSt :=
  let lo := p.extractLsb' 0 32 ^^^ scramKey st
  let st := scramNext st lo
  let hi := p.extractLsb' 32 32 ^^^ scramKey st
  (hi ++ lo, scramNext st hi)

/-- The received payload descrambled: the state is what has been received. -/
def descramble (st : ScramSt) (q : BitVec 64) : BitVec 64 × ScramSt :=
  let lo := q.extractLsb' 0 32
  let a := lo ^^^ scramKey st
  let st := scramNext st lo
  let hi := q.extractLsb' 32 32
  ((hi ^^^ scramKey st) ++ a, scramNext st hi)

/-- Blocks as they stand on the line: headers as they are, payloads scrambled in order. -/
def sendBlocks (st : ScramSt) : List LineBlock → List LineBlock
  | [] => []
  | b :: bs =>
    let r := scramble st b.payload
    ⟨b.header, r.1⟩ :: sendBlocks r.2 bs

/-- Blocks as a receiver takes them from the line. -/
def takeBlocks (st : ScramSt) : List LineBlock → List LineBlock
  | [] => []
  | b :: bs =>
    let r := descramble st b.payload
    ⟨b.header, r.1⟩ :: takeBlocks r.2 bs

end Sys2Proof.Machine
end

