-- ==== Sys2Proof/Tests/Slice0.lean ====
section
/-!
SUPPORT. Tests/Slice0.lean: a device of each role to try commands on; ill-formed commands; small tests on values that the spec works out; for each
statement of Certificates/Slice0/Obligations.lean, states and operands that meet the hypotheses of its clauses.
-/

set_option maxRecDepth 100000
set_option Elab.async false
set_option linter.unusedVariables false

open Sys2Proof Sys2Proof.Machine

namespace Sys2Proof.Tests

/-- What is found and has the property. -/
theorem found {α : Type} {o : Option α} {P : α → Prop} [DecidablePred P] (h : (o.any fun x => decide (P x)) = true) : ∃ x, o = some x ∧ P x := by
  cases o with
  | none => simp at h
  | some x => exact ⟨x, rfl, by simpa using h⟩

/-- Fields set one after another. -/
def put (s : State) (l : List (Fld × Nat)) : State := l.foldl (fun s p => s.set p.1 p.2) s

/-- A device with role `r` in Run: every block instantiated, gated on and out of reset, a canvas active, time aligned, every lane UP at the full
rate; the cell at position 5 of ring 0 of segment 0, or member A of that segment's hub, or central A. -/
def device (r : Nat) : State :=
  (List.range 16).foldl (fun s n => put s [(LNK.CTRL.MODE n, 1), (LNK.STAT.UP n, 1), (LNK.STAT.LOCK n, 1), (LNK.STAT.RATE n, 0)])
    (put { State.reset with rst := { State.reset.rst with overlap := none } }
      [(CNV.STAT.LOADING, 0), (CNV.STAT.ACTIVE, 1), (PWR.STAT.STATE, 0), (CNV.ROLE.ROLE, r), (CNV.INST.INST, 0x7FFFFF), (CLK.GATE.RUN, 0x7FFFFF),
        (TB.STAT.ALIGNED, 1), (SYS.DEVADDR.ADDR, if r = 0 then 5 else if r = 1 then 0x7C00 else 0x7E00), (SYS.DEVADDR.POS, 5)])

/-- The vendor image of core 0. -/
def vendor : Origin := ⟨1, 0xFF, 0xFF, 0xFF⟩

/-- The payload of a transaction without a session (R470). -/
def txn (op flags : Nat) (body : List Byte) : List Byte :=
  toLE 1 op ++ toLE 1 flags ++ [0xFF, 0] ++ toLE 4 1 ++ toLE 2 body.length ++ zeroB 22 ++ body

/-- A sealed Mgmt frame (R101). -/
def mgmt (dst src : Nat) (pay : List Byte) : Frame :=
  sealFrame ⟨6, 0, false, 0, 0, dst, toLE 2 src ++ toLE 2 7 ++ [0xFF, 0] ++ toLE 2 pay.length ++ pay ++ zeroB ((8 - pay.length % 8) % 8), false, 0, .eof, 0⟩

/-- Session 0 open with every permission. -/
def withSession (s : State) : State :=
  put { s with sec := { s.sec with sess := [(0, some ⟨zeroB 32, 0⟩)] } } [(SEC.SESS_STAT.OPEN 0, 1), (SEC.SESS_STAT.PERM 0, 0xFF)]

/-- A request of operation `op` in session 0, from the host (R454). -/
def inSession (dst op : Nat) (body : List Byte) : Frame :=
  let head := toLE 1 op ++ toLE 1 2 ++ [0, 0] ++ toLE 4 1 ++ toLE 2 body.length ++ [0, 0]
  let tag := sessTag (zeroB 32) 0 0 1 dst addrHost (head ++ zeroB 4 ++ body)
  mgmt dst addrHost (head ++ tag ++ zeroB 4 ++ body)

/-- The same with the tag given. -/
def tagged (dst op tag : Nat) (body : List Byte) : Frame :=
  mgmt dst addrHost (toLE 1 op ++ toLE 1 2 ++ [0, 0] ++ toLE 4 1 ++ toLE 2 body.length ++ [0, 0] ++ toLE 16 tag ++ zeroB 4 ++ body)

/-- The device at `n` counts of 5 ns of local time. -/
def atNow (s : State) (n : Nat) : State := { s with time := { s.time with scale := n * 5 * nsUnit } }

/-- Eight registers that show a SHA-256. -/
def withHash (s : State) (r : Nat → Fld) (bs : List Byte) : State :=
  (List.range 8).foldl (fun s i => s.set (r i) (leAt (sha256 bs) (4 * i) 4)) s


/-! ## Ill-formed commands and small tests -/

/-- A lane that no device has. -/
theorem test_illformed_lane : WellFormed (.laneUp 16) = false := by decide

/-- An agent that R433 does not list. -/
theorem test_illformed_origin : WellFormed (.armctlBlockWrite ⟨10, 0, 0, 0⟩ 0) = false := by decide

/-- A value wider than its register. -/
theorem test_illformed_value : WellFormed (.armctlBlockWrite vendor (2 ^ 32)) = false := by decide

/-- A frame whose body is no whole number of blocks. -/
theorem test_illformed_frame : WellFormed (.forwardFrame 0 ⟨6, 0, false, 0, 0, 0, [1], false, 0, .eof, 0⟩) = false := by decide

/-- A width that the bus lacks, and a value wider than the access. -/
theorem test_illformed_access : WellFormed (.registerWrite vendor 0x40000000 24 0) = false ∧ WellFormed (.registerWrite vendor 0x40000000 8 256) = false := by
  decide

/-- A strap of three levels. -/
theorem test_illformed_straps : WellFormed (.resetStartUp ⟨4, 0, 0, false, false, true, true⟩) = false := by decide

/-- A core, a context, an engine and a block that the part does not have. -/
theorem test_illformed_index : WellFormed (.debugHalt 10) = false ∧ WellFormed (.contextStart 128) = false ∧ WellFormed (.contextRun 4) = false ∧
    WellFormed (.cntclr vendor 23 0) = false := by decide

/-- R524: the address of cell 37 of ring 9 in segment 13, worked out in System Architecture: 0x3665. -/
theorem test_cell_address : cellSegment 0x3665 = 13 ∧ cellRing 0x3665 = 9 ∧ cellPos 0x3665 = 37 ∧ isCellAddr 0x3665 = true := by decide

/-- R24: 0x0300 has ring field 12 and is reserved; 0x7C2F is a hub, 0x7C30 reserved. -/
theorem test_reserved_address : isReservedAddr 0x0300 = true ∧ isHubAddr 0x7C2F = true ∧ isReservedAddr 0x7C30 = true := by decide

/-- R154: X = −3.25 reverses 3 cells and trims a fourth with FRAC = 0x4000. -/
theorem test_form_x : (put (device 1) [(SCR.CFG.CELLTYPE, 1), (SCR.XIN.X, 0xFFFCC000)]).formX = (-0x34000, false) := by decide +kernel

/-- R154: a half-bridge uses X = 0 for a negative sum. -/
theorem test_form_x_half_bridge : (put (device 1) [(SCR.XIN.X, 0xFFFCC000)]).formX = (0, true) := by decide +kernel

/-- R157: with h = 2 and CHG = 1 the first slot is (I, 0) at effective bin −2, and (I, 2) stands before (O, 0). -/
theorem test_slot_order : (slotOrder true 2).take 4 = [(true, 0), (true, 1), (true, 2), (false, 0)] := by decide

/-- R82: the check value of the IEEE 802.3 CRC for "123456789". -/
theorem test_crc : crc32 [0x31, 0x32, 0x33, 0x34, 0x35, 0x36, 0x37, 0x38, 0x39] = 0xCBF43926 := by decide +kernel

/-- FIPS 180-4: SHA-256 of "abc" begins 0xBA7816BF. -/
theorem test_sha256 : (sha256 [0x61, 0x62, 0x63]).take 4 = [0xBA, 0x78, 0x16, 0xBF] := by decide +kernel

/-- R186: binary32 0.1 + 0.2 rounds to 0x3E99999A. -/
theorem test_f32_add : f32add 0x3DCCCCCD 0x3E4CCCCD = 0x3E99999A := by decide +kernel

/-- R6: BINEDGE gives Ei = 0x0400 · i after reset. -/
theorem test_binedge_reset : State.reset.reg (0x40000000 + 0x10000 * bSCR + 0x40 + 4 * 5) = 0x2C002800 := by decide +kernel

/-- R174: ARMCTL.BLOCK is 1 after reset. -/
theorem test_block_reset : State.reset.flag SCR.ARMCTL.BLOCK = true := by decide +kernel

/-- R3: a write of 1 clears a W1C bit and no other. -/
theorem test_w1c : (storeWord [⟨0, 8, .w1c, 0, .warm⟩] false 0 0x01 0xFFFFFFFF 0x07).toNat = 0x06 := by decide

/-- R163 and R168: with no Order in flight a cell counts the tick as missed once. -/
theorem test_missed_once : (match exec .orderMissed (device 0) with
    | .next t => (match exec .orderMissed t with | .next u => u.get SCR.MISSED.COUNT | _ => 9)
    | _ => 9) = 1 := by decide +kernel


/-! ## States and operands that meet the hypotheses of the statements -/

theorem witness_EmptyQueueIsACycle : ∃ s : State, s.pending = [] := ⟨State.reset, rfl⟩

theorem witness_SettleOnlyTriggers_step : ∃ s t : State, s.geo.events ≠ [] ∧ step s = .next t :=
  ⟨{ State.reset with geo := { State.reset.geo with events := [⟨4, 0, 0, 0⟩] } }, _, by decide +kernel, rfl⟩

theorem witness_SplitIsExact_unit : ∃ (us : List UnitSt) (order : List Slot) (i : Nat) (u : UnitSt), order.Nodup ∧ order ≠ [] ∧
    3 + 1 ≤ sumL (order.map (slotTotal us)) ∧ us[i]? = some u :=
  ⟨[⟨0, false, ⟨0, [3, 0, 2], [1, 1], 0, 0, 0, 0⟩⟩, ⟨1, true, ⟨0, [0, 4], [], 0, 0, 0, 0⟩⟩], slotOrder true 1, 1, _, by decide +kernel, by decide +kernel,
   by decide +kernel, rfl⟩

theorem witness_StepKeepsCanonical : ∃ s t : State, s.canonical = true ∧ step s = .next t := ⟨State.reset, _, by decide +kernel, rfl⟩

/-- One sample stands at its own level: a threshold of 0 is met at once, any other is not met. -/
theorem crossing_first (c step : Int) : crossing [c] step 0 = some 0 := by simp [crossing]

theorem crossing_of_one (c step : Int) (th : Nat) (h : 0 < th * step.natAbs) : crossing [c] step th = none := by
  have moved : (if 0 ≤ step then c - c else c - c) = 0 := by split <;> omega
  have never : decide (((th * step.natAbs : Nat) : Int) ≤ 256 * 0) = false := decide_eq_false (by omega)
  simp only [crossing, List.headD_cons, List.findIdx?_cons, moved, never]
  rfl

/-- A cell whose edge 7 was turned on at 800, with the thresholds of its swing check. -/
def swinging (start finish : Nat) : State :=
  let d := put (device 0) [(PWM.CFG.DTADAPT, 1), (ADC.CTRL.VSWEN, 1), (PWM.DT.DT 7, 500), (PWM.VSWTH.SWINGMAX, 1000), (PWM.VSWTH.START, start),
    (PWM.VSWTH.DONE, finish), (PWM.DTCEIL.CEIL, 2000)]
  atNow { d with pwm := { d.pwm with edges := [⟨7, 500, 1, 40, 100, some 800⟩] } } 100

theorem swinging_first : (swinging 64 0).get PWM.VSWTH.DONE = 0 := by decide +kernel

theorem swinging_start : (swinging 0 255).get PWM.VSWTH.START = 0 := by decide +kernel

theorem swinging_done : (swinging 0 255).get PWM.VSWTH.DONE = 255 := by decide +kernel

theorem swinging_last : (swinging 255 255).get PWM.VSWTH.START = 255 ∧ (swinging 255 255).get PWM.VSWTH.DONE = 255 := by decide +kernel

/-- Meets the hypotheses of the three crossings of Obligations.WithinTheTick. -/
theorem witness_WithinTheTick_crossings :
    (∃ (s : State) (idx on : Nat) (v0 : Int) (vsw : List Int) (e : EdgeSt) (d : Nat), idx < 8 ∧
      s.pwm.edges.find? (fun x => x.idx == idx) = some e ∧ e.on = some on ∧ s.runs bPWM = true ∧ s.vswConverts = true ∧
      on + s.get PWM.VSWTH.SWINGMAX ≤ s.time64 ∧ s.flag PWM.CFG.DTADAPT = true ∧ s.noReset srcPWM ∧
      crossing ((v0 :: vsw).map vswCode) e.step (s.get PWM.VSWTH.DONE) = some d ∧ d < on - e.off) ∧
    (∃ (s : State) (idx on : Nat) (v0 : Int) (vsw : List Int) (e : EdgeSt) (d : Nat), idx < 8 ∧
      s.pwm.edges.find? (fun x => x.idx == idx) = some e ∧ e.on = some on ∧ s.runs bPWM = true ∧ s.vswConverts = true ∧
      on + s.get PWM.VSWTH.SWINGMAX ≤ s.time64 ∧ s.flag PWM.CFG.DTADAPT = true ∧ s.noReset srcPWM ∧
      crossing ((v0 :: vsw).map vswCode) e.step (s.get PWM.VSWTH.START) = some d ∧ d < on - e.off ∧
      ∀ x, crossing ((v0 :: vsw).map vswCode) e.step (s.get PWM.VSWTH.DONE) = some x → on - e.off ≤ x) ∧
    (∃ (s : State) (idx on : Nat) (v0 : Int) (vsw : List Int) (e : EdgeSt), idx < 8 ∧
      s.pwm.edges.find? (fun x => x.idx == idx) = some e ∧ e.on = some on ∧ s.runs bPWM = true ∧ s.vswConverts = true ∧
      on + s.get PWM.VSWTH.SWINGMAX ≤ s.time64 ∧ s.flag PWM.CFG.DTADAPT = true ∧ s.noReset srcPWM ∧
      (∀ x, crossing ((v0 :: vsw).map vswCode) e.step (s.get PWM.VSWTH.DONE) = some x → on - e.off + s.get PWM.VSWTH.SWINGMAX < x) ∧
      (∀ x, crossing ((v0 :: vsw).map vswCode) e.step (s.get PWM.VSWTH.START) = some x → on - e.off ≤ x) ∧ s.recordsOnly (srcPWM 3) = true) :=
  ⟨⟨swinging 64 0, 7, 800, 0, [], ⟨7, 500, 1, 40, 100, some 800⟩, 0, by decide, by decide +kernel, rfl, by decide +kernel, by decide +kernel,
    by decide +kernel, by decide +kernel, by decide +kernel, by rw [swinging_first]; exact crossing_first _ _, by decide⟩,
   ⟨swinging 0 255, 7, 800, 0, [], ⟨7, 500, 1, 40, 100, some 800⟩, 0, by decide, by decide +kernel, rfl, by decide +kernel, by decide +kernel,
    by decide +kernel, by decide +kernel, by decide +kernel, by rw [swinging_start]; exact crossing_first _ _, by decide,
    (fun x h => by rw [swinging_done, List.map_singleton, crossing_of_one _ _ _ (by decide)] at h; cases h)⟩,
   ⟨swinging 255 255, 7, 800, 0, [], ⟨7, 500, 1, 40, 100, some 800⟩, by decide, by decide +kernel, rfl, by decide +kernel, by decide +kernel,
    by decide +kernel, by decide +kernel, by decide +kernel, 
    (fun x h => by rw [swinging_last.2, List.map_singleton, crossing_of_one _ _ _ (by decide)] at h; cases h),
    (fun x h => by rw [swinging_last.1, List.map_singleton, crossing_of_one _ _ _ (by decide)] at h; cases h), by decide +kernel⟩⟩

/-- Meets the hypotheses of clauses of Obligations.SettleOnlyTriggers. -/
theorem witness_SettleOnlyTriggers :
    (∃ (s : State), s.geo.events = []) ∧
    (∃ (s : State), s.runs bGEO = false) ∧
    (∃ (s : State), (∀ e ∈ s.geo.events, ∀ n, n < 8 → s.eventMeets e n = false) ∧ (∀ e ∈ s.geo.events, e.typ ≠ 8)) :=
  ⟨⟨device 0, by decide +kernel⟩,
   ⟨put { device 0 with geo := { (device 0).geo with events := [⟨4, 0, 0, 0⟩] } } [(CLK.GATE.RUN, 0)], by decide +kernel⟩,
   ⟨{ device 0 with geo := { (device 0).geo with events := [⟨4, 0, 0, 0⟩] } }, by decide +kernel⟩⟩

/-- Meets the hypotheses of clauses of Obligations.WriteByAccessType. -/
theorem witness_WriteByAccessType :
    (∃ (fs : List FieldSpec) (f : FieldSpec) (locked : Bool) (kept : Word) (v : Word) (m : Word) (old : Word), f ∈ fs ∧ f.lo + f.w ≤ 32 ∧ (∀ g ∈ fs, g ≠ f → g.lo + g.w ≤ f.lo ∨ f.lo + f.w ≤ g.lo) ∧ let new := storeWord fs locked kept v m old; let at_ : Fld := ⟨0, f.lo, f.w⟩; (f.access = .ro ∨ f.access = .wo)) ∧
    (∃ (fs : List FieldSpec) (f : FieldSpec) (locked : Bool) (kept : Word) (v : Word) (m : Word) (old : Word), f ∈ fs ∧ f.lo + f.w ≤ 32 ∧ (∀ g ∈ fs, g ≠ f → g.lo + g.w ≤ f.lo ∨ f.lo + f.w ≤ g.lo) ∧ let new := storeWord fs locked kept v m old; let at_ : Fld := ⟨0, f.lo, f.w⟩; (f.access = .rw ∨ f.access = .rwa ∨ (f.access = .rwl ∧ locked = false))) ∧
    (∃ (fs : List FieldSpec) (f : FieldSpec) (locked : Bool) (kept : Word) (v : Word) (m : Word) (old : Word), f ∈ fs ∧ f.lo + f.w ≤ 32 ∧ (∀ g ∈ fs, g ≠ f → g.lo + g.w ≤ f.lo ∨ f.lo + f.w ≤ g.lo) ∧ let new := storeWord fs locked kept v m old; let at_ : Fld := ⟨0, f.lo, f.w⟩; f.access = .rwl ∧ locked = true) ∧
    (∃ (fs : List FieldSpec) (f : FieldSpec) (locked : Bool) (kept : Word) (v : Word) (m : Word) (old : Word), f ∈ fs ∧ f.lo + f.w ≤ 32 ∧ (∀ g ∈ fs, g ≠ f → g.lo + g.w ≤ f.lo ∨ f.lo + f.w ≤ g.lo) ∧ let new := storeWord fs locked kept v m old; let at_ : Fld := ⟨0, f.lo, f.w⟩; f.access = .w1c) :=
  ⟨⟨[⟨0, 4, .rw, 0, .warm⟩, ⟨12, 4, .ro, 0, .warm⟩], ⟨12, 4, .ro, 0, .warm⟩, false, 0x20#32, 0xFFFFFFFF#32, 0x1FF#32, 0x5#32, by decide +kernel⟩,
   ⟨[⟨0, 4, .rw, 0, .warm⟩, ⟨4, 4, .w1c, 0, .warm⟩, ⟨8, 4, .rwl, 0, .warm⟩, ⟨12, 4, .ro, 0, .warm⟩], ⟨8, 4, .rwl, 0, .warm⟩, false, 0x20#32, 0xFFFFFFFF#32, 0x1FF#32, 0x5#32, by decide +kernel⟩,
   ⟨[⟨0, 4, .rw, 0, .warm⟩, ⟨4, 4, .w1c, 0, .warm⟩, ⟨8, 4, .rwl, 0, .warm⟩, ⟨12, 4, .ro, 0, .warm⟩], ⟨8, 4, .rwl, 0, .warm⟩, true, 0x20#32, 0xFFFFFFFF#32, 0xFFFFFFFF#32, 0x5#32, by decide +kernel⟩,
   ⟨[⟨0, 4, .rw, 0, .warm⟩, ⟨4, 4, .w1c, 0, .warm⟩, ⟨8, 4, .rwl, 0, .warm⟩, ⟨12, 4, .ro, 0, .warm⟩], ⟨4, 4, .w1c, 0, .warm⟩, true, 0x20#32, 0xFFFFFFFF#32, 0xFFFFFFFF#32, 0x5#32, by decide +kernel⟩⟩

/-- Meets the hypotheses of clauses of Obligations.ResetByReach. -/
theorem witness_ResetByReach :
    (∃ (blocks : Nat) (m : SMap Word) (a : Nat), SMap.wf regDefault m = true ∧ blocks.testBit (blockOf a) = false) ∧
    (∃ (blocks : Nat) (m : SMap Word) (a : Nat) (f : _), SMap.wf regDefault m = true ∧ blocks.testBit (blockOf a) = true ∧ f ∈ fieldsAt a ∧ f.lo + f.w ≤ 32 ∧ (∀ g ∈ fieldsAt a, g ≠ f → g.lo + g.w ≤ f.lo ∨ f.lo + f.w ≤ g.lo)) :=
  ⟨⟨0, (device 0).regs, CNV.STAT.ACTIVE.addr, by decide +kernel⟩,
   ⟨2 ^ bCNV, (device 0).regs, CNV.STAT.ACTIVE.addr, (⟨0, 1, .ro, 0, .warm⟩ : FieldSpec), by decide +kernel⟩⟩

/-- Meets the hypotheses of clauses of Obligations.GpioSetAndClear. -/
theorem witness_GpioSetAndClear :
    (∃ (s : State) (o : Origin), s.mayWrite o PIN.GPIOSET.SET.addr = true) ∧
    (∃ (s : State) (o : Origin), s.mayWrite o PIN.GPIOCLR.CLR.addr = true) :=
  ⟨⟨device 0, vendor, by decide +kernel⟩,
   ⟨device 0, vendor, by decide +kernel⟩⟩

/-- Meets the hypotheses of clauses of Obligations.PinMonitors. -/
theorem witness_PinMonitors :
    (∃ (s : State) (n : Nat), n < 16 ∧ s.getBit PIN.I2CCFG.DDMEN n = true ∧ s.runs bPIN = true ∧ s.forwarderOnly = false ∧ s.power ≤ 1) ∧
    (∃ (s : State), s.recordsOnly (srcPIN 0) = true ∧ s.runs bPIN = true) ∧
    (∃ (s : State), s.recordsOnly (srcPIN 1) = true) :=
  ⟨⟨put (device 0) [(PIN.I2CCFG.DDMEN, 0xFFFF)], 15, by decide +kernel⟩,
   ⟨device 0, by decide +kernel⟩,
   ⟨device 0, by decide +kernel⟩⟩

/-- Meets the hypotheses of clauses of Obligations.ScrubberRead. -/
theorem witness_ScrubberRead :
    (∃ (s : State) (mem : Nat), s.scrubs mem = true ∧ s.scrubDue mem = true ∧ s.marks mem = [] ∧ let w := s.scrubPtr mem; let k := if mem < 2 then mem else 2; let key := markKey mem w; (s.errorLost k (s.checkerRoot mem) false).1 = false ∧ s.recordsOnly (srcSYS 0) = true) ∧
    (∃ (s : State) (mem : Nat) (b : _), s.scrubs mem = true ∧ s.scrubDue mem = true ∧ s.marks mem = [] ∧ let w := s.scrubPtr mem; let k := if mem < 2 then mem else 2; let key := markKey mem w; 2 ≤ b ∧ criticalWord mem w = false ∧ (s.errorLost k (s.checkerRoot mem) false).1 = false ∧ s.recordsOnly (srcSYS 1) = true) :=
  ⟨⟨device 0, 0, by decide +kernel⟩,
   ⟨device 0, 0, 2, by decide +kernel⟩⟩

/-- Meets the hypotheses of clauses of Obligations.FaultMachinery. -/
theorem witness_FaultMachinery :
    (∃ (s : State) (mem : Nat), s.scrubs mem = true ∧ s.sys.passOver.testBit mem = true ∧ s.recordsOnly (srcSYS 2) = true) ∧
    (∃ (s : State) (a : Nat), s.power ≤ 1 ∧ s.sys.parity = [] ∧ criticalReg a = true ∧ a < 2 ^ 32 ∧ s.flag RST.CFG.CRITEN = false ∧ s.busCyclesGone s.sys.sweepAt 1024 = true ∧ (s.errorLost 3 (s.get CLK.DIV.BUSDIV) true).1 = false ∧ s.recordsOnly (srcSYS 3) = true) ∧
    (∃ (s : State) (o : Origin) (v : Nat), s.mayWrite o SYS.INJCTL.ARM.addr = true ∧ s.log.queue.length < queuePlaces o ∧ o.agent ≠ 0 ∧ v < 2 ^ 32 ∧ s.flag SYS.INJCTL.ARMED = false) ∧
    (∃ (s : State) (core : Nat), s.sys.inTrap.testBit core = true) :=
  ⟨⟨(let d := device 0; { d with sys := { d.sys with passOver := 3 } }), 0, by decide +kernel⟩,
   ⟨device 0, SYS.MEMCFG.SCRUBEN.addr, by decide +kernel⟩,
   ⟨device 0, vendor, 7, by decide +kernel⟩,
   ⟨{ device 0 with sys := { (device 0).sys with inTrap := 3, trapPend := 1 } }, 0, by decide +kernel⟩⟩

/-- Meets the hypotheses of clauses of Obligations.ResetCommands. -/
theorem witness_ResetCommands_a :
    (∃ (s : State), s.rst.pinLow = false) ∧
    (∃ (s : State) (high : Nat), s.rst.pinLow = true ∧ s.recordsOnly (srcRST 2) = true ∧ let held := s.time.cycles - high - s.rst.pinLowAt; high < 400) ∧
    (∃ (s : State) (high : Nat), s.rst.pinLow = true ∧ s.recordsOnly (srcRST 2) = true ∧ let held := s.time.cycles - high - s.rst.pinLowAt; 400 ≤ high) ∧
    (∃ (s : State) (n : Nat) (f : Frame), s.power ≠ 3 ∧ (s.mgmtTake n f).1 = true ∧ byteAt (txnOf n f).pay 0 = 0xF0 ∧ let m := (s.mgmtTake n f).2; m.linkGood (txnOf n f) = true ∧ 2 ≤ byteAt (txnOf n f).pay 1) :=
  ⟨⟨device 0, by decide +kernel⟩,
   ⟨(let d := device 0; { d with rst := { d.rst with pinLow := true }, time := { d.time with cycles := 200001400 } }), 5, by decide +kernel⟩,
   ⟨{ device 0 with rst := { (device 0).rst with pinLow := true } }, 400, by decide +kernel⟩,
   ⟨device 0, 0, mgmt (device 0).address addrHost (toLE 1 0xF0 ++ toLE 1 2 ++ zeroB 6 ++ toLE 4 1 ++ zeroB 32), by decide +kernel⟩⟩

/-- Meets the hypotheses of clauses of Obligations.ResetCommands. -/
theorem witness_ResetCommands_b :
    (∃ (s : State) (n : Nat) (f : Frame), s.power ≠ 3 ∧ (s.mgmtTake n f).1 = true ∧ byteAt (txnOf n f).pay 0 = 0xF0 ∧ let m := (s.mgmtTake n f).2; m.linkGood (txnOf n f) = false ∧ m.recordsOnly (srcRST 0) = true) ∧
    (∃ (s : State) (o : Origin), s.mayWrite o RST.SWCMD.REACH.addr = true ∧ s.log.queue.length < queuePlaces o ∧ o.agent ≠ 0) :=
  ⟨⟨device 0, 0, mgmt (device 0).address addrHost (toLE 1 0xF0 ++ toLE 1 4 ++ zeroB 6 ++ toLE 4 1 ++ zeroB 32), by decide +kernel⟩,
   ⟨device 0, vendor, by decide +kernel⟩⟩

/-- Meets the hypotheses of clauses of Obligations.StartUpEndsOverlap. -/
theorem witness_StartUpEndsOverlap : ∃ (s : State) (x : Straps) (o : OverlapSt), s.rst.overlap = some o ∧ o.reach = 2 ∧ s.released = true ∧ s.log.queue.length < 12 ∧ (s.rst.lastStraps = none ∨ s.rst.lastStraps = some (strapWord x)) ∧ x.bypRb = false ∧ s.noReset srcPIN :=
  ⟨{ device 0 with rst := { (device 0).rst with overlap := some ⟨2, false, 0⟩ } }, ⟨1, 2, 0, false, false, true, true⟩, ⟨2, false, 0⟩, by decide +kernel⟩

/-- Meets the hypotheses of clauses of Obligations.ReferenceCommands. -/
theorem witness_ReferenceCommands :
    (∃ (s : State), s.flag CLK.STAT.LOCKED = true ∧ s.flag CLK.STAT.HOLDOVER = false ∧ s.recordsOnly (srcCLK 0) = true ∧ s.clk.switching = none) ∧
    (∃ (s : State) (o : Origin) (v : Nat), s.mayWrite o CLK.SRCSEL.GO.addr = true ∧ s.log.queue.length < queuePlaces o ∧ o.agent ≠ 0 ∧ v < 2 ^ 32 ∧ s.flag (LNK.STAT.READY (v % 16)) = true) ∧
    (∃ (s : State) (o : Origin) (v : Nat), s.mayWrite o CLK.SRCSEL.GO.addr = true ∧ s.log.queue.length < queuePlaces o ∧ o.agent ≠ 0 ∧ v < 2 ^ 32 ∧ s.flag (LNK.STAT.READY (v % 16)) = false ∧ s.recordsOnly (srcCLK 2) = true) ∧
    (∃ (s : State) (n : Nat) (sv : Bool), s.clk.switching = some (n, sv) ∧ n < 16) :=
  ⟨⟨put (device 0) [(CLK.STAT.LOCKED, 1)], by decide +kernel⟩,
   ⟨put (device 0) [(LNK.STAT.READY 1, 1)], vendor, 1, by decide +kernel⟩,
   ⟨device 0, vendor, 15, by decide +kernel⟩,
   ⟨(let d := put (device 0) [(CLK.STAT.HOLDOVER, 1)]; { d with clk := { d.clk with switching := some (3, true) } }), 3, true, by decide +kernel⟩⟩

/-- Meets the hypotheses of clauses of Obligations.ClockLossAndReturn. -/
theorem witness_ClockLossAndReturn :
    (∃ (s : State), s.flag CLK.STAT.HOLDOVER = true ∧ s.clk.switching = none ∧ s.clk.holdStart + 24000 ≤ s.time.cycles ∧ s.flag CLK.STAT.SAFE = false ∧ s.recordsOnly (srcCLK 1) = true ∧ s.saf.bypassed = false) ∧
    (∃ (s : State), s.flag CLK.STAT.SAFE = false ∧ s.recordsOnly (srcCLK 1) = true ∧ s.saf.bypassed = false) ∧
    (∃ (s : State), s.flag CLK.STAT.LOCKED = false ∧ s.flag (LNK.STAT.READY (clkmLane (s.get CLK.STAT.CLKM))) = true) ∧
    (∃ (s : State) (c : Nat), s.flag CLK.STAT.LOCKED = true ∧ s.clk.relockAt = some c ∧ s.flag CLK.STAT.SAFE = true ∧ s.rst.overlap = none ∧ s.rst.starting = none ∧ c + lockDelay (s.get CLK.STAT.LOCKDLY) ≤ s.time.cycles ∧ s.geo.cur = none) :=
  ⟨⟨(let d := put (device 0) [(CLK.STAT.HOLDOVER, 1)]; { d with time := { d.time with cycles := 24000 } }), by decide +kernel⟩,
   ⟨device 0, by decide +kernel⟩,
   ⟨(let d := put (device 0) [(LNK.STAT.READY 0, 1), (CLK.STAT.SAFE, 1)]; { d with clk := { d.clk with stopped := true } }), by decide +kernel⟩,
   ⟨(let d := put (device 0) [(CLK.STAT.LOCKED, 1), (CLK.STAT.SAFE, 1)]; { d with time := { d.time with cycles := 20000 }, clk := { d.clk with relockAt := some 10000 } }), 10000, by decide +kernel⟩⟩

/-- Meets the hypotheses of clauses of Obligations.MeterAndGates. -/
theorem witness_MeterAndGates :
    (∃ (s : State) (o : Origin) (v : Nat), s.mayWrite o CLK.FMCFG.START.addr = true ∧ v < 2 ^ 32) ∧
    (∃ (s : State), s.flag CLK.FMCFG.BUSY = true ∧ s.meterRuns (s.get CLK.FMCFG.REF) = true ∧ s.recordsOnly (srcCLK 4) = true) ∧
    (∃ (s : State) (o : Origin) (v : Nat), s.answers bCLK = true ∧ s.log.queue.length < queuePlaces o ∧ o.agent ≠ 0 ∧ v < 2 ^ 32 ∧ s.recordsOnly (srcCLK 3) = true) ∧
    (∃ (s : State) (r : Nat), s.member = 1 ∧ s.isHub = true ∧ r < 12 ∧ s.cnv.ringEn.testBit r = true ∧ s.scr.decision.modes.getD r 3 = 1 ∧ s.clk.broken.testBit r = false ∧ s.forwarderOnly = false) :=
  ⟨⟨device 0, vendor, 5, by decide +kernel⟩,
   ⟨put (device 0) [(CLK.FMCFG.BUSY, 1)], by decide +kernel⟩,
   ⟨device 0, vendor, 0x7F0000, by decide +kernel⟩,
   ⟨(let d := put (device 1) [(CNV.ROLE.MEMBER, 1)]; { d with cnv := { d.cnv with ringEn := 1 }, scr := { d.scr with decision := { d.scr.decision with modes := [1] } } }), 0, by decide +kernel⟩⟩

/-- Meets the hypotheses of clauses of Obligations.PowerCommands. -/
theorem witness_PowerCommands_a :
    (∃ (s : State) (o : Origin) (v : Nat), s.mayWrite o PWR.CMD.ARM.addr = true ∧ s.log.queue.length < queuePlaces o ∧ o.agent ≠ 0 ∧ v < 2 ^ 32 ∧ s.power ≤ 1 ∧ s.flag TB.STAT.ALIGNED = true) ∧
    (∃ (s : State), s.flag PWR.CMD.ARMED = true ∧ s.pwr.tick ≤ s.tick ∧ s.pwrCode (s.get PWR.CMD.TARGET) = 0 ∧ s.get PWR.CMD.TARGET < 2 ∧ s.power ≤ 1) ∧
    (∃ (s : State), s.flag PWR.CMD.ARMED = true ∧ s.pwr.tick ≤ s.tick ∧ s.pwrCode (s.get PWR.CMD.TARGET) = 0 ∧ s.get PWR.CMD.TARGET = 3) ∧
    (∃ (s : State), s.flag PWR.CMD.ARMED = true ∧ s.pwr.tick ≤ s.tick ∧ s.pwrCode (s.get PWR.CMD.TARGET) ≠ 0 ∧ s.recordsOnly (srcPWR 0) = true) :=
  ⟨⟨device 0, vendor, 16, by decide +kernel⟩,
   ⟨put (device 0) [(PWR.CMD.ARMED, 1), (PWR.CMD.TARGET, 1)], by decide +kernel⟩,
   ⟨put (device 0) [(PWR.STAT.STATE, 1), (PWR.CMD.ARMED, 1), (PWR.CMD.TARGET, 3)], by decide +kernel⟩,
   ⟨put (device 0) [(PWR.CMD.ARMED, 1), (PWR.CMD.TARGET, 0)], by decide +kernel⟩⟩

/-- Meets the hypotheses of clauses of Obligations.PowerCommands. -/
theorem witness_PowerCommands_b : ∃ (s : State) (k : Nat) (c : Nat), s.pwr.trans = some (k, c) :=
  ⟨(let d := put (device 0) [(PWR.STAT.INTRANS, 1)]; { d with time := { d.time with cycles := 20000 }, pwr := { d.pwr with trans := some (1, 10000) } }), 1, 10000, by decide +kernel⟩

/-- Meets the hypotheses of clauses of Obligations.TimeFrameLaunch. -/
theorem witness_TimeFrameLaunch :
    (∃ (s : State), s.launchesTime = true) ∧
    (∃ (s : State), s.launchesTime = false) :=
  ⟨⟨device 2, by decide +kernel⟩,
   ⟨device 0, by decide +kernel⟩⟩

/-- Meets the hypotheses of clauses of Obligations.TimeFrameTaken. -/
theorem witness_TimeFrameTaken : ∃ (s : State) (n : Nat) (x : Nat) (f : Frame), (s.arrive n f).1 = true ∧ let m := (s.arrive n f).2; m.isCell = true ∧ m.inReset = false ∧ m.timeRuns = true ∧ m.frameDomain f = some x ∧ incrOk (f.field 5 0 8) = true ∧ m.time.accepted.contains (f.field 6 2 2, f.field 1 0 8) = false :=
  ⟨device 0, 0, 0, sealFrame ⟨4, 0, false, 0, 0, addrAll, toLE 8 256 ++ toLE 8 1 ++ zeroB 16 ++ toLE 8 (5 * 2 ^ 32) ++ (toLE 1 0 ++ [0] ++ toLE 2 0x7E00 ++ zeroB 4), false, 0, .eof, 0⟩, by decide +kernel⟩

/-- Meets the hypotheses of clauses of Obligations.TimeDomains. -/
theorem witness_TimeDomains :
    (∃ (s : State) (x : Nat), x < 2 ∧ s.domainStale x = true) ∧
    (∃ (s : State) (o : Origin) (v : Nat), s.mayWrite o TB.DOMSW.ARM.addr = true ∧ v < 2 ^ 32) ∧
    (∃ (s : State), s.flag TB.DOMSW.ARMED = true ∧ s.time.switchTick ≤ s.tick ∧ s.get TB.DOMSW.TARGET ≠ s.gov) :=
  ⟨⟨put (device 0) [(TB.STAT.VALIDA, 1)], 0, by decide +kernel⟩,
   ⟨device 0, vendor, 0x10010, by decide +kernel⟩,
   ⟨(let d := put (device 0) [(TB.DOMSW.ARMED, 1), (TB.DOMSW.TARGET, 1)]; { d with time := { d.time with offA := some 77777, offB := some (-99), handoff := 33 } }), by decide +kernel⟩⟩

/-- Meets the hypotheses of clauses of Obligations.CentralTime. -/
theorem witness_CentralTime :
    (∃ (s : State) (o : Origin) (hi : Nat), s.isCentral = true ∧ s.mayWrite o TB.INCR_HI.NS.addr = true ∧ s.log.queue.length < queuePlaces o ∧ o.agent ≠ 0 ∧ hi < 2 ^ 32) ∧
    (∃ (s : State) (o : Origin) (v : Nat), s.isCentral = true ∧ s.mayWrite o TB.SETCMD.STEP.addr = true ∧ v < 2 ^ 32 ∧ s.inRun = false) ∧
    (∃ (s : State) (o : Origin) (v : Nat) (w : _), s.isCentral = true ∧ s.mayWrite o TB.SETCMD.STEP.addr = true ∧ v < 2 ^ 32 ∧ s.time.stepNext = some w ∧ s.timeRuns = true ∧ s.pending = [] ∧ s.noReset srcADC ∧ s.noReset srcPIN) ∧
    (∃ (s : State) (o : Origin) (v : Nat), s.isCentral = true ∧ s.mayWrite o TB.SETCMD.STEP.addr = true ∧ v < 2 ^ 32 ∧ s.inRun = true) :=
  ⟨⟨device 2, vendor, 5, by decide +kernel⟩,
   ⟨put (device 2) [(PWR.STAT.STATE, 1), (TB.SETNS.NS, 999999999), (TB.SETSEC_LO.SEC, 7)], vendor, 1, by decide +kernel⟩,
   ⟨(let d := device 2; { d with time := { d.time with stepNext := some (77 * 2 ^ 32) } }), vendor, 1, 77 * 2 ^ 32, by decide +kernel⟩,
   ⟨device 2, vendor, 1, by decide +kernel⟩⟩

/-- Meets the hypotheses of clauses of Obligations.SnapshotAndCompare. -/
theorem witness_SnapshotAndCompare :
    (∃ (s : State) (o : Origin) (v : Nat), s.mayWrite o TB.SNAP.CAPTURE.addr = true ∧ v < 2 ^ 32) ∧
    (∃ (s : State) (o : Origin) (n : Nat) (v : Nat), n < 8 ∧ v < 2 ^ 32 ∧ s.mayWrite o (TB.CMP_TARGET.TARGET n).addr = true) ∧
    (∃ (s : State) (o : Origin) (n : Nat) (v : Nat), n < 8 ∧ v < 2 ^ 32 ∧ s.mayWrite o (TB.CMP_CTRL.EN n).addr = true) ∧
    (∃ (s : State) (n : Nat), n < 8 ∧ s.flag (TB.CMP_CTRL.EN n) = true ∧ (s.cmpReached n || s.time.lateFire.contains n) = true ∧ s.get (TB.CMP_CTRL.DEST n) ≠ 2) :=
  ⟨⟨device 0, vendor, 1, by decide +kernel⟩,
   ⟨put (device 0) [(TB.CMP_CTRL.EN 7, 1)], vendor, 7, 0, by decide +kernel⟩,
   ⟨put (device 0) [(TB.CMP_CTRL.EN 7, 1)], vendor, 7, 0, by decide +kernel⟩,
   ⟨put (device 0) [(TB.CMP_CTRL.EN 7, 1), (TB.CMP_CTRL.DEST 7, 0), (TB.CMP_CTRL.PERIODIC 7, 0)], 7, by decide +kernel⟩⟩

/-- Meets the hypotheses of clauses of Obligations.LaneState. -/
theorem witness_LaneState_a :
    (∃ (s : State) (n : Nat), n < 16 ∧ s.laneOn n = true ∧ s.flag (LNK.STAT.PEERRX n) = true ∧ s.clk.stopped = false ∧ s.clk.rateHold = false ∧ s.laneUp n = false ∧ (s.lane n).badHeads = []) ∧
    (∃ (s : State) (n : Nat), n < 16 ∧ s.laneUp n = true ∧ s.flag (LNK.STAT.LOCK n) = true ∧ s.recordsOnly (srcSYS 5) = true ∧ s.noReset srcCLK) ∧
    (∃ (s : State) (n : Nat), n < 16 ∧ s.laneUp n = true ∧ 16 ≤ (s.lane n).idleBad) ∧
    (∃ (n : Nat), n < 16) :=
  ⟨⟨put (device 0) [(LNK.CTRL.MODE 15, 2), (LNK.STAT.UP 15, 0), (LNK.STAT.LOCK 15, 0), (LNK.STAT.PEERRX 15, 1)], 15, by decide +kernel⟩,
   ⟨put (device 0) [(LNK.CTRL.MODE 0, 1)], 0, by decide +kernel⟩,
   ⟨device 0 |>.modLane 1 (fun l => { l with idleBad := 16 }), 1, by decide +kernel⟩,
   ⟨0, by decide +kernel⟩⟩

/-- Meets the hypotheses of clauses of Obligations.LaneState. -/
theorem witness_LaneState_b :
    (∃ (s : State) (n : Nat), n < 16 ∧ s.recordsOnly (srcSYS 5) = true ∧ s.noReset srcCLK ∧ s.runs bPIN = true) ∧
    (∃ (s : State) (n : Nat), n < 16 ∧ s.receives n = true) :=
  ⟨⟨put (device 0) [(PIN.LOSEN.EN, 2)], 1, by decide +kernel⟩,
   ⟨device 0, 1, by decide +kernel⟩⟩

/-- Meets the hypotheses of clauses of Obligations.FramePassage. -/
theorem witness_FramePassage :
    (∃ (s : State) (n : Nat) (o : Nat) (f : Frame), s.hears n f = true ∧ s.forwardLane n = some o ∧ (f.ftype = ftTally ∨ f.ftype = ftOrder) ∧ f.ending = .eof ∧ f.stomp = false ∧ lenFinding (s.laneKind n) f = .good ∧ crcGood f = true ∧ s.laneUp o = true ∧ s.outFree o = true) ∧
    (∃ (s : State) (n : Nat) (w : WaitSt) (rest : List WaitSt), n < 16 ∧ (s.lane n).buffer = [] ∧ (s.lane n).waiting = w :: rest ∧ s.laneUp n = true ∧ s.outFree n = true ∧ s.fits n w.frame.blocks = true) :=
  ⟨⟨device 0, 0, 1, sealFrame ⟨2, 0, false, 255, 0, addrAll, zeroB 64, false, 0, .eof, 0⟩, by decide +kernel⟩,
   ⟨device 0 |>.modLane 1 (fun l => { l with waiting := [⟨mgmt 5 6 (zeroB 8), 0, 0⟩, ⟨mgmt 6 6 (zeroB 8), 0, 0⟩] }), 1, ⟨mgmt 5 6 (zeroB 8), 0, 0⟩, [⟨mgmt 6 6 (zeroB 8), 0, 0⟩], by decide +kernel⟩⟩

/-- Meets the hypotheses of clauses of Obligations.RateAndUnwrap. -/
theorem witness_RateAndUnwrap :
    (∃ (s : State) (o : Origin) (n : Nat) (v : Nat), n < 16 ∧ v < 2 ^ 32 ∧ s.mayWrite o (LNK.RATECMD.ARM n).addr = true ∧ (s.isCell && n == 1) = false) ∧
    (∃ (s : State) (n : Nat), n < 16 ∧ s.flag (LNK.RATECMD.ARMED n) = true ∧ 0 ≤ seqDiff 32 s.short (s.get (LNK.RATEAT.AT n)) ∧ s.recordsOnly (srcSYS 5) = true) ∧
    (∃ (s : State) (o : Origin) (n : Nat) (v : Nat), n < 16 ∧ v < 2 ^ 32 ∧ s.mayWrite o (LNK.UNWRAP.ARM n).addr = true ∧ (s.isCell && n == 1) = false ∧ (s.isHub && n == 13) = false) ∧
    (∃ (s : State) (n : Nat), n < 16 ∧ s.flag (LNK.UNWRAP.ARMED n) = true ∧ (s.lane n).unwrapTick ≤ s.tick ∧ s.recordsOnly (srcCLK 2) = true) :=
  ⟨⟨put (device 0) [(LNK.RATEAT.AT 0, 100)], vendor, 0, 1, by decide +kernel⟩,
   ⟨put (device 0) [(LNK.RATECMD.ARMED 0, 1)], 0, by decide +kernel⟩,
   ⟨device 0, vendor, 0, 16, by decide +kernel⟩,
   ⟨put (device 0) [(LNK.UNWRAP.ARMED 0, 1), (LNK.STAT.WRAP 0, 1), (LNK.STAT.WRAP 1, 1)], 0, by decide +kernel⟩⟩

/-- Meets the hypotheses of clauses of Obligations.EchoMeasurement. -/
theorem witness_EchoMeasurement_a :
    (∃ (s : State) (o : Origin) (n : Nat) (v : Nat), n < 16 ∧ v < 2 ^ 32 ∧ s.mayWrite o (LNK.ECHOCMD.START n).addr = true ∧ s.initiates n = true ∧ (s.lane n).echo.active = false) ∧
    (∃ (s : State) (n : Nat), n < 16 ∧ s.initiates n = true ∧ (s.lane n).echo.active = false ∧ s.laneUp n = true ∧ s.flag (LNK.STAT.RATE n) = false ∧ (s.lane n).upFull = false) ∧
    (∃ (s : State) (n : Nat), (s.lane n).echo.active = true ∧ (s.lane n).echo.requests = 0 ∧ (s.lane n).echo.waiting = false ∧ (s.lane n).echo.sentTick ≠ s.tick + 1 ∧ s.laneUp n = true) ∧
    (∃ (s : State) (n : Nat) (f : Frame), (s.rxFrame n f).1 = true ∧ f.ftype = ftEcho ∧ f.field 1 0 1 = 0 ∧ s.initiates n = false ∧ s.laneUp n = true) :=
  ⟨⟨device 0, vendor, 0, 1, by decide +kernel⟩,
   ⟨device 0, 0, by decide +kernel⟩,
   ⟨device 0 |>.modLane 0 (fun l => { l with echo := { l.echo with active := true } }), 0, by decide +kernel⟩,
   ⟨device 0, 1, sealFrame ⟨5, 0, false, 0, 0, addrAll, toLE 1 0 ++ toLE 1 4 ++ zeroB 6 ++ toLE 8 100 ++ toLE 8 300 ++ toLE 8 400, false, 0, .eof, 0⟩, by decide +kernel⟩⟩

/-- Meets the hypotheses of clauses of Obligations.EchoMeasurement. -/
theorem witness_EchoMeasurement_b :
    (∃ (s : State) (n : Nat) (age : Nat) (f : Frame), (s.rxFrame n f).1 = true ∧ f.ftype = ftEcho ∧ f.field 1 0 1 = 1 ∧ (s.lane n).echo.active = true ∧ (s.lane n).echo.waiting = true ∧ f.field 1 1 1 = (s.lane n).echo.eid ∧ let t4 := s.stamp + 2 ^ 38 - age % 2 ^ 38; let rs := (s.lane n).echo.results ++ [seqDiff 32 t4 (f.field 2 0 8) - seqDiff 32 (f.field 4 0 8) (f.field 3 0 8)]; rs.length < 8) ∧
    (∃ (s : State) (n : Nat) (age : Nat) (f : Frame), (s.rxFrame n f).1 = true ∧ f.ftype = ftEcho ∧ f.field 1 0 1 = 1 ∧ (s.lane n).echo.active = true ∧ (s.lane n).echo.waiting = true ∧ f.field 1 1 1 = (s.lane n).echo.eid ∧ let t4 := s.stamp + 2 ^ 38 - age % 2 ^ 38; let rs := (s.lane n).echo.results ++ [seqDiff 32 t4 (f.field 2 0 8) - seqDiff 32 (f.field 4 0 8) (f.field 3 0 8)]; n < 16 ∧ rs.length = 8 ∧ s.isHub = false) ∧
    (∃ (s : State) (n : Nat) (f : Frame), n < 16 ∧ (s.rxFrame n f).1 = true ∧ f.ftype = ftEcho ∧ f.field 1 0 1 = 2 ∧ s.initiates n = false) ∧
    (∃ (s : State) (n : Nat), n < 16 ∧ (s.lane n).echo.active = true ∧ (s.lane n).echo.requests ≠ 0 ∧ (s.lane n).echo.startTick + 32 ≤ s.tick) :=
  ⟨⟨device 0 |>.modLane 0 (fun l => { l with echo := { l.echo with active := true, waiting := true, requests := 1 } }), 0, 3, sealFrame ⟨5, 0, false, 0, 0, addrAll, toLE 1 1 ++ toLE 1 0 ++ zeroB 6 ++ toLE 8 100 ++ toLE 8 300 ++ toLE 8 400, false, 0, .eof, 0⟩, by decide +kernel⟩,
   ⟨device 0 |>.modLane 0 (fun l => { l with echo := { l.echo with active := true, waiting := true, requests := 8, eid := 7, results := [1, 2, 3, 4, 5, 6, 7] } }), 0, 3, sealFrame ⟨5, 0, false, 0, 0, addrAll, toLE 1 1 ++ toLE 1 7 ++ zeroB 6 ++ toLE 8 100 ++ toLE 8 300 ++ toLE 8 400, false, 0, .eof, 0⟩, by decide +kernel⟩,
   ⟨device 0, 1, sealFrame ⟨5, 0, false, 0, 0, addrAll, toLE 1 2 ++ toLE 1 0 ++ zeroB 6 ++ toLE 8 100 ++ toLE 8 300 ++ toLE 8 400, false, 0, .eof, 0⟩, by decide +kernel⟩,
   ⟨(put (device 0) [(LNK.ECHOCMD.BUSY 0, 1)] |>.modLane 0 (fun l => { l with echo := { l.echo with active := true, requests := 1 } }) |> fun d => { d with time := { d.time with scale := 33 * 204800 * 2 ^ 32 } }), 0, by decide +kernel⟩⟩

/-- Meets the hypotheses of clauses of Obligations.PtpService. -/
theorem witness_PtpService_a :
    (∃ (s : State) (h : EthHead) (m : PtpMsg) (g : MasterSt), (s.ptpTake h m (!m.twoStep && decide (-4 ≤ m.logInterval) && decide (m.logInterval ≤ 0))).1 = true ∧ s.time.ptp.master = some g ∧ m.source = g.identity) ∧
    (∃ (s : State) (h : EthHead) (m : PtpMsg), (s.ptpTake h m true).1 = true) ∧
    (∃ (s : State) (g : MasterSt), s.ptpRuns = true ∧ s.time.ptp.master = some g ∧ s.masterLost g = true) ∧
    (∃ (s : State) (h : EthHead) (m : PtpMsg), (s.ptpTake h m true).1 = true ∧ s.ethTx = true) :=
  ⟨⟨(let d := put (device 2) [(LNK.CTRL.MODE 15, 2), (ETH.CTRL.RXEN, 1), (ETH.CTRL.TXEN, 1), (ETH.CTRL.PTPEN, 1), (ETH.MACLO.MAC, 0x55)]; { d with time := { d.time with ptp := { d.time.ptp with master := some ⟨1, 6, 0x20, 5, 1, 9, 0⟩ } } }), ⟨64, true, 0⟩, ⟨0, false, 0, 3, 9, 0, 1000, 65536, ⟨1, 6, 0x20, 5, 1, 9, 0⟩, .named⟩, ⟨1, 6, 0x20, 5, 1, 9, 0⟩, by decide +kernel⟩,
   ⟨put (device 2) [(LNK.CTRL.MODE 15, 2), (ETH.CTRL.RXEN, 1), (ETH.CTRL.TXEN, 1), (ETH.CTRL.PTPEN, 1), (ETH.MACLO.MAC, 0x55)], ⟨64, true, 0⟩, ⟨0, false, 0, 3, 9, 0, 1000, 65536, ⟨1, 6, 0x20, 5, 1, 9, 0⟩, .named⟩, by decide +kernel⟩,
   ⟨(let d := put (device 2) [(LNK.CTRL.MODE 15, 2), (ETH.CTRL.RXEN, 1), (ETH.CTRL.TXEN, 1), (ETH.CTRL.PTPEN, 1), (ETH.MACLO.MAC, 0x55)]; { d with time := { d.time with ptp := { d.time.ptp with master := some ⟨1, 6, 0x20, 5, 1, 9, 0⟩ } } }), ⟨1, 6, 0x20, 5, 1, 9, 0⟩, by decide +kernel⟩,
   ⟨put (device 2) [(LNK.CTRL.MODE 15, 2), (ETH.CTRL.RXEN, 1), (ETH.CTRL.TXEN, 1), (ETH.CTRL.PTPEN, 1), (ETH.MACLO.MAC, 0x55)], ⟨64, true, 0⟩, ⟨0, false, 0, 3, 9, 0, 1000, 65536, ⟨1, 6, 0x20, 5, 1, 9, 0⟩, .named⟩, by decide +kernel⟩⟩

/-- Meets the hypotheses of clauses of Obligations.PtpService. -/
theorem witness_PtpService_b :
    (∃ (s : State), s.ptpRuns = true ∧ s.ethTx = true) ∧
    (∃ (s : State) (h : EthHead) (m : PtpMsg), (s.ptpTake h m (!m.twoStep)).1 = true ∧ s.time.ptp.waiting = true ∧ m.seq = s.time.ptp.seq ∧ m.requesting = s.mac) :=
  ⟨⟨put (device 2) [(LNK.CTRL.MODE 15, 2), (ETH.CTRL.RXEN, 1), (ETH.CTRL.TXEN, 1), (ETH.CTRL.PTPEN, 1), (ETH.MACLO.MAC, 0x55)], by decide +kernel⟩,
   ⟨(let d := put (device 2) [(LNK.CTRL.MODE 15, 2), (ETH.CTRL.RXEN, 1), (ETH.CTRL.TXEN, 1), (ETH.CTRL.PTPEN, 1), (ETH.MACLO.MAC, 0x55)]; { d with time := { d.time with ptp := { d.time.ptp with waiting := true, seq := 3 } } }), ⟨64, true, 0⟩, ⟨0, false, 0, 3, 9, 0x55, 1000, 65536, ⟨1, 6, 0x20, 5, 1, 9, 0⟩, .named⟩, by decide +kernel⟩⟩

/-- Meets the hypotheses of clauses of Obligations.EthernetFrames. -/
theorem witness_EthernetFrames :
    (∃ (s : State) (h : EthHead), (s.ethRx h).1 = true) ∧
    (∃ (s : State) (h : EthHead) (f : SvFrame) (i : Nat), (s.ethRx h).1 = true ∧ s.svMatch f = some i ∧ f.simulated = false ∧ s.svGood i f = true ∧ (SMap.get [] s.eth.held i).length < 512) ∧
    (∃ (s : State) (i : Nat), i < 8 ∧ s.runs bETH = true ∧ s.getBit ETH.SVCTL.SVEN i = true ∧ 4 * 10 ^ 9 ≤ SMap.get 0 s.eth.run i * s.tu * 5 * s.svRate i ∧ s.flag (srcETH i).live = false ∧ s.recordsOnly (srcETH i) = true) ∧
    (∃ (s : State), s.runs bETH = true ∧ s.recordsOnly (srcETH 8) = true) :=
  ⟨⟨put (device 0) [(LNK.CTRL.MODE 15, 2), (ETH.CTRL.RXEN, 1), (ETH.CTRL.TXEN, 1), (ETH.CTRL.PTPEN, 1), (ETH.MACLO.MAC, 0x55)], ⟨64, true, 0⟩, by decide +kernel⟩,
   ⟨put (device 1) [(LNK.CTRL.MODE 15, 2), (ETH.CTRL.RXEN, 1), (ETH.CTRL.TXEN, 1), (ETH.CTRL.PTPEN, 1), (ETH.MACLO.MAC, 0x55), (ETH.SVCTL.SVEN, 0x80), (ETH.SV_DSTLO.MAC 7, 0x77), (ETH.SV_CFG.APPID 7, 0x4000), (ETH.SV_CFG.VID 7, 4), (ETH.SV_IDCRC.CRC 7, 0xABCD)], ⟨128, true, 0⟩, ⟨0x77, 4, 0x4000, 0xABCD, false, true, 3999, 2, List.replicate 8 ⟨-5, 0, false⟩⟩, 7, by decide +kernel⟩,
   ⟨(let d := put (device 1) [(LNK.CTRL.MODE 15, 2), (ETH.CTRL.RXEN, 1), (ETH.CTRL.TXEN, 1), (ETH.CTRL.PTPEN, 1), (ETH.MACLO.MAC, 0x55), (ETH.SVCTL.SVEN, 0x80), (ETH.SV_DSTLO.MAC 7, 0x77), (ETH.SV_CFG.APPID 7, 0x4000), (ETH.SV_CFG.VID 7, 4), (ETH.SV_IDCRC.CRC 7, 0xABCD)]; { d with eth := { d.eth with run := [(7, 100000)] } }), 7, by decide +kernel⟩,
   ⟨put (device 1) [(LNK.CTRL.MODE 15, 2), (ETH.CTRL.RXEN, 1), (ETH.CTRL.TXEN, 1), (ETH.CTRL.PTPEN, 1), (ETH.MACLO.MAC, 0x55), (ETH.SVCTL.SVEN, 0x80), (ETH.SV_DSTLO.MAC 7, 0x77), (ETH.SV_CFG.APPID 7, 0x4000), (ETH.SV_CFG.VID 7, 4), (ETH.SV_IDCRC.CRC 7, 0xABCD)], by decide +kernel⟩⟩

/-- Meets the hypotheses of clauses of Obligations.AccessWrites. -/
theorem witness_AccessWrites :
    (∃ (s : State) (o : Origin) (a : Nat) (width : Nat), (accessOk a width true = false ∨ (s.isCustomer o && !customerWrites a) = true ∨ s.hostinDirect a = true)) ∧
    (∃ (s : State) (o : Origin) (a : Nat), isWindow a = true ∧ a % 4 = 0 ∧ (s.isCustomer o && !customerWrites a) = false ∧ s.hostinDirect a = false ∧ (s.answers (blockOf a) = false ∨ fieldsAt a = [])) ∧
    (∃ (s : State) (o : Origin) (a : Nat), isWindow a = true ∧ a % 4 = 0 ∧ s.mayWrite o a = true ∧ blockOf a ∈ [bSEC, bADC, bSDM] ∧ fieldsAt a ≠ [] ∧ cntclrOf a = none ∧ hasAccess (fieldsAt a) .rwa = false ∧ criticalReg a = false) ∧
    (∃ (s : State) (o : Origin) (a : Nat) (width : Nat), accessOk a width true = true ∧ (s.isCustomer o && !customerWrites a) = false ∧ isWindow a = false ∧ (width = 64 ∨ (s.sys.eccSys = [] ∧ s.sys.eccCap = []))) :=
  ⟨⟨device 0, vendor, 0x10000000, 32, by decide +kernel⟩,
   ⟨put (device 0) [(CLK.GATE.RUN, 0)], vendor, windowBase + 0x10000 * bPWM, by decide +kernel⟩,
   ⟨device 0, vendor, SDM.CH_LIMCNT.COUNT 0 |>.addr, by decide +kernel⟩,
   ⟨device 0, vendor, 0x203FFFF8, 64, by decide +kernel⟩⟩

/-- Meets the hypotheses of clauses of Obligations.ReadsAndCounterClear. -/
theorem witness_ReadsAndCounterClear_a :
    (∃ (s : State) (o : Origin) (a : Nat) (width : Nat), (accessOk a width false = false ∨ (s.isCustomer o && !customerReads a) = true)) ∧
    (∃ (s : State) (a : Nat), wideLow a = true ∧ a % 4 = 0 ∧ s.answers (blockOf a) = true ∧ fieldsAt a ≠ [] ∧ SMap.get 0 s.sys.parity a = 0) ∧
    (∃ (s : State) (a : Nat), wideHigh a = true ∧ a % 4 = 0 ∧ s.answers (blockOf a) = true ∧ fieldsAt a ≠ [] ∧ SMap.get 0 s.sys.parity a = 0) ∧
    (∃ (s : State) (o : Origin) (b : Nat) (lo : Nat) (hi : Nat), (b, lo, hi) ∈ [(bPWM, 0x180, 0x1A0), (bADC, 0x180, 0x18C), (bENV, 0x280, 0x288), (bSAF, 0x180, 0x194), (bRED, 0x80, 0x9C), (bCLK, 0x80, 0x90), (bPWR, 0x80, 0x84), (bRST, 0x80, 0x94), (bSEC, 0x180, 0x18C), (bMGT, 0x80, 0x90)] ∧ s.mayWrite o (cntclrAddr b 0) = true) :=
  ⟨⟨device 0, vendor, 0x50000000, 32, by decide +kernel⟩,
   ⟨device 0, (LNK.RXFRM_LO.COUNT 3).addr, by decide +kernel⟩,
   ⟨device 0, (LNK.RXFRM_HI.COUNT 3).addr, by decide +kernel⟩,
   ⟨(List.range 64).foldl (fun d i => d.setReg (windowBase + 0x10000 * bPWM + 4 * (i + 0x180 / 4 - 8)) 0x55) (device 0), vendor, bPWM, 0x180, 0x1A0, by decide +kernel⟩⟩

/-- Meets the hypotheses of clauses of Obligations.ReadsAndCounterClear. -/
theorem witness_ReadsAndCounterClear_b :
    (∃ (s : State) (o : Origin) (n : Nat), n < 16 ∧ s.mayWrite o (cntclrAddr bLNK n) = true) ∧
    (∃ (s : State) (o : Origin), s.mayWrite o (cntclrAddr bSYS 0) = true) ∧
    (∃ (s : State) (o : Origin), s.mayWrite o (cntclrAddr bSDM 0) = true) :=
  ⟨⟨(List.range 64).foldl (fun d i => d.setReg (windowBase + 0x10000 * bLNK + 0x1000 * 0 + 4 * i) 0x55) (device 0), vendor, 0, by decide +kernel⟩,
   ⟨put (device 0) [(SYS.PARCNT.COUNT, 5), (SYS.INJCNT.COUNT, 4), (SYS.ECC_CECNT.COUNT 2, 4), (SYS.ECC_UECNT.COUNT 0, 2)], vendor, by decide +kernel⟩,
   ⟨put (device 0) [(SDM.CH_LIMCNT.COUNT 7, 5)], vendor, by decide +kernel⟩⟩

/-- Meets the hypotheses of clauses of Obligations.CanvasLoad. -/
theorem witness_CanvasLoad_a :
    (∃ (s : State), (s.flag CNV.STAT.LOADING = false ∨ s.rst.overlap.isSome = true)) ∧
    (∃ (s : State), s.flag CNV.STAT.LOADING = true ∧ s.rst.overlap = none ∧ (s.flag CLK.STAT.LOCKED || s.flag CLK.STAT.HOLDOVER) = true ∧ let b := s.bootFirmware; let boot := b.get RST.STRAPS.BOOT; let seen (t : State) : State := if t.flag CNV.STAT.LOADING then t else t.discoverAll; (boot = 3 ∨ b.flag SEC.BOOTSTAT.FWOK = false)) ∧
    (∃ (s : State), s.flag CNV.STAT.LOADING = true ∧ s.rst.overlap = none ∧ (s.flag CLK.STAT.LOCKED || s.flag CLK.STAT.HOLDOVER) = true ∧ let b := s.bootFirmware; let boot := b.get RST.STRAPS.BOOT; let seen (t : State) : State := if t.flag CNV.STAT.LOADING then t else t.discoverAll; boot ≠ 3 ∧ b.flag SEC.BOOTSTAT.FWOK = true ∧ b.flag CNV.STAT.PENDING = false ∧ b.activeGood = true) ∧
    (∃ (s : State), s.flag CNV.STAT.LOADING = true ∧ s.rst.overlap = none ∧ (s.flag CLK.STAT.LOCKED || s.flag CLK.STAT.HOLDOVER) = true ∧ let b := s.bootFirmware; let boot := b.get RST.STRAPS.BOOT; let seen (t : State) : State := if t.flag CNV.STAT.LOADING then t else t.discoverAll; boot ≠ 3 ∧ b.flag SEC.BOOTSTAT.FWOK = true ∧ b.flag CNV.STAT.PENDING = false ∧ b.activeGood = false) :=
  ⟨⟨device 0, by decide +kernel⟩,
   ⟨put (device 0) [(CNV.STAT.LOADING, 1), (CNV.STAT.ACTIVE, 0), (CLK.STAT.LOCKED, 1), (RST.STRAPS.BOOT, 3)], by decide +kernel⟩,
   ⟨withHash ((withHash ((put (device 0) [(CNV.STAT.LOADING, 1), (CNV.STAT.ACTIVE, 0), (CLK.STAT.LOCKED, 1)]).sramPut (fwArea + 8) [12]) SEC.FWHASH.HASH (zeroB 8 ++ toLE 4 12)).sramPut (cnvActive + 8) [12]) CNV.HASH.HASH (zeroB 8 ++ toLE 4 12), by decide +kernel⟩,
   ⟨withHash ((put (device 0) [(CNV.STAT.LOADING, 1), (CNV.STAT.ACTIVE, 0), (CLK.STAT.LOCKED, 1)]).sramPut (fwArea + 8) [12]) SEC.FWHASH.HASH (zeroB 8 ++ toLE 4 12), by decide +kernel⟩⟩

/-- Meets the hypotheses of clauses of Obligations.CanvasLoad. -/
theorem witness_CanvasLoad_b :
    (∃ (s : State), s.flag CNV.STAT.LOADING = true ∧ s.rst.overlap = none ∧ (s.flag CLK.STAT.LOCKED || s.flag CLK.STAT.HOLDOVER) = true ∧ let b := s.bootFirmware; let boot := b.get RST.STRAPS.BOOT; let seen (t : State) : State := if t.flag CNV.STAT.LOADING then t else t.discoverAll; boot ≠ 3 ∧ b.flag SEC.BOOTSTAT.FWOK = true ∧ b.flag CNV.STAT.PENDING = true ∧ let img := b.sramGet cnvStaging b.cnv.push.len; let r := b.tryImage img b.cnv.push.len (some b.cnv.push); let m : State := { r.2 with cnv := { r.2.cnv with push := {} } }; m.activeGood = true) ∧
    (∃ (s : State), s.flag CNV.STAT.LOADING = true ∧ s.rst.overlap = none ∧ (s.flag CLK.STAT.LOCKED || s.flag CLK.STAT.HOLDOVER) = true ∧ let b := s.bootFirmware; let boot := b.get RST.STRAPS.BOOT; let seen (t : State) : State := if t.flag CNV.STAT.LOADING then t else t.discoverAll; boot ≠ 3 ∧ b.flag SEC.BOOTSTAT.FWOK = true ∧ b.flag CNV.STAT.PENDING = true ∧ let img := b.sramGet cnvStaging b.cnv.push.len; let r := b.tryImage img b.cnv.push.len (some b.cnv.push); let m : State := { r.2 with cnv := { r.2.cnv with push := {} } }; r.1 = false ∧ m.activeGood = false) :=
  ⟨⟨withHash ((withHash ((put (device 0) [(CNV.STAT.LOADING, 1), (CNV.STAT.ACTIVE, 0), (CLK.STAT.LOCKED, 1), (CNV.STAT.PENDING, 1)]).sramPut (fwArea + 8) [12]) SEC.FWHASH.HASH (zeroB 8 ++ toLE 4 12)).sramPut (cnvActive + 8) [12]) CNV.HASH.HASH (zeroB 8 ++ toLE 4 12), by decide +kernel⟩,
   ⟨withHash ((put (device 0) [(CNV.STAT.LOADING, 1), (CNV.STAT.ACTIVE, 0), (CLK.STAT.LOCKED, 1), (CNV.STAT.PENDING, 1)]).sramPut (fwArea + 8) [12]) SEC.FWHASH.HASH (zeroB 8 ++ toLE 4 12), by decide +kernel⟩⟩

/-- Meets the hypotheses of clauses of Obligations.Pushes. -/
theorem witness_Pushes_a :
    (∃ (s : State) (n : Nat) (f : Frame) (fw : Bool), ∃ got : Nat × State, s.executes n f (if fw then opFwpush else opCpush) (permNeed (if fw then 8 else 4)) pushLen = some got ∧ (let i := got.1; let m := got.2; let c : Instr := if fw then .fwpush n f else .cpush n f; let t := txnOf n f; let bs := pushBytes t; let p := m.push fw; let regs := [(stageLen fw).addr, CNV.STAT.CHECKING.addr, MGT.FWSTAT.STAGED.addr]; m.flag CNV.STAT.LOADING = true ∧ m.recordsOnly (srcMGT 0) = true)) ∧
    (∃ (s : State) (n : Nat) (f : Frame) (fw : Bool), ∃ got : Nat × State, s.executes n f (if fw then opFwpush else opCpush) (permNeed (if fw then 8 else 4)) pushLen = some got ∧ (let i := got.1; let m := got.2; let c : Instr := if fw then .fwpush n f else .cpush n f; let t := txnOf n f; let bs := pushBytes t; let p := m.push fw; let regs := [(stageLen fw).addr, CNV.STAT.CHECKING.addr, MGT.FWSTAT.STAGED.addr]; m.flag CNV.STAT.LOADING = false ∧ p.openNow = true ∧ t.at 0 4 ≠ 0 ∧ t.at 0 4 = p.len ∧ p.len + bs.length ≤ p.total)) ∧
    (∃ (s : State) (n : Nat) (f : Frame) (fw : Bool), ∃ got : Nat × State, s.executes n f (if fw then opFwpush else opCpush) (permNeed (if fw then 8 else 4)) pushLen = some got ∧ (let i := got.1; let m := got.2; let c : Instr := if fw then .fwpush n f else .cpush n f; let t := txnOf n f; let bs := pushBytes t; let p := m.push fw; let regs := [(stageLen fw).addr, CNV.STAT.CHECKING.addr, MGT.FWSTAT.STAGED.addr]; m.flag CNV.STAT.LOADING = false ∧ p.openNow = false ∧ t.at 0 4 = 0 ∧ bs.length ≤ t.at 4 4 ∧ t.at 4 4 ≤ 0x80000)) :=
  ⟨⟨put (device 0) [(CNV.STAT.ACTIVE, 0), (CNV.STAT.BASECAMP, 1), (CNV.STAT.LOADING, 1)], 0, mgmt (device 0).address addrHost (txn (if (true) then opFwpush else opCpush) 0 (toLE 4 0 ++ toLE 4 4 ++ [1, 2, 3, 4])), true, found (by decide +kernel)⟩,
   ⟨(let d := put (device 0) [(CNV.STAT.ACTIVE, 0), (CNV.STAT.BASECAMP, 1), (stageLen true, 4)]; d.setPush true { openNow := true, total := 7, len := 4, src := addrHost }), 0, mgmt (device 0).address addrHost (txn (if (true) then opFwpush else opCpush) 0 (toLE 4 4 ++ toLE 4 0 ++ [1, 2, 3])), true, found (by decide +kernel)⟩,
   ⟨put (device 0) [(CNV.STAT.ACTIVE, 0), (CNV.STAT.BASECAMP, 1)], 0, mgmt (device 0).address addrHost (txn (if (true) then opFwpush else opCpush) 0 (toLE 4 0 ++ toLE 4 4 ++ [1, 2, 3, 4])), true, found (by decide +kernel)⟩⟩

/-- Meets the hypotheses of clauses of Obligations.Pushes. -/
theorem witness_Pushes_b :
    (∃ (s : State) (n : Nat) (f : Frame), ∃ got : Nat × State, s.executes n f opKeypres areaNeed (bodyLen 68) = some got ∧ (let i := got.1; let m := got.2; byteAt (txnOf n f).body 0 ≤ 1 ∧ (m.push (byteAt (txnOf n f).body 0 == 1)).openNow = true)) ∧
    (∃ (s : State) (fw : Bool), (s.push fw).openNow = true ∧ (s.push fw).lastTick + 2 ^ 20 ≤ s.tick) ∧
    (∃ (s : State), s.flag CNV.STAT.CHECKING = true ∧ s.recordsOnly (srcSEC 0) = true ∧ s.recordsOnly (srcSEC 1) = true) :=
  ⟨⟨(let d := put (device 0) [(CNV.STAT.ACTIVE, 0), (CNV.STAT.BASECAMP, 1), (stageLen true, 4)]; d.setPush true { openNow := true, total := 8, len := 4, src := addrHost }), 0, mgmt (device 0).address addrHost (txn opKeypres 0 (toLE 4 1 ++ List.replicate 64 7)), found (by decide +kernel)⟩,
   ⟨(let d := (let d := put (device 0) [(CNV.STAT.ACTIVE, 0), (CNV.STAT.BASECAMP, 1), (stageLen true, 4)]; d.setPush true { openNow := true, total := 8, len := 4, src := addrHost }); { d with time := { d.time with scale := (2 ^ 20 + 2) * 204800 * 2 ^ 32 } }), true, by decide +kernel⟩,
   ⟨(put (device 0) [(CNV.STAT.CHECKING, 1)]).setPush false { len := 64, checking := true }, by decide +kernel⟩⟩

/-- Meets the hypotheses of clauses of Obligations.Pushes. -/
theorem witness_Pushes_c : ∃ (s : State) (c : _), s.mgt.push.checking = true ∧ s.recordsOnly (srcSEC 0) = true ∧ s.recordsOnly (srcSEC 1) = true ∧ let img := s.sramGet fwStaging s.mgt.push.len; let e := s.fwCheck img s.mgt.push.len (some s.mgt.push) none; e = some c :=
  ⟨(device 0).setPush true { len := 64, checking := true }, 1, by decide +kernel⟩

/-- Meets the hypotheses of clauses of Obligations.Pushes. -/
theorem witness_Pushes_d : ∃ (s : State), s.mgt.push.checking = true ∧ s.recordsOnly (srcSEC 0) = true ∧ s.recordsOnly (srcSEC 1) = true ∧ let img := s.sramGet fwStaging s.mgt.push.len; let e := s.fwCheck img s.mgt.push.len (some s.mgt.push) none; e = none ∧ fwKind img = 0 :=
  ⟨((put (device 0) [(FUSE.WORD.VALUE 0, 0x41dfc690), (FUSE.WORD.VALUE 1, 0xe8fcc9bb), (FUSE.WORD.VALUE 2, 0x227b10c4), (FUSE.WORD.VALUE 3, 0x38ba7855), (FUSE.WORD.VALUE 4, 0xf245d439), (FUSE.WORD.VALUE 5, 0xfd671f2b), (FUSE.WORD.VALUE 6, 0xcb3926ff), (FUSE.WORD.VALUE 7, 0xde912f3b), (FUSE.WORD.VALUE 0x20, 7)]).sramPut fwStaging (toLE 136 0x63dfd4dc3a4940f99c947d750d518000d9d62c18706ccc2671a2b6b5a9692baf3ed113b7883b4c590638379db0c21cda16742ed0255048bf433391d374bc21d100000000000000000000000000000000000000000000000000000000000000000000000000000000000000000000000000000000000000000000000000000088000000010d16f1a0)).setPush true { len := 136, checking := true, key := some (toLE 64 0x73eb1dbde03318366d069f83a6f5900053c73633cb041b21c55e1a86c1f400b48e533b6fa0bf7b4625bb30667c01fb607ef9f8b8a80fef5b300628703187b2a3) }, by decide +kernel⟩

/-- Meets the hypotheses of clauses of Obligations.Pushes. -/
theorem witness_Pushes_e : ∃ (s : State), s.mgt.push.checking = true ∧ s.recordsOnly (srcSEC 0) = true ∧ s.recordsOnly (srcSEC 1) = true ∧ let img := s.sramGet fwStaging s.mgt.push.len; let e := s.fwCheck img s.mgt.push.len (some s.mgt.push) none; e = none ∧ fwKind img = 1 ∧ s.recordsOnly (srcSER 1) = true ∧ s.log.queue.length < 12 :=
  ⟨((put (device 0) [(FUSE.WORD.VALUE 0, 0x41dfc690), (FUSE.WORD.VALUE 1, 0xe8fcc9bb), (FUSE.WORD.VALUE 2, 0x227b10c4), (FUSE.WORD.VALUE 3, 0x38ba7855), (FUSE.WORD.VALUE 4, 0xf245d439), (FUSE.WORD.VALUE 5, 0xfd671f2b), (FUSE.WORD.VALUE 6, 0xcb3926ff), (FUSE.WORD.VALUE 7, 0xde912f3b), (FUSE.WORD.VALUE 0x20, 7)]).sramPut fwStaging (toLE 136 0xf773df8e9b06848e2c4f3f40445828d4a495ac08bae053cef73154724d0fa83ed113b7883b4c590638379db0c21cda16742ed0255048bf433391d374bc21d100000000000000000000000000000000000000000000000000000000000000000000000000000000000000000000000000000000000000000000000000000088000100010d16f1a0)).setPush true { len := 136, checking := true, key := some (toLE 64 0x73eb1dbde03318366d069f83a6f5900053c73633cb041b21c55e1a86c1f400b48e533b6fa0bf7b4625bb30667c01fb607ef9f8b8a80fef5b300628703187b2a3) }, by decide +kernel⟩

/-- Meets the hypotheses of clauses of Obligations.ActivationAndFlash. -/
theorem witness_ActivationAndFlash_a :
    (∃ (s : State) (o : Origin) (v : Nat), s.mayWrite o CNV.CMD.ACTIVATE.addr = true ∧ v < 2 ^ 32 ∧ v.testBit 1 = false ∧ s.activateCode = 0) ∧
    (∃ (s : State) (o : Origin) (v : Nat), s.mayWrite o CNV.CMD.ACTIVATE.addr = true ∧ v < 2 ^ 32 ∧ v.testBit 1 = false ∧ s.activateCode ≠ 0) ∧
    (∃ (s : State) (n : Nat) (f : Frame), ∃ got : Nat × State, s.executes n f opCact (permNeed 4) (bodyLen 0) = some got ∧ (let i := got.1; let m := got.2; m.activateCode = 0)) ∧
    (∃ (s : State) (n : Nat) (f : Frame), ∃ got : Nat × State, s.executes n f opCact (permNeed 4) (bodyLen 0) = some got ∧ (let i := got.1; let m := got.2; m.activateCode ≠ 0)) :=
  ⟨⟨put (device 0) [(CNV.STAT.STAGED, 1), (PWR.STAT.STATE, 1)], vendor, 1, by decide +kernel⟩,
   ⟨put (device 0) [(CNV.STAT.STAGED, 1)], vendor, 1, by decide +kernel⟩,
   ⟨put (device 0) [(CNV.STAT.ACTIVE, 0), (CNV.STAT.BASECAMP, 1), (CNV.STAT.STAGED, 1)], 0, mgmt (device 0).address addrHost (txn opCact 0 ([])), found (by decide +kernel)⟩,
   ⟨put (device 0) [(CNV.STAT.ACTIVE, 0), (CNV.STAT.BASECAMP, 1)], 0, mgmt (device 0).address addrHost (txn opCact 0 ([])), found (by decide +kernel)⟩⟩

/-- Meets the hypotheses of clauses of Obligations.ActivationAndFlash. -/
theorem witness_ActivationAndFlash_b :
    (∃ (s : State) (o : Origin) (v : Nat), s.mayWrite o CNV.CMD.DISCARD.addr = true ∧ v < 2 ^ 32 ∧ v.testBit 1 = true) ∧
    (∃ (s : State) (o : Origin) (v : Nat), s.mayWrite o CNV.CMD.DISCARD.addr = true ∧ v < 2 ^ 32 ∧ v.testBit 0 = true) ∧
    (∃ (s : State) (o : Origin) (v : Nat), s.mayWrite o CNV.CMD.DISCARD.addr = true ∧ v < 2 ^ 32 ∧ v.testBit 0 = false) ∧
    (∃ (s : State) (n : Nat) (f : Frame), ∃ got : Nat × State, s.executes n f opFlashwr areaNeed (bodyLen 2) = some got ∧ (let i := got.1; let m := got.2; let area := byteAt (txnOf n f).body 0; let slot := byteAt (txnOf n f).body 1; area ≤ 1 ∧ slot ≤ 1 ∧ (m.push (area == 1)).good = true ∧ (m.push (area == 1)).openNow = false ∧ m.mgt.flashJob = none)) :=
  ⟨⟨(put (device 0) [(CNV.STAT.STAGED, 1)]), vendor, 2, by decide +kernel⟩,
   ⟨(put (device 0) [(CNV.STAT.STAGED, 1)]), vendor, 1, by decide +kernel⟩,
   ⟨(put (device 0) [(CNV.STAT.STAGED, 1), (CNV.STAT.CHECKING, 1), (CNV.STAGELEN.BYTES, 4), (MGT.STAT.PUSHOPEN, 1)]).sramPut (cnvStaging + 1) [1, 2], vendor, 2, by decide +kernel⟩,
   ⟨(let d := device 0; withSession (d.setPush true { len := 4, good := true })), 0, tagged 5 opFlashwr 0xcacc381cf7cbdc9aeefdb628619ca731 [1, 1], found (by decide +kernel)⟩⟩

/-- Meets the hypotheses of clauses of Obligations.ActivationAndFlash. -/
theorem witness_ActivationAndFlash_c : ∃ (s : State) (area : Nat) (slot : Nat), area ≤ 1 ∧ slot ≤ 1 ∧ s.mgt.flashJob = some (area, slot) :=
  ⟨(let d := (device 0).setPush false { len := 4 }; { d.sramPut (stagingBase false) [1, 2, 3, 4] with mgt := { d.mgt with flashJob := some (0, 0) } }), 0, 0, by decide +kernel⟩

/-- Meets the hypotheses of clauses of Obligations.CellTallies. -/
theorem witness_CellTallies_a :
    (∃ (s : State), s.tickEvents = true ∧ s.forwarderOnly = false ∧ s.noReset srcLPE) ∧
    (∃ (s : State) (n : Nat) (o : Nat) (f : Frame), n < 16 ∧ o < 16 ∧ let m := (s.rxFrame n f).2; let bad := !(s.rxFrame n f).1; m.isCell = true ∧ m.unjoined = false ∧ m.wholeFrame n f ftTally = true ∧ f.wrap = false ∧ m.forwardLane n = some o) ∧
    (∃ (m : State) (f : Frame), f.body.length = 208 ∧ m.scr.bin < 64 ∧ let g := (m.markTally f).body; let h := (if m.scr.clsI then 8 else 72) + m.scr.bin; m.tallyExcluded = false) ∧
    (∃ (m : State) (f : Frame), f.body.length = 208 ∧ m.scr.bin < 64 ∧ let g := (m.markTally f).body; let h := (if m.scr.clsI then 8 else 72) + m.scr.bin; m.tallyExcluded = true) :=
  ⟨⟨(let d := device 0; { d with pwm := { d.pwm with full := 2 }, scr := { d.scr with exclNext := some true } }), by decide +kernel⟩,
   ⟨(let d := device 0; { d with sense := { d.sense with sampleDone := true }, scr := { d.scr with excluded := false, bin := 63 } }), 0, 1, sealFrame ⟨1, 0, false, 3, 0, addrAll, [0, 0, 0xFF, 0] ++ zeroB 4 ++ List.replicate 200 9, false, 0, .eof, 0⟩, by decide +kernel⟩,
   ⟨(let d := device 0; { d with sense := { d.sense with sampleDone := true }, scr := { d.scr with excluded := false, bin := 63 } }), sealFrame ⟨1, 0, false, 3, 0, addrAll, [0, 0, 0xFF, 0] ++ zeroB 4 ++ List.replicate 200 9, false, 0, .eof, 0⟩, by decide +kernel⟩,
   ⟨device 0, sealFrame ⟨1, 0, false, 3, 0, addrAll, [0, 0, 0xFF, 0] ++ zeroB 4 ++ List.replicate 200 9, false, 0, .eof, 0⟩, by decide +kernel⟩⟩

/-- Meets the hypotheses of clauses of Obligations.CellTallies. -/
theorem witness_CellTallies_b :
    (∃ (m : State) (f : Frame) (i : _), f.body.length = 208 ∧ m.scr.bin < 64 ∧ let g := (m.markTally f).body; let h := (if m.scr.clsI then 8 else 72) + m.scr.bin; i < 136 ∧ i ≠ h) ∧
    (∃ (m : State) (f : Frame) (j : _), f.body.length = 208 ∧ m.scr.bin < 64 ∧ let g := (m.markTally f).body; let h := (if m.scr.clsI then 8 else 72) + m.scr.bin; j < 16 ∧ m.position = 16 * (f.field 1 1 1 % 4) + j) ∧
    (∃ (m : State) (f : Frame) (j : _), f.body.length = 208 ∧ m.scr.bin < 64 ∧ let g := (m.markTally f).body; let h := (if m.scr.clsI then 8 else 72) + m.scr.bin; j < 16 ∧ m.position ≠ 16 * (f.field 1 1 1 % 4) + j) :=
  ⟨⟨device 0, sealFrame ⟨1, 0, false, 3, 0, addrAll, [0, 0, 0xFF, 0] ++ zeroB 4 ++ List.replicate 200 9, false, 0, .eof, 0⟩, 135, by decide +kernel⟩,
   ⟨device 0, sealFrame ⟨1, 0, false, 3, 0, addrAll, [0, 0, 0xFF, 0] ++ zeroB 4 ++ List.replicate 200 9, false, 0, .eof, 0⟩, 5, by decide +kernel⟩,
   ⟨put (device 0) [(SYS.DEVADDR.POS, 16)], sealFrame ⟨1, 0, false, 3, 0, addrAll, [0, 1, 0xFF, 0] ++ zeroB 4 ++ List.replicate 200 9, false, 0, .eof, 0⟩, 5, by decide +kernel⟩⟩

/-- Meets the hypotheses of clauses of Obligations.HubTallies. -/
theorem witness_HubTallies_a :
    (∃ (s : State), s.tickEvents = true ∧ s.forwarderOnly = false ∧ s.isHub = true ∧ s.runs bSCR = true) ∧
    (∃ (s : State), s.tickEvents = true ∧ s.forwarderOnly = false ∧ s.isCentral = true) ∧
    (∃ (s : State) (n : Nat) (k : Nat) (f : Frame), n < 12 ∧ (s.rxFrame n f).1 = true ∧ let m := (s.rxFrame n f).2; m.isHub = true ∧ m.forwarderOnly = false ∧ m.runs bSCR = true ∧ f.ftype = ftTally ∧ f.field 1 0 1 % 16 = n ∧ m.expectedTick f.seq = some k) ∧
    (∃ (s : State) (k : Nat) (f : Frame), (s.rxFrame s.crossLane f).1 = true ∧ let m := (s.rxFrame s.crossLane f).2; m.isHub = true ∧ m.forwarderOnly = false ∧ m.runs bSCR = true ∧ f.ftype = ftTally ∧ f.field 1 0 2 = m.partner ∧ m.expectedTick f.seq = some k ∧ m.recordsOnly (srcSCR 0) = true) :=
  ⟨⟨(let d := device 1; { d with cnv := { d.cnv with ringEn := 0x801 } }), by decide +kernel⟩,
   ⟨device 2, by decide +kernel⟩,
   ⟨device 1, 0, 0, sealFrame ⟨1, 0, false, 3, 0, addrAll, [0, 0, 0xFF, 0] ++ zeroB 4 ++ List.replicate 200 9, false, 0, .eof, 0⟩, by decide +kernel⟩,
   ⟨device 1, 0, sealFrame ⟨1, 0, false, 0, 0, 0x7C00, toLE 2 0x7C01 ++ [3, 0, 7, 1, 9, 0] ++ List.replicate 128 2, false, 0, .eof, 0⟩, by decide +kernel⟩⟩

/-- Meets the hypotheses of clauses of Obligations.HubTallies. -/
theorem witness_HubTallies_b :
    (∃ (s : State) (n : Nat) (o : Nat) (p : Nat) (k : Nat) (f : Frame), (s.rxFrame n f).1 = true ∧ let m := (s.rxFrame n f).2; m.isHub = true ∧ m.wholeFrame n f ftTally = true ∧ m.forwarderOnly = false ∧ m.runs bSCR = true ∧ f.wrap = false ∧ m.expectedTick f.seq = some k ∧ m.forwardLane n = some o ∧ m.wrapsAt n f.dir = false ∧ m.laneUp o = true ∧ m.trunkPos = some p ∧ f.body.length = 136 ∧ m.noReset srcRED) ∧
    (∃ (s : State) (n : Nat) (k : Nat) (f : Frame), (s.rxFrame n f).1 = true ∧ let m := (s.rxFrame n f).2; let i := f.field 1 0 1; m.isCentral = true ∧ m.forwarderOnly = false ∧ f.ftype = ftTally ∧ m.isTrunkLane n = true ∧ m.expectedTick f.seq = some k) :=
  ⟨⟨device 1, 12, 13, 5, 0, sealFrame ⟨1, 0, false, 0, 0, addrAll, [0, 255] ++ [0, 0] ++ zeroB 4 ++ zeroB 128, false, 0, .eof, 0⟩, by decide +kernel⟩,
   ⟨device 2, 2, 0, sealFrame ⟨1, 0, false, 0, 0, addrAll, [0, 2, 0, 0, 0, 0, 0, 0] ++ (toLE 2 0x7C05 ++ toLE 2 3 ++ [9, 1, 0, 0] ++ zeroB 8) ++ (toLE 2 0x7C2F ++ toLE 2 4 ++ [8, 1, 0, 0] ++ zeroB 8) ++ List.replicate 96 6, false, 0, .eof, 0⟩, by decide +kernel⟩⟩

/-- Meets the hypotheses of clauses of Obligations.Decision. -/
theorem witness_Decision :
    (∃ (s : State), s.isHub = true ∧ s.runs bSCR = true ∧ s.tickEvents = true ∧ s.basecamp = false ∧ s.forwarderOnly = false ∧ s.red.itemTick = none ∧ s.noReset srcSCR) ∧
    (∃ (s : State), s.isHub = true ∧ s.runs bSCR = true ∧ s.cnv.noCentral = false ∧ s.get RED.REFCFG.REFBLOCK ≤ s.get RED.REFSTAT.RUN ∧ s.recordsOnly (srcRED 9) = true ∧ s.log.queue.length < queuePlaces hwOrigin) ∧
    (∃ (s : State) (o : Origin) (v : Nat), s.mayWrite o SCR.ARMCTL.BLOCK.addr = true ∧ s.log.queue.length < queuePlaces o ∧ o.agent ≠ 0 ∧ v < 2 ^ 32) ∧
    (∃ (s : State), s.isHub = true ∧ s.inRun = true ∧ s.forwarderOnly = false ∧ s.sweep.1.slots ≠ 0 ∧ s.flag TB.STAT.ALIGNED = true ∧ s.mgt.timed.length < 15) :=
  ⟨⟨(let d := device 1; { d with cnv := { d.cnv with ringEn := 1 } }), by decide +kernel⟩,
   ⟨put (device 1) [(RED.REFSTAT.RUN, 200)], by decide +kernel⟩,
   ⟨device 1, vendor, 3, by decide +kernel⟩,
   ⟨atNow (let d := device 1; { d with cnv := { d.cnv with ringEn := 1 }, scr := { d.scr with normalRun := [(0, 4)], sums := [(0, ⟨100, 1000, 10⟩)], cells := [(0, 2 ^ 16 + 500)] } }) (100 * (device 1).tu), by decide +kernel⟩⟩

/-- Meets the hypotheses of clauses of Obligations.SplitIsExact. -/
theorem witness_SplitIsExact :
    (∃ (us : List UnitSt) (order : List Slot) (nfull : Nat) (frac : Nat), order.Nodup ∧ order ≠ [] ∧ let need := nfull + (if 0 < frac then 1 else 0); let r := splitCells us order nfull frac; need ≤ sumL (order.map (slotTotal us)) ∧ frac = 0) ∧
    (∃ (us : List UnitSt) (order : List Slot) (nfull : Nat) (frac : Nat), order.Nodup ∧ order ≠ [] ∧ let need := nfull + (if 0 < frac then 1 else 0); let r := splitCells us order nfull frac; need ≤ sumL (order.map (slotTotal us)) ∧ 0 < frac) ∧
    (∃ (us : List UnitSt) (order : List Slot) (nfull : Nat) (frac : Nat), order.Nodup ∧ order ≠ [] ∧ let need := nfull + (if 0 < frac then 1 else 0); let r := splitCells us order nfull frac; sumL (order.map (slotTotal us)) < need) :=
  ⟨⟨[⟨0, false, ⟨0, [3, 0, 2], [1, 1], 0, 0, 0, 0⟩⟩, ⟨1, true, ⟨0, [0, 4], [], 0, 0, 0, 0⟩⟩], slotOrder true 1, 0, 0, by decide +kernel⟩,
   ⟨[⟨0, false, ⟨0, [3, 0, 2], [1, 1], 0, 0, 0, 0⟩⟩, ⟨1, true, ⟨0, [0, 4], [], 0, 0, 0, 0⟩⟩], slotOrder true 1, 3, 7, by decide +kernel⟩,
   ⟨[⟨0, false, ⟨0, [3, 0, 2], [1, 1], 0, 0, 0, 0⟩⟩, ⟨1, true, ⟨0, [0, 4], [], 0, 0, 0, 0⟩⟩], slotOrder true 1, 11, 1, by decide +kernel⟩⟩

/-- Meets the hypotheses of clauses of Obligations.Orders. -/
theorem witness_Orders_a :
    (∃ (s : State), s.tickEvents = true ∧ s.forwarderOnly = false ∧ s.red.itemTick = none ∧ s.noReset srcRED ∧ let k := s.tickAt s.offO; s.isHub = true ∧ s.runs bSCR = true) ∧
    (∃ (s : State), s.tickEvents = true ∧ s.forwarderOnly = false ∧ s.red.itemTick = none ∧ s.noReset srcRED ∧ let k := s.tickAt s.offO; s.isCentral = true) ∧
    (∃ (s : State) (r : Nat) (k : Nat) (cmd : Option (Nat × Nat × Nat)), s.scr.iarm < 2 ^ 32 ∧ r < 12 ∧ let g := s.ringOrder r k cmd; (s.basecamp = true ∨ s.redState = rsForming ∨ (s.scr.decision.tick = k ∧ s.scr.decision.blocked = true))) ∧
    (∃ (s : State) (r : Nat) (k : Nat) (cmd : Option (Nat × Nat × Nat)), s.scr.iarm < 2 ^ 32 ∧ r < 12 ∧ let g := s.ringOrder r k cmd; cmd = none) :=
  ⟨⟨(let d := device 1; { d with cnv := { d.cnv with ringEn := 0x801 } }), by decide +kernel⟩,
   ⟨device 2, by decide +kernel⟩,
   ⟨device 1, 11, 70000, none, by decide +kernel⟩,
   ⟨device 1, 11, 70000, none, by decide +kernel⟩⟩

/-- Meets the hypotheses of clauses of Obligations.Orders. -/
theorem witness_Orders_b :
    (∃ (s : State) (n : Nat) (k : Nat) (f : Frame), (s.arrive n f).1 = true ∧ let m := (s.arrive n f).2; m.isCell = true ∧ m.unjoined = false ∧ m.runs bSCR = true ∧ m.tickEvents = true ∧ m.halted = false ∧ f.ftype = ftOrder ∧ f.field 1 5 1 % 16 = m.myRing ∧ m.awaitedTick f.seq = some k ∧ m.onTime k = true ∧ ((m.scr.orders.find? (fun o => o.tick == k)) = none) ∧ m.noReset srcPWM) ∧
    (∃ (s : State), s.runs bSCR = true ∧ s.isCell = true ∧ s.unjoined = false ∧ s.tickEvents = true ∧ let k := s.tickAt (s.offApply - 40); (∀ o ∈ s.scr.orders, o.tick = k → o.target = .missed) ∧ s.scr.missTick ≠ k + 1) ∧
    (∃ (s : State), s.runs bSCR = true ∧ s.runs bPWM = true ∧ s.isCell = true ∧ s.tickEvents = true ∧ s.saf.bypassed = false ∧ s.cnv.missed ≤ s.get SCR.CSTAT.MISSRUN ∧ s.recordsOnly (srcSCR 7) = true) ∧
    (∃ (s : State) (n : Nat) (o : Nat) (k : Nat) (f : Frame), (s.rxFrame n f).1 = true ∧ let m := (s.rxFrame n f).2; m.isHub = true ∧ m.wholeFrame n f ftOrder = true ∧ m.forwarderOnly = false ∧ m.runs bSCR = true ∧ m.expectedTick f.seq = some k ∧ m.forwardLane n = some o ∧ m.laneUp o = true) :=
  ⟨⟨device 0, 0, 0, sealFrame ⟨2, 0, false, 1, 0, addrAll, toLE 2 0x7C00 ++ toLE 2 1 ++ [1, 0, 0, 0] ++ [0, 0, 0, 0, 0, 0, 0, 0] ++ toLE 4 0x3F800000 ++ zeroB 4 ++ [0xFF, 0, 0, 0] ++ zeroB 4 ++ zeroB 32, false, 0, .eof, 0⟩, by decide +kernel⟩,
   ⟨device 0, by decide +kernel⟩,
   ⟨(let d := put (device 0) [(SCR.CSTAT.MISSRUN, 4)]; { d with pwm := { d.pwm with full := 1, gates := 5 } }), by decide +kernel⟩,
   ⟨(let d := device 1; { d with cnv := { d.cnv with arms := [2] } }), 12, 13, 0, sealFrame ⟨2, 0, false, 1, 0, addrAll, toLE 2 0x7E00 ++ toLE 2 1 ++ [1, 0, 0, 0] ++ [2, 1, 0, 0] ++ toLE 4 0x40000000 ++ zeroB 40, false, 0, .eof, 0⟩, by decide +kernel⟩⟩

/-- Meets the hypotheses of clauses of Obligations.Orders. -/
theorem witness_Orders_c : ∃ (s : State) (k : Nat) (f : Frame), (s.rxFrame s.crossLane f).1 = true ∧ let m := (s.rxFrame s.crossLane f).2; m.isCell = false ∧ f.ftype = ftOrder ∧ f.field 1 0 2 = m.partner ∧ m.redRuns = true ∧ m.expectedTick f.seq = some k ∧ m.noReset srcRED :=
  ⟨device 1, 0, sealFrame ⟨2, 0, false, 1, 0, 0x7C00, toLE 2 0x7C01 ++ toLE 2 1 ++ [2, 0] ++ toLE 2 33 ++ [1, 2, 3, 0, 0, 0, 0, 0] ++ zeroB 8, false, 0, .eof, 0⟩, by decide +kernel⟩

/-- Meets the hypotheses of clauses of Obligations.OrderCommands. -/
theorem witness_OrderCommands_a :
    (∃ (s : State) (f : Frame), s.addressed f 0x10 = false) ∧
    (∃ (s : State) (f : Frame), s.addressed f 0x11 = false) ∧
    (∃ (s : State) (f : Frame), s.addressed f 0x12 = false) ∧
    (∃ (s : State) (f : Frame), s.addressed f 0x13 = false) :=
  ⟨⟨(let d := device 0; { d with scr := { d.scr with orders := [⟨0, 1, 0x7C00, 0, .out, 0⟩], used := [⟨0, some (3, true), some 4, none, some 7, 0⟩] } }), sealFrame ⟨2, 0, false, 1, 0, addrAll, toLE 2 0x7C00 ++ toLE 2 1 ++ [1, 0, 0, 0] ++ [0, 0, 0, 0, 0, 0, 0, 0] ++ toLE 4 0x3F800000 ++ zeroB 4 ++ [5, 0x55, 0, 0] ++ zeroB 4 ++ zeroB 32, false, 0, .eof, 0⟩, by decide +kernel⟩,
   ⟨(let d := device 0; { d with scr := { d.scr with orders := [⟨0, 1, 0x7C00, 0, .out, 0⟩], used := [⟨0, some (3, true), some 4, none, some 7, 0⟩] } }), sealFrame ⟨2, 0, false, 1, 0, addrAll, toLE 2 0x7C00 ++ toLE 2 1 ++ [1, 0, 0, 0] ++ [0, 0, 0, 0, 0, 0, 0, 0] ++ toLE 4 0x3F800000 ++ zeroB 4 ++ [5, 0x10, 0, 0] ++ zeroB 4 ++ zeroB 32, false, 0, .eof, 0⟩, by decide +kernel⟩,
   ⟨(let d := device 0; { d with scr := { d.scr with orders := [⟨0, 1, 0x7C00, 0, .out, 0⟩], used := [⟨0, some (3, true), some 4, none, some 7, 0⟩] } }), sealFrame ⟨2, 0, false, 1, 0, addrAll, toLE 2 0x7C00 ++ toLE 2 1 ++ [1, 0, 0, 0] ++ [0, 0, 0, 0, 0, 0, 0, 0] ++ toLE 4 0x3F800000 ++ zeroB 4 ++ [5, 0x10, 0, 0] ++ zeroB 4 ++ zeroB 32, false, 0, .eof, 0⟩, by decide +kernel⟩,
   ⟨(let d := device 0; { d with scr := { d.scr with orders := [⟨0, 1, 0x7C00, 0, .out, 0⟩], used := [⟨0, some (3, true), some 4, none, some 7, 0⟩] } }), sealFrame ⟨2, 0, false, 1, 0, addrAll, toLE 2 0x7C00 ++ toLE 2 1 ++ [1, 0, 0, 0] ++ [0, 0, 0, 0, 0, 0, 0, 0] ++ toLE 4 0x3F800000 ++ zeroB 4 ++ [5, 0x10, 0, 0] ++ zeroB 4 ++ zeroB 32, false, 0, .eof, 0⟩, by decide +kernel⟩⟩

/-- Meets the hypotheses of clauses of Obligations.OrderCommands. -/
theorem witness_OrderCommands_b :
    (∃ (s : State) (f : Frame), s.addressed f 0x20 = false) ∧
    (∃ (s : State) (f : Frame), s.addressed f 0x21 = false) ∧
    (∃ (s : State) (f : Frame), s.addressed f 0x22 = false) ∧
    (∃ (s : State) (f : Frame), s.addressed f 0x23 = false) :=
  ⟨⟨(let d := device 0; { d with scr := { d.scr with orders := [⟨0, 1, 0x7C00, 0, .out, 0⟩], used := [⟨0, some (3, true), some 4, none, some 7, 0⟩] } }), sealFrame ⟨2, 0, false, 1, 0, addrAll, toLE 2 0x7C00 ++ toLE 2 1 ++ [1, 0, 0, 0] ++ [0, 0, 0, 0, 0, 0, 0, 0] ++ toLE 4 0x3F800000 ++ zeroB 4 ++ [5, 0x10, 0, 0] ++ zeroB 4 ++ zeroB 32, false, 0, .eof, 0⟩, by decide +kernel⟩,
   ⟨(let d := device 0; { d with scr := { d.scr with orders := [⟨0, 1, 0x7C00, 0, .out, 0⟩], used := [⟨0, some (3, true), some 4, none, some 7, 0⟩] } }), sealFrame ⟨2, 0, false, 1, 0, addrAll, toLE 2 0x7C00 ++ toLE 2 1 ++ [1, 0, 0, 0] ++ [0, 0, 0, 0, 0, 0, 0, 0] ++ toLE 4 0x3F800000 ++ zeroB 4 ++ [5, 0x10, 0, 0] ++ zeroB 4 ++ zeroB 32, false, 0, .eof, 0⟩, by decide +kernel⟩,
   ⟨(let d := device 0; { d with scr := { d.scr with orders := [⟨0, 1, 0x7C00, 0, .out, 0⟩], used := [⟨0, some (3, true), some 4, none, some 7, 0⟩] } }), sealFrame ⟨2, 0, false, 1, 0, addrAll, toLE 2 0x7C00 ++ toLE 2 1 ++ [1, 0, 0, 0] ++ [0, 0, 0, 0, 0, 0, 0, 0] ++ toLE 4 0x3F800000 ++ zeroB 4 ++ [5, 0x10, 0, 0] ++ zeroB 4 ++ zeroB 32, false, 0, .eof, 0⟩, by decide +kernel⟩,
   ⟨(let d := device 0; { d with scr := { d.scr with orders := [⟨0, 1, 0x7C00, 0, .out, 0⟩], used := [⟨0, some (3, true), some 4, none, some 7, 0⟩] } }), sealFrame ⟨2, 0, false, 1, 0, addrAll, toLE 2 0x7C00 ++ toLE 2 1 ++ [1, 0, 0, 0] ++ [0, 0, 0, 0, 0, 0, 0, 0] ++ toLE 4 0x3F800000 ++ zeroB 4 ++ [5, 0x10, 0, 0] ++ zeroB 4 ++ zeroB 32, false, 0, .eof, 0⟩, by decide +kernel⟩⟩

/-- Meets the hypotheses of clauses of Obligations.OrderCommands. -/
theorem witness_OrderCommands_c :
    (∃ (s : State) (f : Frame), s.addressed f 0x10 = true) ∧
    (∃ (s : State) (f : Frame), s.addressed f 0x11 = true) ∧
    (∃ (s : State) (on : Bool), s.scr.exclNext = some on ∧ s.tickEvents = true ∧ s.forwarderOnly = false ∧ s.isCell = true ∧ s.runs bSCR = true ∧ s.noReset srcLPE) ∧
    (∃ (s : State) (f : Frame), s.addressed f 0x12 = true) :=
  ⟨⟨(let d := device 0; { d with scr := { d.scr with orders := [⟨0, 1, 0x7C00, 0, .out, 0⟩], used := [⟨0, some (3, true), some 4, none, some 7, 0⟩] } }), sealFrame ⟨2, 0, false, 1, 0, addrAll, toLE 2 0x7C00 ++ toLE 2 1 ++ [1, 0, 0, 0] ++ [0, 0, 0, 0, 0, 0, 0, 0] ++ toLE 4 0x3F800000 ++ zeroB 4 ++ [5, 0x10, 0, 0] ++ zeroB 4 ++ zeroB 32, false, 0, .eof, 0⟩, by decide +kernel⟩,
   ⟨(let d := device 0; { d with scr := { d.scr with orders := [⟨0, 1, 0x7C00, 0, .out, 0⟩], used := [⟨0, some (3, true), some 4, none, some 7, 0⟩] } }), sealFrame ⟨2, 0, false, 1, 0, addrAll, toLE 2 0x7C00 ++ toLE 2 1 ++ [1, 0, 0, 0] ++ [0, 0, 0, 0, 0, 0, 0, 0] ++ toLE 4 0x3F800000 ++ zeroB 4 ++ [5, 0x11, 0, 0] ++ zeroB 4 ++ zeroB 32, false, 0, .eof, 0⟩, by decide +kernel⟩,
   ⟨(let d := device 0; { d with scr := { d.scr with exclNext := some true } }), true, by decide +kernel⟩,
   ⟨(let d := device 0; { d with scr := { d.scr with orders := [⟨0, 1, 0x7C00, 0, .out, 0⟩], used := [⟨0, some (3, true), some 4, none, some 7, 0⟩] } }), sealFrame ⟨2, 0, false, 1, 0, addrAll, toLE 2 0x7C00 ++ toLE 2 1 ++ [1, 0, 0, 0] ++ [0, 0, 0, 0, 0, 0, 0, 0] ++ toLE 4 0x3F800000 ++ zeroB 4 ++ [5, 0x12, 0, 0] ++ zeroB 4 ++ zeroB 32, false, 0, .eof, 0⟩, by decide +kernel⟩⟩

/-- Meets the hypotheses of clauses of Obligations.OrderCommands. -/
theorem witness_OrderCommands_d :
    (∃ (s : State) (f : Frame), s.addressed f 0x13 = true) ∧
    (∃ (s : State) (f : Frame), s.addressed f 0x20 = true ∧ s.runs bPWM = true ∧ s.flag PWM.CFG.LOCALEN = true ∧ f.field 4 2 2 ≠ 0) ∧
    (∃ (s : State) (f : Frame), s.addressed f 0x20 = true ∧ s.runs bPWM = true ∧ s.flag PWM.CFG.LOCALEN = true ∧ f.field 4 2 2 = 0) ∧
    (∃ (s : State) (f : Frame), s.addressed f 0x20 = true ∧ s.runs bPWM = true ∧ s.flag PWM.CFG.LOCALEN = false ∧ s.recordsOnly (srcPWM 6) = true) :=
  ⟨⟨(let d := put (device 0) [(SCR.MISSED.COUNT, 5), (SCR.NEGCLAMP.COUNT, 3)]; { d with scr := { d.scr with orders := [⟨0, 1, 0x7C00, 0, .out, 0⟩], used := [⟨0, some (3, true), some 4, none, some 7, 0⟩] } }), sealFrame ⟨2, 0, false, 1, 0, addrAll, toLE 2 0x7C00 ++ toLE 2 1 ++ [1, 0, 0, 0] ++ [0, 0, 0, 0, 0, 0, 0, 0] ++ toLE 4 0x3F800000 ++ zeroB 4 ++ [5, 0x13, 0, 0] ++ zeroB 4 ++ zeroB 32, false, 0, .eof, 0⟩, by decide +kernel⟩,
   ⟨(let d := put (device 0) [(PWM.CFG.LOCALEN, 1)]; { d with scr := { d.scr with orders := [⟨0, 1, 0x7C00, 0, .out, 0⟩], used := [⟨0, some (3, true), some 4, none, some 7, 0⟩] } }), sealFrame ⟨2, 0, false, 1, 0, addrAll, toLE 2 0x7C00 ++ toLE 2 1 ++ [1, 0, 0, 0] ++ [0, 0, 0, 0, 0, 0, 0, 0] ++ toLE 4 0x3F800000 ++ zeroB 4 ++ [5, 0x20, 9, 0] ++ zeroB 4 ++ zeroB 32, false, 0, .eof, 0⟩, by decide +kernel⟩,
   ⟨(let d := put (device 0) [(PWM.CFG.LOCALEN, 1)]; { d with scr := { d.scr with orders := [⟨0, 1, 0x7C00, 0, .out, 0⟩], used := [⟨0, some (3, true), some 4, none, some 7, 0⟩] } }), sealFrame ⟨2, 0, false, 1, 0, addrAll, toLE 2 0x7C00 ++ toLE 2 1 ++ [1, 0, 0, 0] ++ [0, 0, 0, 0, 0, 0, 0, 0] ++ toLE 4 0x3F800000 ++ zeroB 4 ++ [5, 0x20, 0, 0] ++ zeroB 4 ++ zeroB 32, false, 0, .eof, 0⟩, by decide +kernel⟩,
   ⟨(let d := device 0; { d with scr := { d.scr with orders := [⟨0, 1, 0x7C00, 0, .out, 0⟩], used := [⟨0, some (3, true), some 4, none, some 7, 0⟩] } }), sealFrame ⟨2, 0, false, 1, 0, addrAll, toLE 2 0x7C00 ++ toLE 2 1 ++ [1, 0, 0, 0] ++ [0, 0, 0, 0, 0, 0, 0, 0] ++ toLE 4 0x3F800000 ++ zeroB 4 ++ [5, 0x20, 9, 0] ++ zeroB 4 ++ zeroB 32, false, 0, .eof, 0⟩, by decide +kernel⟩⟩

/-- Meets the hypotheses of clauses of Obligations.OrderCommands. -/
theorem witness_OrderCommands_e :
    (∃ (s : State) (f : Frame), s.addressed f 0x21 = true ∧ s.runs bPWM = true) ∧
    (∃ (s : State) (f : Frame), s.addressed f 0x22 = true ∧ s.runs bPWM = true) ∧
    (∃ (s : State) (o : Origin) (v : Nat), s.mayWrite o PWM.CTRL.DTRESET.addr = true ∧ s.runs bPWM = true ∧ v < 2 ^ 32) ∧
    (∃ (s : State) (f : Frame), s.addressed f 0x23 = true ∧ s.runs bPWM = true ∧ f.field 4 2 2 = s.address) :=
  ⟨⟨(let d := device 0; { d with scr := { d.scr with orders := [⟨0, 1, 0x7C00, 0, .out, 0⟩], used := [⟨0, some (3, true), some 4, none, some 7, 0⟩] } }), sealFrame ⟨2, 0, false, 1, 0, addrAll, toLE 2 0x7C00 ++ toLE 2 1 ++ [1, 0, 0, 0] ++ [0, 0, 0, 0, 0, 0, 0, 0] ++ toLE 4 0x3F800000 ++ zeroB 4 ++ [5, 0x21, 0, 0] ++ zeroB 4 ++ zeroB 32, false, 0, .eof, 0⟩, by decide +kernel⟩,
   ⟨(let d := device 0; { d with scr := { d.scr with orders := [⟨0, 1, 0x7C00, 0, .out, 0⟩], used := [⟨0, some (3, true), some 4, none, some 7, 0⟩] } }), sealFrame ⟨2, 0, false, 1, 0, addrAll, toLE 2 0x7C00 ++ toLE 2 1 ++ [1, 0, 0, 0] ++ [0, 0, 0, 0, 0, 0, 0, 0] ++ toLE 4 0x3F800000 ++ zeroB 4 ++ [5, 0x22, 0, 0] ++ zeroB 4 ++ zeroB 32, false, 0, .eof, 0⟩, by decide +kernel⟩,
   ⟨(let d := device 0; { d with scr := { d.scr with orders := [⟨0, 1, 0x7C00, 0, .out, 0⟩], used := [⟨0, some (3, true), some 4, none, some 7, 0⟩] } }), vendor, 2, by decide +kernel⟩,
   ⟨(let d := device 0; { d with scr := { d.scr with orders := [⟨0, 1, 0x7C00, 0, .out, 0⟩], used := [⟨0, some (3, true), some 4, none, some 7, 0⟩] } }), sealFrame ⟨2, 0, false, 1, 0, addrAll, toLE 2 0x7C00 ++ toLE 2 1 ++ [1, 0, 0, 0] ++ [0, 0, 0, 0, 0, 0, 0, 0] ++ toLE 4 0x3F800000 ++ zeroB 4 ++ [5, 0x23, 5, 0] ++ zeroB 4 ++ zeroB 32, false, 0, .eof, 0⟩, by decide +kernel⟩⟩

/-- Meets the hypotheses of clauses of Obligations.OrderCommands. -/
theorem witness_OrderCommands_f : ∃ (s : State) (f : Frame), s.addressed f 0x23 = true ∧ s.runs bPWM = true ∧ f.field 4 2 2 ≠ s.address ∧ s.recordsOnly (srcPWM 6) = true :=
  ⟨(let d := device 0; { d with scr := { d.scr with orders := [⟨0, 1, 0x7C00, 0, .out, 0⟩], used := [⟨0, some (3, true), some 4, none, some 7, 0⟩] } }), sealFrame ⟨2, 0, false, 1, 0, addrAll, toLE 2 0x7C00 ++ toLE 2 1 ++ [1, 0, 0, 0] ++ [0, 0, 0, 0, 0, 0, 0, 0] ++ toLE 4 0x3F800000 ++ zeroB 4 ++ [5, 0x23, 6, 0] ++ zeroB 4 ++ zeroB 32, false, 0, .eof, 0⟩, by decide +kernel⟩

/-- Meets the hypotheses of clauses of Obligations.ApplyInstant. -/
theorem witness_ApplyInstant_a :
    (∃ (s : State) (x : OrderSt) (want : _), s.orderDrives = true ∧ s.noReset srcPWM ∧ let k := s.tickAt s.offApply; let T := (k * s.tu + s.offApply) * 64; (s.scr.orders.find? (fun o => o.tick == k) = some x) ∧ s.dwells k = false ∧ (x.target = .go false ∧ want = 1 ∨ x.target = .go true ∧ want = 2 ∨ x.target = .out ∧ want = 3) ∧ s.takes want = true ∧ s.forceActs = false) ∧
    (∃ (s : State) (x : OrderSt) (neg : _) (frac : _) (l : _), s.orderDrives = true ∧ s.noReset srcPWM ∧ let k := s.tickAt s.offApply; let T := (k * s.tu + s.offApply) * 64; (s.scr.orders.find? (fun o => o.tick == k) = some x) ∧ s.dwells k = false ∧ x.target = .trim neg frac ∧ s.takes (inState neg) = true ∧ trimLength ((frac * s.tu + 512) / 1024) s.trimM (64 * s.tu) = .part l) ∧
    (∃ (s : State) (x : OrderSt), s.orderDrives = true ∧ s.noReset srcPWM ∧ let k := s.tickAt s.offApply; let T := (k * s.tu + s.offApply) * 64; (s.scr.orders.find? (fun o => o.tick == k) = some x) ∧ s.dwells k = false ∧ x.target = .blockAll) :=
  ⟨⟨(let d := put (device 0) [(SCR.CFG.CELLTYPE, 0)]; { d with pwm := { d.pwm with configured := true }, scr := { d.scr with orders := [⟨0, 1, 0x7C00, 0, .go false, 0⟩] } }), ⟨0, 1, 0x7C00, 0, .go false, 0⟩, 1, by decide +kernel⟩,
   ⟨(let d := put (device 0) [(SCR.CFG.CELLTYPE, 1)]; { d with pwm := { d.pwm with configured := true }, scr := { d.scr with orders := [⟨0, 1, 0x7C00, 0, .trim true 32768, 0⟩] } }), ⟨0, 1, 0x7C00, 0, .trim true 32768, 0⟩, true, 32768, (match trimLength ((32768 * ((let d := put (device 0) [(SCR.CFG.CELLTYPE, 1)]; { d with pwm := { d.pwm with configured := true }, scr := { d.scr with orders := [⟨0, 1, 0x7C00, 0, .trim true 32768, 0⟩] } })).tu + 512) / 1024) ((let d := put (device 0) [(SCR.CFG.CELLTYPE, 1)]; { d with pwm := { d.pwm with configured := true }, scr := { d.scr with orders := [⟨0, 1, 0x7C00, 0, .trim true 32768, 0⟩] } })).trimM (64 * ((let d := put (device 0) [(SCR.CFG.CELLTYPE, 1)]; { d with pwm := { d.pwm with configured := true }, scr := { d.scr with orders := [⟨0, 1, 0x7C00, 0, .trim true 32768, 0⟩] } })).tu) with | .part l => l | _ => 0), by decide +kernel⟩,
   ⟨(let d := device 0; { d with pwm := { d.pwm with configured := true, pattern := 1, statePat := 1, full := 1, gates := 1 }, scr := { d.scr with orders := [⟨0, 1, 0x7C00, 0, .blockAll, 0⟩] } }), ⟨0, 1, 0x7C00, 0, .blockAll, 0⟩, by decide +kernel⟩⟩

/-- Meets the hypotheses of clauses of Obligations.ApplyInstant. -/
theorem witness_ApplyInstant_b :
    (∃ (s : State), s.orderDrives = true ∧ s.noReset srcPWM ∧ ((s.scr.orders.find? (fun o => o.tick == s.tickAt s.offApply)) = none) ∧ s.get SCR.CSTAT.MISSRUN < s.cnv.missed ∧ (s.pwm.full = 1 ∨ s.pwm.full = 2 ∨ s.pwm.full = 3) ∧ s.takes s.pwm.full = true) ∧
    (∃ (s : State), s.applies = true ∧ s.noReset srcPWM ∧ s.noReset srcSCR ∧ s.flag PWM.STAT.PENDING = true ∧ s.pwm.before = none) ∧
    (∃ (s : State), s.applies = true ∧ s.noReset srcPWM ∧ s.noReset srcSCR ∧ s.pwm.dtReset = true) ∧
    (∃ (s : State), s.applies = true ∧ s.noReset srcPWM ∧ s.noReset srcSCR ∧ s.saf.bypassed = false ∧ s.pwm.bypassNext = true) :=
  ⟨⟨(let d := device 0; { d with pwm := { d.pwm with configured := true, full := 1 } }), by decide +kernel⟩,
   ⟨(let d := put (device 0) [(PWM.STAT.PENDING, 1), (PWM.PERIOD.PERIOD, 5), (PWM.DUTY.DUTY, 5000)]; { d with pwm := { d.pwm with configured := true } }), by decide +kernel⟩,
   ⟨(let d := put (device 0) [(PWM.DTCEIL.CEIL, 777)]; { d with pwm := { d.pwm with configured := true, dtReset := true } }), by decide +kernel⟩,
   ⟨(let d := device 0; { d with pwm := { d.pwm with configured := true, bypassNext := true } }), by decide +kernel⟩⟩

/-- Meets the hypotheses of clauses of Obligations.WithinTheTick. -/
theorem witness_WithinTheTick_a :
    (∃ (s : State) (e : Nat), s.pwm.trimEnd = some e ∧ e / 64 ≤ s.now5 ∧ s.runs bPWM = true ∧ s.noReset srcPWM) ∧
    (∃ (s : State) (e : Nat), s.pwm.localDuty = some e ∧ e / 64 ≤ s.now5 ∧ s.runs bPWM = true ∧ s.noReset srcPWM ∧ let off := s.get PWM.ACTLSTATE.LSTATE / 16 % 4; off ≠ 2 ∧ s.refuses 1 = false) ∧
    (∃ (s : State) (e : Nat), s.pwm.localEnd = some e ∧ e / 64 ≤ s.now5 ∧ s.runs bPWM = true ∧ s.localMode = true ∧ s.noReset srcPWM) ∧
    (∃ (s : State), s.get PWM.LGRANT.TICKS = 1) :=
  ⟨⟨(let d := put (device 0) [(PWM.STAT.STATE, 1), (PWM.STAT.TRIM, 1)]; { d with pwm := { d.pwm with trimEnd := some 0, full := 3, pattern := 1, statePat := 1, gates := 1 } }), 0, by decide +kernel⟩,
   ⟨(let d := put (device 0) [(PWM.STAT.STATE, 1), (PWM.ACTLSTATE.LSTATE, 0)]; { d with pwm := { d.pwm with localDuty := some 0, full := 1, pattern := 1, statePat := 1, gates := 1 } }), 0, by decide +kernel⟩,
   ⟨(let d := put (device 0) [(PWM.LGRANT.TICKS, 5), (PWM.STAT.LOCAL, 1), (PWM.CFG.LOCALEN, 1), (PWM.ACTPERIOD.PERIOD, 100), (PWM.ACTDUTY.DUTY, 3200)]; { d with pwm := { d.pwm with configured := true, latestBlockAll := true, localEnd := some 0 } }), 0, by decide +kernel⟩,
   ⟨put (device 0) [(PWM.LGRANT.TICKS, 1), (PWM.STAT.LOCAL, 1)], by decide +kernel⟩⟩

/-- Meets the hypotheses of clauses of Obligations.WithinTheTick. -/
theorem witness_WithinTheTick_b :
    (∃ (s : State), s.get PWM.LGRANT.TICKS ≠ 1) ∧
    (∃ (s : State) (o : Origin) (v : Nat) (dev : Nat) (c : _), s.runs bPWM = true ∧ dev < 65536 ∧ let sp := s.get PWM.CAL.SPARE; sp ≠ 7 ∧ (c = Instr.delayLineCalibration true dev ∨ (c = Instr.calnow o v true dev ∧ s.mayWrite o PWM.CTRL.CALNOW.addr = true ∧ v < 2 ^ 32 ∧ v.testBit 0 = false ∧ v.testBit 1 = false)) ∧ s.pwm.lines.getD s.pwm.calTurn 0 < 8) ∧
    (∃ (s : State) (dev : Nat), s.runs bPWM = true ∧ dev < 65536 ∧ let sp := s.get PWM.CAL.SPARE; sp < 5 ∧ s.recordsOnly (srcPWM 0) = true) ∧
    (∃ (s : State) (dev : Nat), s.runs bPWM = true ∧ dev < 65536 ∧ let sp := s.get PWM.CAL.SPARE; sp = 7) :=
  ⟨⟨put (device 0) [(PWM.LGRANT.TICKS, 2), (PWM.STAT.LOCAL, 1)], by decide +kernel⟩,
   ⟨put (device 0) [(PWM.CAL.SPARE, 4)], vendor, 8, 77, Instr.delayLineCalibration true (77), by decide +kernel⟩,
   ⟨put (device 0) [(PWM.CAL.SPARE, 4)], 77, by decide +kernel⟩,
   ⟨put (device 0) [(PWM.CAL.SPARE, 7)], 77, by decide +kernel⟩⟩

/-- Meets the hypotheses of clauses of Obligations.SwitchingCommands. -/
theorem witness_SwitchingCommands_a :
    (∃ (s : State) (o : Origin) (v : Nat), s.mayWrite o PWM.CTRL.COMMIT.addr = true ∧ s.runs bPWM = true ∧ v < 2 ^ 32) ∧
    (∃ (s : State) (o : Origin) (v : Nat), s.mayWrite o PWM.FORCE.EN.addr = true ∧ s.log.queue.length < queuePlaces o ∧ o.agent ≠ 0 ∧ v < 2 ^ 32 ∧ let permitted := s.flag PWM.CFG.FORCEEN && s.pwm.latestBlockAll && !s.saf.bypassed && !s.halted && !s.pwm.waitOrder && !s.clockless; permitted = true ∧ s.noReset srcPWM) ∧
    (∃ (s : State) (o : Origin) (v : Nat), s.mayWrite o PWM.FORCE.EN.addr = true ∧ s.log.queue.length < queuePlaces o ∧ o.agent ≠ 0 ∧ v < 2 ^ 32 ∧ let permitted := s.flag PWM.CFG.FORCEEN && s.pwm.latestBlockAll && !s.saf.bypassed && !s.halted && !s.pwm.waitOrder && !s.clockless; permitted = false ∧ s.recordsOnly (srcPWM 5) = true) ∧
    (∃ (s : State) (o : Origin) (v : Nat), s.mayWrite o PWM.SNAPAT.ARM.addr = true ∧ s.runs bPWM = true ∧ v < 2 ^ 32) :=
  ⟨⟨device 0, vendor, 1, by decide +kernel⟩,
   ⟨(let d := put (device 0) [(PWM.CFG.FORCEEN, 1)]; { d with pwm := { d.pwm with latestBlockAll := true } }), vendor, 0x11, by decide +kernel⟩,
   ⟨device 0, vendor, 0xFF, by decide +kernel⟩,
   ⟨device 0, vendor, 16, by decide +kernel⟩⟩

/-- Meets the hypotheses of clauses of Obligations.SwitchingCommands. -/
theorem witness_SwitchingCommands_b :
    (∃ (s : State), s.runs bPWM = true ∧ s.flag PWM.SNAPAT.ARMED = true ∧ s.pwm.snapTick * s.tu + s.offApply ≤ s.now5) ∧
    (∃ (s : State) (core : Nat), core < 10 ∧ s.dbgLock = false ∧ s.pwm.halted.testBit core = false) :=
  ⟨⟨atNow (put (device 0) [(PWM.SNAPAT.ARMED, 1), (PWM.ON_LO.COUNT 3, 7), (PWM.ON_HI.COUNT 3, 1)]) (2 * (device 0).tu), by decide +kernel⟩,
   ⟨put (device 0) [(SAF.STAT.ENCMD, 3)], 0, by decide +kernel⟩⟩

/-- Meets the hypotheses of clauses of Obligations.Conversions. -/
theorem witness_Conversions_a :
    (∃ (s : State) (kind : ConvKind) (r : Int), (kind = .sample ∨ kind = .other) ∧ s.runs bADC = true ∧ s.flag ADC.CTRL.VCAPEN = true ∧ s.convDue kind = true ∧ s.noReset srcADC ∧ s.noReset srcENVS ∧ s.noReset srcPWM ∧ let code := (clampI 0 65534 (s.vcapRound r)).toNat; let v := f32mul (f32ofInt code) (s.get ADC.VCAPSCALE.SCALE); s.flag ADC.STAT.REFOK = true ∧ s.convLate kind = false) ∧
    (∃ (s : State) (kind : ConvKind) (r : Int) (c : _), (kind = .sample ∨ kind = .other) ∧ s.runs bADC = true ∧ s.flag ADC.CTRL.VCAPEN = true ∧ s.convDue kind = true ∧ s.noReset srcADC ∧ s.noReset srcENVS ∧ s.noReset srcPWM ∧ let code := (clampI 0 65534 (s.vcapRound r)).toNat; let v := f32mul (f32ofInt code) (s.get ADC.VCAPSCALE.SCALE); (c = Instr.vcapConversionFail kind ∨ (c = Instr.vcapConversion kind r ∧ (s.flag ADC.STAT.REFOK = false ∨ s.convLate kind = true)))) ∧
    (∃ (s : State), s.runs bADC = true ∧ s.flag ADC.CTRL.VCAPEN = true ∧ s.flag ADC.STAT.REFOK = true ∧ s.noReset srcADC ∧ let o := toSigned 16 (s.get ADC.CALCORR.OFFSET); let g := toSigned 16 (s.get ADC.CALCORR.GAIN); let kept (t : State) : Prop := t.get ADC.CALCNT.COUNT = satNext 32 (s.get ADC.CALCNT.COUNT) ∧ RegsKept [ADC.CALCORR.OFFSET.addr, ADC.CALCNT.COUNT.addr, (srcADC 6).stat.addr, (srcADC 6).live.addr] s t ∧ MemKept s t; s.convDue .calZero = true ∧ o < 1024 ∧ -1024 < o) :=
  ⟨⟨atNow ((let d := put (device 0) [(ADC.CTRL.VCAPEN, 1), (ADC.STAT.REFOK, 1), (ADC.VCAPSCALE.SCALE, 0x3D800000), (ADC.VCAPDLY.DLY, 0)]; { d with sense := { d.sense with sampleTick := some 0 } })) 4, .sample, 1000, by decide +kernel⟩,
   ⟨atNow ((let d := put (device 0) [(ADC.CTRL.VCAPEN, 1), (ADC.STAT.REFOK, 1), (ADC.VCAPSCALE.SCALE, 0x3D800000), (ADC.VCAPDLY.DLY, 0)]; { d with sense := { d.sense with sampleTick := some 0 } })) 4, .sample, 1000, Instr.vcapConversionFail (.sample), by decide +kernel⟩,
   ⟨atNow (put (device 0) [(ADC.CTRL.VCAPEN, 1), (ADC.STAT.REFOK, 1), (ADC.VCAPSCALE.SCALE, 0x3D800000), (ADC.CTRL.CALEN, 1), (ADC.CALCORR.OFFSET, 0), (ADC.CALCORR.GAIN, 0)]) (64 * (device 0).tu + 45), by decide +kernel⟩⟩

/-- Meets the hypotheses of clauses of Obligations.Conversions. -/
theorem witness_Conversions_b :
    (∃ (s : State), s.runs bADC = true ∧ s.flag ADC.CTRL.VCAPEN = true ∧ s.flag ADC.STAT.REFOK = true ∧ s.noReset srcADC ∧ let o := toSigned 16 (s.get ADC.CALCORR.OFFSET); let g := toSigned 16 (s.get ADC.CALCORR.GAIN); let kept (t : State) : Prop := t.get ADC.CALCNT.COUNT = satNext 32 (s.get ADC.CALCNT.COUNT) ∧ RegsKept [ADC.CALCORR.OFFSET.addr, ADC.CALCNT.COUNT.addr, (srcADC 6).stat.addr, (srcADC 6).live.addr] s t ∧ MemKept s t; s.convDue .calRef = true ∧ g < 10486 ∧ -10486 < g) ∧
    (∃ (s : State), s.runs bADC = true ∧ s.recordsOnly (srcADC 1) = true) ∧
    (∃ (s : State) (n : Nat) (raw : Nat), n < 4 ∧ s.runs bADC = true ∧ s.getBit ADC.AUXCTL.EN n = true ∧ (s.flag ADC.AUXCTL.MODE = false ∨ s.sense.auxLeft.testBit n = true) ∧ raw < 4096 ∧ s.noReset srcADC ∧ let p := SMap.get (0, 0) s.sense.auxSum n; let x := (p.1 + raw) / (p.2 + 1); let y := if s.getBit ADC.AUXCTL.LIN n then s.auxTable n x else f32add (f32mul (s.get (ADC.AUXGAIN.GAIN n)) (f32ofInt x)) (s.get (ADC.AUXOFF.OFFSET n)); p.2 + 1 < 2 ^ s.get ADC.AUXCTL.AVG) ∧
    (∃ (s : State) (n : Nat) (raw : Nat), n < 4 ∧ s.runs bADC = true ∧ s.getBit ADC.AUXCTL.EN n = true ∧ (s.flag ADC.AUXCTL.MODE = false ∨ s.sense.auxLeft.testBit n = true) ∧ raw < 4096 ∧ s.noReset srcADC ∧ let p := SMap.get (0, 0) s.sense.auxSum n; let x := (p.1 + raw) / (p.2 + 1); let y := if s.getBit ADC.AUXCTL.LIN n then s.auxTable n x else f32add (f32mul (s.get (ADC.AUXGAIN.GAIN n)) (f32ofInt x)) (s.get (ADC.AUXOFF.OFFSET n)); 2 ^ s.get ADC.AUXCTL.AVG ≤ p.2 + 1) :=
  ⟨⟨atNow (put (device 0) [(ADC.CTRL.VCAPEN, 1), (ADC.STAT.REFOK, 1), (ADC.VCAPSCALE.SCALE, 0x3D800000), (ADC.CTRL.CALEN, 1), (ADC.CALCORR.OFFSET, 0), (ADC.CALCORR.GAIN, 0)]) (192 * (device 0).tu + 45), by decide +kernel⟩,
   ⟨device 0, by decide +kernel⟩,
   ⟨(let d := put (device 0) [(ADC.AUXCTL.EN, 0xF), (ADC.AUXCTL.AVG, 2), (ADC.AUXCTL.MODE, 1)]; { d with sense := { d.sense with auxLeft := 0xF, auxSum := [(1, (999, 0))] } }), 1, 2049, by decide +kernel⟩,
   ⟨put (device 0) [(ADC.AUXCTL.EN, 0xF)], 3, 0, by decide +kernel⟩⟩

/-- Meets the hypotheses of clauses of Obligations.Conversions. -/
theorem witness_Conversions_c : ∃ (s : State), s.runs bADC = true :=
  ⟨device 0, by decide +kernel⟩

/-- Meets the hypotheses of clauses of Obligations.ChannelsAndEstimator. -/
theorem witness_ChannelsAndEstimator :
    (∃ (s : State) (n : Nat), n < 8 ∧ s.sdmRuns n = true ∧ s.noReset srcSDM) ∧
    (∃ (s : State) (w : Nat), s.sense.windowTick = some w ∧ s.runs bENV = true ∧ w + 2 ^ s.get ENV.LCFG.WLOG ≤ s.latestIarm ∧ s.noReset srcENV) ∧
    (∃ (s : State) (o : Origin) (v : Nat), s.mayWrite o ENV.CCTL.RESTART.addr = true ∧ s.runs bENV = true ∧ v < 2 ^ 32) :=
  ⟨⟨put (device 1) [(SDM.CH_CFG.EN 0, 1), (SDM.CH_CFG.FASTEN 0, 1), (SDM.CLKCFG.CK0, 2), (SDM.CH_CFG.OSR 0, 64), (SDM.CH_CFG.OSR 7, 256), (SDM.CH_CFG.FOSR 0, 16)], 0, by decide +kernel⟩,
   ⟨atNow ((let d := put (device 0) [(ENV.NMIN.N, 4)]; { d with sense := { d.sense with windowTick := some 0, iarms := [(2 ^ 30, 0)] } })) (2 ^ 30 * (device 0).tu), 0, by decide +kernel⟩,
   ⟨put (device 0) [(ENV.ENERGY.E, 77)], vendor, 1, by decide +kernel⟩⟩

/-- Meets the hypotheses of clauses of Obligations.TripsAndBypass. -/
theorem witness_TripsAndBypass_a :
    (∃ (s : State), s.isCell = true ∧ s.flag SAF.STAT.TRIP = false ∧ s.noReset srcSAF) ∧
    (∃ (s : State), s.runs bENV = true ∧ s.sense.softActive = true ∧ s.get ENV.ETRIPN.N ≤ s.sense.tripRun ∧ 0 < s.sense.tripRun ∧ s.flag ENV.SSTAT.TRIP = false ∧ s.flag SAF.STAT.TRIP = false ∧ s.noReset srcENVS) ∧
    (∃ (s : State), s.clk.stopped = true) ∧
    (∃ (s : State), s.noReset srcSAF ∧ s.clk.stopped = false) :=
  ⟨⟨(let d := put (device 0) [(SAF.DSATCFG.EN, 0xF), (SAF.CFG.DSATBYP, 1)]; { d with pwm := { d.pwm with pattern := 9, statePat := 9, gates := 9, full := 1, configured := true } }), by decide +kernel⟩,
   ⟨(let d := put (device 0) [(ENV.ETRIPN.N, 3)]; { d with sense := { d.sense with softActive := true, tripRun := 3 } }), by decide +kernel⟩,
   ⟨(let d := device 0; { d with clk := { d.clk with stopped := true } }), by decide +kernel⟩,
   ⟨device 0, by decide +kernel⟩⟩

/-- Meets the hypotheses of clauses of Obligations.TripsAndBypass. -/
theorem witness_TripsAndBypass_b :
    (∃ (s : State), s.runs bSAF = true ∧ s.clk.stopped = false ∧ s.saf.bypStart + s.get SAF.BYPCFG.BYPTIME * 200 ≤ s.time.cycles ∧ s.saf.bypRb = false ∧ s.saf.bypPulses = 1 ∧ s.saf.bypHigh = true) ∧
    (∃ (s : State), s.runs bSAF = true ∧ s.clk.stopped = false ∧ s.saf.bypStart + s.get SAF.BYPCFG.BYPTIME * 200 ≤ s.time.cycles ∧ s.saf.bypRb = false ∧ s.saf.bypPulses = 1 ∧ s.saf.bypHigh = false) ∧
    (∃ (s : State), s.runs bSAF = true ∧ s.clk.stopped = false ∧ s.saf.bypStart + s.get SAF.BYPCFG.BYPTIME * 200 ≤ s.time.cycles ∧ s.saf.bypRb = false ∧ 1 < s.saf.bypPulses ∧ s.recordsOnly (srcSAF 5) = true) ∧
    (∃ (s : State), s.saf.bypHigh = true ∧ (s.clk.stopped = true ∨ s.saf.bypStart + s.bypPulseMs * 160000 ≤ s.time.cycles)) :=
  ⟨⟨atNow ((let d := device 0; { d with saf := { d.saf with bypPulses := 1, bypHigh := true }, time := { d.time with cycles := 2 ^ 30 } })) (2 ^ 30), by decide +kernel⟩,
   ⟨atNow ((let d := device 0; { d with saf := { d.saf with bypPulses := 1, bypHigh := false }, time := { d.time with cycles := 2 ^ 30 } })) (2 ^ 30), by decide +kernel⟩,
   ⟨atNow ((let d := device 0; { d with saf := { d.saf with bypPulses := 2, bypHigh := false }, time := { d.time with cycles := 2 ^ 30 } })) (2 ^ 30), by decide +kernel⟩,
   ⟨(let d := device 0; { d with saf := { d.saf with bypPulses := 1, bypHigh := true, bypAgain := true }, time := { d.time with cycles := 2 ^ 30 } }), by decide +kernel⟩⟩

/-- Meets the hypotheses of clauses of Obligations.TripsAndBypass. -/
theorem witness_TripsAndBypass_c : ∃ (g : Nat), g < 4 :=
  ⟨2, by decide +kernel⟩

/-- Meets the hypotheses of clauses of Obligations.SafeStateAndChecks. -/
theorem witness_SafeStateAndChecks_a :
    (∃ (s : State) (o : Origin) (key : Nat), s.mayWrite o SAF.WDOG.KEY.addr = true ∧ key < 2 ^ 32 ∧ s.runs bSAF = true) ∧
    (∃ (s : State), s.runs bSAF = true ∧ s.saf.wdCycle + 1000 ≤ s.time.cycles ∧ s.saf.bypassed = false ∧ s.recordsOnly (srcSAF 10) = true) ∧
    (∃ (s : State), s.runs bSAF = true ∧ s.noReset srcSAF) ∧
    (∃ (s : State), s.runs bSAF = true ∧ s.flag SAF.CFG.CMPTEN = true ∧ s.inRun = true ∧ 0x1000 ≤ s.get ADC.VCAP.CODE ∧ s.get ADC.VCAP.CODE ≠ 0xFFFF ∧ s.saf.cmpTick + 256 * s.get SAF.CMPTEST.INTERVAL ≤ s.tick ∧ s.recordsOnly (srcSAF 8) = true) :=
  ⟨⟨device 0, ⟨5, 0xFF, 0xFF, 0xFF⟩, 0xA5A5, by decide +kernel⟩,
   ⟨(let d := put (device 0) [(SAF.STAT.ENCMD, 3)]; { d with time := { d.time with cycles := 1000 } }), by decide +kernel⟩,
   ⟨device 0, by decide +kernel⟩,
   ⟨atNow (put (device 0) [(SAF.CFG.CMPTEN, 1), (ADC.VCAP.CODE, 0x1000)]) (2 ^ 40), by decide +kernel⟩⟩

/-- Meets the hypotheses of clauses of Obligations.SafeStateAndChecks. -/
theorem witness_SafeStateAndChecks_b :
    (∃ (s : State) (o : Origin) (v : Nat), s.mayWrite o ENV.DISCMD.START.addr = true ∧ s.runs bENV = true ∧ v < 2 ^ 32 ∧ v.testBit 1 = false) ∧
    (∃ (s : State) (o : Origin) (v : Nat), s.mayWrite o ENV.DISCMD.START.addr = true ∧ s.runs bENV = true ∧ v < 2 ^ 32 ∧ v.testBit 0 = false) ∧
    (∃ (s : State) (o : Origin) (v : Nat), s.mayWrite o ENV.DISCMD.START.addr = true ∧ s.runs bENV = true ∧ v < 2 ^ 32 ∧ v.testBit 1 = true) ∧
    (∃ (s : State) (o : Origin) (v : Nat), s.mayWrite o ENV.DISCMD.START.addr = true ∧ s.runs bENV = true ∧ v < 2 ^ 32 ∧ v.testBit 0 = true) :=
  ⟨⟨put (device 0) [(ENV.DISSTAT.VFAIL, 1)], vendor, 1, by decide +kernel⟩,
   ⟨put (device 0) [(SAF.STAT.ENCMD, 3), (ENV.DISSTAT.STATE, 1)], vendor, 2, by decide +kernel⟩,
   ⟨put (device 0) [(SAF.STAT.ENCMD, 3), (ENV.DISSTAT.STATE, 1)], vendor, 2, by decide +kernel⟩,
   ⟨put (device 0) [(ENV.DISSTAT.VFAIL, 1)], vendor, 1, by decide +kernel⟩⟩

/-- Meets the hypotheses of clauses of Obligations.SafeStateAndChecks. -/
theorem witness_SafeStateAndChecks_c : ∃ (s : State), s.runs bENV = true ∧ s.get ENV.DISSTAT.STATE = 1 :=
  ⟨put (device 0) [(ENV.DISSTAT.STATE, 1), (ENV.ERESID.E, 0x3F800000), (ENV.DISTIME.MS, 5), (ENV.DISELAPSED.MS, 5)], by decide +kernel⟩

/-- Meets the hypotheses of clauses of Obligations.EnablesAndTests. -/
theorem witness_EnablesAndTests_a :
    (∃ (s : State) (rb : Nat), s.runs bSAF = true ∧ rb < 16 ∧ (∀ n ∈ s.usedSwitches, s.inTest n = false → rb.testBit n = s.saf.switches.testBit n)) ∧
    (∃ (s : State) (rb : Nat), s.runs bSAF = true ∧ rb < 16 ∧ s.recordsOnly (srcSAF 2) = true ∧ s.recordsOnly (srcSAF 3) = true) ∧
    (∃ (s : State), s.testsRun = true ∧ s.saf.tpPhase = 3 ∧ s.saf.tpW ≤ s.now5) ∧
    (∃ (s : State), s.testsRun = true ∧ s.saf.tpPhase = 0 ∧ s.saf.tpDue ≤ s.tick ∧ let a := s.tickAt s.offApply * s.tu + s.offApply; s.windowFree a (s.get SAF.TWOFF.OFF1) = true ∧ s.now5 < a + 2 * s.get SAF.TWOFF.OFF1) :=
  ⟨⟨(let d := device 0; { d with saf := { d.saf with switches := 3 } }), 3, by decide +kernel⟩,
   ⟨(let d := device 0; { d with saf := { d.saf with switches := 3 } }), 3, by decide +kernel⟩,
   ⟨(let d := put (device 0) [(SAF.CFG.TPEN, 1), (SAF.STAT.ENCMD, 3)]; { d with saf := { d.saf with tpPhase := 3, switches := 3 } }), by decide +kernel⟩,
   ⟨(let d := put (device 0) [(SAF.CFG.TPEN, 1), (SAF.STAT.ENCMD, 3)]; { d with saf := { d.saf with tpPhase := 0, switches := 3 } }), by decide +kernel⟩⟩

/-- Meets the hypotheses of clauses of Obligations.EnablesAndTests. -/
theorem witness_EnablesAndTests_b :
    (∃ (s : State), s.testsRun = true ∧ s.saf.tpPhase = 0 ∧ s.saf.tpDue ≤ s.tick ∧ let a := s.tickAt s.offApply * s.tu + s.offApply; s.windowFree a (s.get SAF.TWOFF.OFF1) = false ∧ s.windowFree a (s.get SAF.TWOFF.OFF2) = false) ∧
    (∃ (s : State), s.runs bSAF = true ∧ s.saf.tpPhase = 1 ∧ s.saf.tpSwitch < 4) ∧
    (∃ (s : State), s.runs bSAF = true ∧ s.saf.tpPhase = 2 ∧ s.saf.tpSwitch < 4) ∧
    (∃ (s : State) (n : Nat), s.runs bSAF = true ∧ s.usedSwitches.contains n = true ∧ 65536 ≤ s.saf.tpTicks.getD n 0 ∧ s.recordsOnly (srcSAF 4) = true) :=
  ⟨⟨(let d := put (device 0) [(SAF.CFG.TPEN, 1), (SAF.STAT.ENCMD, 3), (SAF.TWOFF.OFF1, 1000), (SAF.TWOFF.OFF2, 1000)]; { d with saf := { d.saf with tpPhase := 0, switches := 3 } }), by decide +kernel⟩,
   ⟨(let d := put (device 0) [(SAF.CFG.TPEN, 1), (SAF.STAT.ENCMD, 3)]; { d with saf := { d.saf with tpPhase := 1, switches := 2 } }), by decide +kernel⟩,
   ⟨(let d := put (device 0) [(SAF.CFG.TPEN, 1), (SAF.STAT.ENCMD, 3)]; { d with saf := { d.saf with tpPhase := 2, switches := 3 } }), by decide +kernel⟩,
   ⟨(let d := put (device 0) [(SAF.CFG.TPEN, 1), (SAF.STAT.ENCMD, 3)]; { d with saf := { d.saf with tpTicks := [65536, 0, 0, 0] } }), 0, by decide +kernel⟩⟩

/-- Meets the hypotheses of clauses of Obligations.LoopEngines. -/
theorem witness_LoopEngines_a :
    (∃ (s : State) (c : Nat), c < 128 ∧ s.runs bLPE = true ∧ s.inRun = true ∧ s.tickEvents = true ∧ s.engineEnabled (engineOf c) = true ∧ s.redState ≠ rsJoining ∧ let k := s.tickAt (2 * s.get (LPE.CTX_TIME.STARTOFF c)); s.ctxDue c k = true ∧ (s.ctx c).startTick ≠ some k ∧ let idle := !s.engineHalted (engineOf c) && !s.flag (LPE.CTX_STAT.QUEUED c) && !s.flag (LPE.CTX_STAT.RUNNING c); idle = true) ∧
    (∃ (s : State) (c : Nat), c < 128 ∧ s.runs bLPE = true ∧ s.inRun = true ∧ s.tickEvents = true ∧ s.engineEnabled (engineOf c) = true ∧ s.redState ≠ rsJoining ∧ let k := s.tickAt (2 * s.get (LPE.CTX_TIME.STARTOFF c)); s.ctxDue c k = true ∧ (s.ctx c).startTick ≠ some k ∧ let idle := !s.engineHalted (engineOf c) && !s.flag (LPE.CTX_STAT.QUEUED c) && !s.flag (LPE.CTX_STAT.RUNNING c); idle = false ∧ s.recordsOnly (srcLPE 0) = true) ∧
    (∃ (s : State) (e : Nat) (c : Nat), e < 4 ∧ s.runs bLPE = true ∧ s.inRun = true ∧ s.engineEnabled e = true ∧ s.engineHalted e = false ∧ s.getBit LPE.STAT.BUSY e = false ∧ s.nextQueued e = some c ∧ s.sys.eccEng = [] ∧ let x := s.ctx c; let m := s.set (LPE.CTX_STAT.QUEUED c) 0; let slots := m.latched c (if x.resetPend then x.slots.filter (fun p => decide (p.1 < 16)) else x.slots); let bad := x.prog.routes.any (fun r => decide (1 ≤ r.1) && decide (r.1 ≤ 15) && !f32finite (SMap.get 0 slots r.1)); bad = true ∧ s.noReset srcLPE) :=
  ⟨⟨put (device 1) [(LPE.CTRL.ENGEN, 15), (LPE.CTX_CFG.EN 127, 1)], 127, by decide +kernel⟩,
   ⟨put (device 1) [(LPE.CTRL.ENGEN, 15), (LPE.CTX_CFG.EN 127, 1), (LPE.CTX_STAT.QUEUED 127, 1)], 127, by decide +kernel⟩,
   ⟨(let d := put (device 1) [(LPE.CTRL.ENGEN, 15), (LPE.CTX_STAT.QUEUED 33, 1), (LPE.HOSTIN.VALUE 0, 0x7F800000)]; { d with lpe := { d.lpe with ctxs := [(33, { prog := ⟨33, [0x140a], [], [(1, .hostIn 0)], []⟩ })] } }), 1, 33, by decide +kernel⟩⟩

/-- Meets the hypotheses of clauses of Obligations.LoopEngines. -/
theorem witness_LoopEngines_b :
    (∃ (s : State) (e : Nat) (c : Nat), e < 4 ∧ s.runs bLPE = true ∧ s.inRun = true ∧ s.engineEnabled e = true ∧ s.engineHalted e = false ∧ s.getBit LPE.STAT.BUSY e = false ∧ s.nextQueued e = some c ∧ s.sys.eccEng = [] ∧ let x := s.ctx c; let m := s.set (LPE.CTX_STAT.QUEUED c) 0; let slots := m.latched c (if x.resetPend then x.slots.filter (fun p => decide (p.1 < 16)) else x.slots); let bad := x.prog.routes.any (fun r => decide (1 ≤ r.1) && decide (r.1 ≤ 15) && !f32finite (SMap.get 0 slots r.1)); bad = false ∧ s.flag (LPE.CTX_STAT.SWAPPEND c) = false) ∧
    (∃ (s : State) (e : Nat) (r : RunSt), e < 4 ∧ s.runOf e = some r ∧ r.ctx < 128 ∧ s.commitDue e = true ∧ s.sys.eccEng = [] ∧ s.red.serving = false ∧ s.noReset srcLPE) ∧
    (∃ (s : State) (c : Nat), c < 128 ∧ s.runs bLPE = true ∧ s.recordsOnly (srcLPE 0) = true ∧ (s.ctx c).startAt + 2 * s.get (LPE.CTX_TIME.DEADLINE c) ≤ s.now5 ∧ (s.flag (LPE.CTX_STAT.QUEUED c) = true ∨ s.flag (LPE.CTX_STAT.RUNNING c) = true)) ∧
    (∃ (s : State) (o : Origin) (c : Nat), c < 128 ∧ s.mayWrite o (LPE.CTX_CTL.SWAP c).addr = true ∧ s.runs bLPE = true ∧ s.flag (LPE.CTX_CFG.SWAPEN c) = true) :=
  ⟨⟨(let d := put (device 1) [(LPE.CTRL.ENGEN, 15), (LPE.CTX_STAT.QUEUED 33, 1), (LPE.CTX_CFG.NBLK 33, 1)]; { d with lpe := { d.lpe with ctxs := [(33, { prog := ⟨33, [0x140a], [], [(1, .hostIn 0)], []⟩, coef := [(0, 0x40000000), (1, 0x40000000)] })] } }), 1, 33, by decide +kernel⟩,
   ⟨(let d := put (device 1) [(LPE.STAT.BUSY, 1), (LPE.CTX_STAT.RUNNING 31, 1), (LPE.CTX_TIME.DEADLINE 31, 100)]; { d with lpe := { d.lpe with running := [(0, ⟨31, [(0, 5)], [(16, 0x40400000)], [(3, 7)], 77, 0, false, false, false, false, false, false, none⟩)], ctxs := [(31, { prog := ⟨31, [], [], [], [⟨16, 1, 5, 2⟩]⟩ })] }, time := { d.time with scale := 90 * 5 * nsUnit } }), 0, ⟨31, [(0, 5)], [(16, 0x40400000)], [(3, 7)], 77, 0, false, false, false, false, false, false, none⟩, by decide +kernel⟩,
   ⟨put (device 1) [(LPE.CTX_STAT.QUEUED 0, 1)], 0, by decide +kernel⟩,
   ⟨put (device 1) [(LPE.CTX_CFG.SWAPEN 127, 1)], vendor, 127, by decide +kernel⟩⟩

/-- Meets the hypotheses of clauses of Obligations.LoopEngines. -/
theorem witness_LoopEngines_c :
    (∃ (s : State) (o : Origin) (c : Nat), c < 128 ∧ s.mayWrite o (LPE.CTX_CTL.SWAP c).addr = true ∧ s.runs bLPE = true ∧ s.flag (LPE.CTX_CFG.SWAPEN c) = false ∧ s.recordsOnly (srcLPE 4) = true) ∧
    (∃ (s : State) (o : Origin) (w : Nat) (v : Nat), w < 256 ∧ v < 2 ^ 32 ∧ s.mayWrite o 0x400F8000 = true ∧ s.runs bLPE = true ∧ s.sys.eccEng = [] ∧ let c := s.get LPE.CBSEL.CTX; s.flag (LPE.CTX_STAT.SWAPPEND c) = false) ∧
    (∃ (g : Eng) (d : Desc), 16 ≤ d.out ∧ let writes (y : Nat) : Prop := (g.block d).slot d.out = y ∧ (g.block d).st = g.st ∧ (g.block d).arith = g.arith ∧ ∀ i, i ≠ d.out → (g.block d).slot i = g.slot i; let lim := lClamp (g.slot d.in0) (g.c d 0) (g.c d 1); let lin := lAdd (lAdd (lAdd (lAdd (g.c d 0) (lMul (g.c d 1) (g.slot d.in0))) (lMul (g.c d 2) (g.slot d.in1))) (lMul (g.c d 3) (g.slot d.in2))) (lMul (g.c d 4) (g.slot d.in3)); let quo := lDiv (lMul (g.slot d.in0) (g.slot d.in1)) (g.slot d.in2); d.ty = 0x05 ∧ d.flags = 0 ∧ f32finite lim = true) ∧
    (∃ (g : Eng) (d : Desc), 16 ≤ d.out ∧ let writes (y : Nat) : Prop := (g.block d).slot d.out = y ∧ (g.block d).st = g.st ∧ (g.block d).arith = g.arith ∧ ∀ i, i ≠ d.out → (g.block d).slot i = g.slot i; let lim := lClamp (g.slot d.in0) (g.c d 0) (g.c d 1); let lin := lAdd (lAdd (lAdd (lAdd (g.c d 0) (lMul (g.c d 1) (g.slot d.in0))) (lMul (g.c d 2) (g.slot d.in1))) (lMul (g.c d 3) (g.slot d.in2))) (lMul (g.c d 4) (g.slot d.in3)); let quo := lDiv (lMul (g.slot d.in0) (g.slot d.in1)) (g.slot d.in2); d.ty = 0x0A ∧ f32finite lin = true) :=
  ⟨⟨put (device 1) [(LPE.CTX_CFG.SWAPEN 0, 0)], vendor, 0, by decide +kernel⟩,
   ⟨put (device 1) [(LPE.CBSEL.CTX, 127), (LPE.CTX_STAT.ACTBANK 127, 1)], vendor, 255, 2 ^ 32 - 1, by decide +kernel⟩,
   ⟨{ coef := [(0, 0x3f800000), (1, 0x3f000000), (2, 0x3e800000), (3, 0x3f800000), (4, 0x40800000)], bank := 0, slots := [(1, 0x40000000), (2, 0x3f800000), (3, 0x3f000000), (4, 0x40a00000), (16, 0x41000000)], slots0 := [(16, 0x41000000)], st := [(0, 0x3f800000)], st0 := [(0, 0x3f800000)], mem := [], memBase := 0 }, ⟨5, 63, 1, 2, 3, 4, 0, 0, 0⟩, by decide +kernel⟩,
   ⟨{ coef := [(0, 0x3f800000), (1, 0x3f000000), (2, 0x3e800000), (3, 0x3f800000), (4, 0x40800000)], bank := 0, slots := [(1, 0x40000000), (2, 0x3f800000), (3, 0x3f000000), (4, 0x40a00000), (16, 0x41000000)], slots0 := [(16, 0x41000000)], st := [(0, 0x3f800000)], st0 := [(0, 0x3f800000)], mem := [], memBase := 0 }, ⟨10, 63, 1, 2, 3, 4, 0, 0, 0⟩, by decide +kernel⟩⟩

/-- Meets the hypotheses of clauses of Obligations.LoopEngines. -/
theorem witness_LoopEngines_d :
    (∃ (g : Eng) (d : Desc), 16 ≤ d.out ∧ let writes (y : Nat) : Prop := (g.block d).slot d.out = y ∧ (g.block d).st = g.st ∧ (g.block d).arith = g.arith ∧ ∀ i, i ≠ d.out → (g.block d).slot i = g.slot i; let lim := lClamp (g.slot d.in0) (g.c d 0) (g.c d 1); let lin := lAdd (lAdd (lAdd (lAdd (g.c d 0) (lMul (g.c d 1) (g.slot d.in0))) (lMul (g.c d 2) (g.slot d.in1))) (lMul (g.c d 3) (g.slot d.in2))) (lMul (g.c d 4) (g.slot d.in3)); let quo := lDiv (lMul (g.slot d.in0) (g.slot d.in1)) (g.slot d.in2); d.ty = 0x0A ∧ f32finite lin = false) ∧
    (∃ (g : Eng) (d : Desc), 16 ≤ d.out ∧ let writes (y : Nat) : Prop := (g.block d).slot d.out = y ∧ (g.block d).st = g.st ∧ (g.block d).arith = g.arith ∧ ∀ i, i ≠ d.out → (g.block d).slot i = g.slot i; let lim := lClamp (g.slot d.in0) (g.c d 0) (g.c d 1); let lin := lAdd (lAdd (lAdd (lAdd (g.c d 0) (lMul (g.c d 1) (g.slot d.in0))) (lMul (g.c d 2) (g.slot d.in1))) (lMul (g.c d 3) (g.slot d.in2))) (lMul (g.c d 4) (g.slot d.in3)); let quo := lDiv (lMul (g.slot d.in0) (g.slot d.in1)) (g.slot d.in2); d.ty = 0x0B ∧ d.flags = 0 ∧ f32finite quo = true) :=
  ⟨⟨{ coef := [(0, 0x7f800000), (1, 0x40000000)], bank := 0, slots := [(1, 0x40000000), (2, 0x3f800000), (3, 0x3f000000), (4, 0x40a00000), (16, 0x41000000)], slots0 := [(16, 0x41000000)], st := [(0, 0x3f800000)], st0 := [(0, 0x3f800000)], mem := [], memBase := 0 }, ⟨0x0A, 16, 1, 2, 3, 4, 0, 0, 0⟩, by decide +kernel⟩,
   ⟨{ coef := [(0, 0x3f800000), (1, 0x3f000000), (2, 0x3e800000), (3, 0x3f800000), (4, 0x40800000)], bank := 0, slots := [(1, 0x40000000), (2, 0x3f800000), (3, 0x3f000000), (4, 0x40a00000), (16, 0x41000000)], slots0 := [(16, 0x41000000)], st := [(0, 0x3f800000)], st0 := [(0, 0x3f800000)], mem := [], memBase := 0 }, ⟨11, 63, 1, 2, 3, 4, 0, 0, 0⟩, by decide +kernel⟩⟩

/-- Meets the hypotheses of clauses of Obligations.LoopEngines. -/
theorem witness_LoopEngines_e : ∃ (g : Eng) (d : Desc), 16 ≤ d.out ∧ let writes (y : Nat) : Prop := (g.block d).slot d.out = y ∧ (g.block d).st = g.st ∧ (g.block d).arith = g.arith ∧ ∀ i, i ≠ d.out → (g.block d).slot i = g.slot i; let lim := lClamp (g.slot d.in0) (g.c d 0) (g.c d 1); let lin := lAdd (lAdd (lAdd (lAdd (g.c d 0) (lMul (g.c d 1) (g.slot d.in0))) (lMul (g.c d 2) (g.slot d.in1))) (lMul (g.c d 3) (g.slot d.in2))) (lMul (g.c d 4) (g.slot d.in3)); let quo := lDiv (lMul (g.slot d.in0) (g.slot d.in1)) (g.slot d.in2); d.ty = 0x01 ∧ d.flags = 0 ∧ g.policy = none ∧ g.upd = [] ∧ let e := lSub (g.slot d.in0) (g.slot d.in1); let v := lAdd (lAdd (lMul (g.c d 0) e) (g.s d 0)) (g.slot d.in3); let u := lClamp v (g.c d 3) (g.c d 4); let i' := lAdd (lAdd (g.s d 0) (lMul (g.c d 1) e)) (lMul (g.c d 2) (lSub u v)); f32finite u = true ∧ f32finite v = true ∧ f32finite (g.s d 0) = true ∧ f32finite i' = true :=
  ⟨{ coef := [(0, 0x3f800000), (1, 0x3f000000), (2, 0x3e800000), (3, 0x3f800000), (4, 0x40800000)], bank := 0, slots := [(1, 0x40000000), (2, 0x3f800000), (3, 0x3f000000), (4, 0x40a00000), (16, 0x41000000)], slots0 := [(16, 0x41000000)], st := [(0, 0x3f800000)], st0 := [(0, 0x3f800000)], mem := [], memBase := 0 }, ⟨1, 63, 1, 2, 3, 4, 0, 0, 0⟩, by decide +kernel⟩

/-- Meets the hypotheses of clauses of Obligations.Records. -/
theorem witness_Records_a :
    (∃ (s : State) (o : Origin) (v : Nat), s.mayWrite o GEO.CMD.ARM.addr = true ∧ s.runs bGEO = true ∧ v < 2 ^ 32 ∧ let only (i : Nat) : Bool := (List.range 5).all (fun j => j == i || !v.testBit j); let after := if s.geo.recnum = 0 then s.nrec - 1 else s.get GEO.LASTREC.SLOT; let heads := [GEO.STAT.STATE.addr, GEO.RECDONE_LO.DONE.addr, GEO.RECDONE_HI.DONE.addr, SYS.INJCTL.ARMED.addr]; only 0 = true ∧ s.basecamp = false ∧ (s.geoState = gIdle ∨ s.geoState = gStopped) ∧ s.geoConfigOk = false ∧ s.recordsOnly (srcGEO 3) = true) ∧
    (∃ (s : State) (o : Origin) (v : Nat), s.mayWrite o GEO.CMD.ARM.addr = true ∧ s.runs bGEO = true ∧ v < 2 ^ 32 ∧ let only (i : Nat) : Bool := (List.range 5).all (fun j => j == i || !v.testBit j); let after := if s.geo.recnum = 0 then s.nrec - 1 else s.get GEO.LASTREC.SLOT; let heads := [GEO.STAT.STATE.addr, GEO.RECDONE_LO.DONE.addr, GEO.RECDONE_HI.DONE.addr, SYS.INJCTL.ARMED.addr]; only 0 = true ∧ s.basecamp = false ∧ (s.geoState = gIdle ∨ s.geoState = gStopped) ∧ s.geoConfigOk = true ∧ s.nextSlot after = none ∧ s.recordsOnly (srcGEO 2) = true) ∧
    (∃ (s : State) (o : Origin) (v : Nat) (i : _), s.mayWrite o GEO.CMD.ARM.addr = true ∧ s.runs bGEO = true ∧ v < 2 ^ 32 ∧ let only (i : Nat) : Bool := (List.range 5).all (fun j => j == i || !v.testBit j); let after := if s.geo.recnum = 0 then s.nrec - 1 else s.get GEO.LASTREC.SLOT; let heads := [GEO.STAT.STATE.addr, GEO.RECDONE_LO.DONE.addr, GEO.RECDONE_HI.DONE.addr, SYS.INJCTL.ARMED.addr]; only 0 = true ∧ s.basecamp = false ∧ (s.geoState = gIdle ∨ s.geoState = gStopped) ∧ s.geoConfigOk = true ∧ s.nextSlot after = some i) ∧
    (∃ (s : State) (o : Origin) (v : Nat), s.mayWrite o GEO.CMD.ARM.addr = true ∧ s.runs bGEO = true ∧ v < 2 ^ 32 ∧ let only (i : Nat) : Bool := (List.range 5).all (fun j => j == i || !v.testBit j); let after := if s.geo.recnum = 0 then s.nrec - 1 else s.get GEO.LASTREC.SLOT; let heads := [GEO.STAT.STATE.addr, GEO.RECDONE_LO.DONE.addr, GEO.RECDONE_HI.DONE.addr, SYS.INJCTL.ARMED.addr]; only 1 = true ∧ s.geoState = gStalled ∧ s.geo.cur = none) :=
  ⟨⟨device 0, vendor, 1, by decide +kernel⟩,
   ⟨put (device 0) [(GEO.CFG.BASE, 0), (GEO.STR_CFG.EN 0, 1), (GEO.STR_CFG.SHARE 0, 16), (GEO.RECHOLD_LO.HOLD, 1)], vendor, 1, by decide +kernel⟩,
   ⟨put (device 0) [(GEO.CFG.BASE, 0), (GEO.STR_CFG.EN 0, 1), (GEO.STR_CFG.SHARE 0, 16)], vendor, 1, 0, by decide +kernel⟩,
   ⟨put (device 0) [(GEO.STAT.STATE, 5)], vendor, 2, by decide +kernel⟩⟩

/-- Meets the hypotheses of clauses of Obligations.Records. -/
theorem witness_Records_b :
    (∃ (s : State) (o : Origin) (v : Nat) (r : _), s.mayWrite o GEO.CMD.ARM.addr = true ∧ s.runs bGEO = true ∧ v < 2 ^ 32 ∧ let only (i : Nat) : Bool := (List.range 5).all (fun j => j == i || !v.testBit j); let after := if s.geo.recnum = 0 then s.nrec - 1 else s.get GEO.LASTREC.SLOT; let heads := [GEO.STAT.STATE.addr, GEO.RECDONE_LO.DONE.addr, GEO.RECDONE_HI.DONE.addr, SYS.INJCTL.ARMED.addr]; only 1 = true ∧ s.geo.cur = some r ∧ r.slot < s.nrec ∧ s.geoState ≠ gPost) ∧
    (∃ (s : State) (o : Origin) (v : Nat) (r : _), s.mayWrite o GEO.CMD.ARM.addr = true ∧ s.runs bGEO = true ∧ v < 2 ^ 32 ∧ let only (i : Nat) : Bool := (List.range 5).all (fun j => j == i || !v.testBit j); let after := if s.geo.recnum = 0 then s.nrec - 1 else s.get GEO.LASTREC.SLOT; let heads := [GEO.STAT.STATE.addr, GEO.RECDONE_LO.DONE.addr, GEO.RECDONE_HI.DONE.addr, SYS.INJCTL.ARMED.addr]; only 1 = true ∧ s.geo.cur = some r ∧ r.slot < s.nrec ∧ s.geoState = gPost ∧ s.flag GEO.CFG.CONT = false ∧ s.sys.eccCap = [] ∧ s.flag SYS.INJCTL.ARMED = false) ∧
    (∃ (s : State) (o : Origin) (v : Nat), s.mayWrite o GEO.CMD.ARM.addr = true ∧ s.runs bGEO = true ∧ v < 2 ^ 32 ∧ let only (i : Nat) : Bool := (List.range 5).all (fun j => j == i || !v.testBit j); let after := if s.geo.recnum = 0 then s.nrec - 1 else s.get GEO.LASTREC.SLOT; let heads := [GEO.STAT.STATE.addr, GEO.RECDONE_LO.DONE.addr, GEO.RECDONE_HI.DONE.addr, SYS.INJCTL.ARMED.addr]; only 2 = true) :=
  ⟨⟨(let d := put (device 0) [(GEO.STAT.STATE, 2)]; { d with geo := { d.geo with cur := some { slot := 0, base := 0, mm1 := 0, chans := [(0, 0)], streams := [{ index := 0, off := 0x200, depth := 16, rowb := 2, dec := 1, pre := 4, post := 4, first := 0, next := 0 }], recnum := 3 } } }), vendor, 2, ({ slot := 0, base := 0, mm1 := 0, chans := [(0, 0)], streams := [{ index := 0, off := 0x200, depth := 16, rowb := 2, dec := 1, pre := 4, post := 4, first := 0, next := 0 }], recnum := 3 } : GeoRec), by decide +kernel⟩,
   ⟨(let d := put (device 0) [(GEO.STAT.STATE, 3), (GEO.CFG.PROC, 0)]; { d with geo := { d.geo with cur := some { slot := 0, base := 0, mm1 := 0, chans := [(0, 0)], streams := [{ index := 0, off := 0x200, depth := 16, rowb := 2, dec := 1, pre := 4, post := 4, first := 0, next := 0 }], recnum := 3 } } }), vendor, 2, ({ slot := 0, base := 0, mm1 := 0, chans := [(0, 0)], streams := [{ index := 0, off := 0x200, depth := 16, rowb := 2, dec := 1, pre := 4, post := 4, first := 0, next := 0 }], recnum := 3 } : GeoRec), by decide +kernel⟩,
   ⟨device 0, vendor, 4, by decide +kernel⟩⟩

/-- Meets the hypotheses of clauses of Obligations.Records. -/
theorem witness_Records_c :
    (∃ (s : State) (o : Origin) (v : Nat), s.mayWrite o GEO.CMD.ARM.addr = true ∧ s.runs bGEO = true ∧ v < 2 ^ 32 ∧ let only (i : Nat) : Bool := (List.range 5).all (fun j => j == i || !v.testBit j); let after := if s.geo.recnum = 0 then s.nrec - 1 else s.get GEO.LASTREC.SLOT; let heads := [GEO.STAT.STATE.addr, GEO.RECDONE_LO.DONE.addr, GEO.RECDONE_HI.DONE.addr, SYS.INJCTL.ARMED.addr]; only 4 = true) ∧
    (∃ (s : State) (o : Origin) (v : Nat), s.mayWrite o GEO.CMD.ARM.addr = true ∧ v < 2 ^ 32) ∧
    (∃ (s : State) (i : Nat), s.runs bGEO = true ∧ s.geoState = gStalled ∧ (s.nextSlot (if s.geo.recnum = 0 then s.nrec - 1 else s.get GEO.LASTREC.SLOT) = some i) ∧ (s.nextSlot (s.get GEO.LASTREC.SLOT)).isSome = true) ∧
    (∃ (s : State) (vsw : Int), let m := if s.vswConverts then s.set ADC.VSW.CODE (ofSigned 10 (vswCode vsw)) else s; s.geo.cur = none) :=
  ⟨⟨put (device 0) [(GEO.CFG.NRECLOG, 2), (GEO.RECHOLD_LO.HOLD, 2)] |>.capPut 0x30000004 [3] |>.capPut 0x30100004 [3] |>.capPut 0x30200004 [1], vendor, 16, by decide +kernel⟩,
   ⟨device 0, vendor, 27, by decide +kernel⟩,
   ⟨put (device 0) [(GEO.CFG.BASE, 0), (GEO.STR_CFG.EN 0, 1), (GEO.STR_CFG.SHARE 0, 16), (GEO.STAT.STATE, 5)], 0, by decide +kernel⟩,
   ⟨device 0, 5, by decide +kernel⟩⟩

/-- Meets the hypotheses of clauses of Obligations.Records. -/
theorem witness_Records_d :
    (∃ (s : State) (vsw : Int) (half : Bool) (r : GeoRec) (x : StreamSt) (n : Nat), let m := if s.vswConverts then s.set ADC.VSW.CODE (ofSigned 10 (vswCode vsw)) else s; s.geo.cur = some r ∧ r.streams = [x] ∧ x.index = 0 ∧ x.dec = 1 ∧ x.trig = none ∧ x.first ≤ n ∧ 0x200 ≤ x.off ∧ m.latchedRow r.base (r.mm1 + 1) half = some n ∧ s.runs bGEO = true ∧ s.flag CLK.STAT.SAFE = false ∧ s.geoState = gArmed ∧ (∀ i, i < 8 → s.flag (GEO.TRG_CFG.EN i) = false)) ∧
    (∃ (s : State) (r : GeoRec), s.geo.cur = some r ∧ s.geoState = gArmed ∧ s.isCell = true) ∧
    (∃ (s : State) (r : GeoRec) (rest : List GeoRec), s.geo.proc = r :: rest ∧ r.slot < s.nrec ∧ s.runs bGEO = true ∧ s.geoState ≠ gStalled ∧ s.noReset srcGEO ∧ s.sys.eccCap = [] ∧ s.flag SYS.INJCTL.ARMED = false ∧ let m : State := { s.setFlag GEO.STAT.PROCBUSY (!rest.isEmpty) with geo := { s.geo with proc := rest } }; r.procKind = 2 ∧ m.maskTest r = none) :=
  ⟨⟨(let d := put (device 0) [(GEO.STAT.STATE, 2)]; { d with geo := { d.geo with cur := some { slot := 0, base := 0, mm1 := 0, chans := [(0, 0)], streams := [{ index := 0, off := 0x200, depth := 16, rowb := 2, dec := 1, pre := 4, post := 4, first := 0, next := 0 }], recnum := 3 } } }), 5, true, ({ slot := 0, base := 0, mm1 := 0, chans := [(0, 0)], streams := [{ index := 0, off := 0x200, depth := 16, rowb := 2, dec := 1, pre := 4, post := 4, first := 0, next := 0 }], recnum := 3 } : GeoRec), ({ index := 0, off := 0x200, depth := 16, rowb := 2, dec := 1, pre := 4, post := 4, first := 0, next := 0 } : StreamSt), 1, by decide +kernel⟩,
   ⟨(let d := put (device 0) [(GEO.STAT.STATE, 2)]; { d with geo := { d.geo with cur := some { slot := 0, base := 0, mm1 := 0, chans := [(0, 0)], streams := [{ index := 0, off := 0x200, depth := 16, rowb := 2, dec := 1, pre := 4, post := 4, first := 0, next := 0 }], recnum := 3 } } }), { slot := 0, base := 0, mm1 := 0, chans := [(0, 0)], streams := [{ index := 0, off := 0x200, depth := 16, rowb := 2, dec := 1, pre := 4, post := 4, first := 0, next := 0 }], recnum := 3 }, by decide +kernel⟩,
   ⟨(let d := put (device 0) [(GEO.CFG.PROC, 2)]; { d with geo := { d.geo with proc := [{ slot := 0, base := 2, mm1 := 0, chans := [(0, 0)], streams := [{ index := 0, off := 0x200, depth := 16, rowb := 4, dec := 1, pre := 4, post := 4, first := 0, next := 8, trig := some 4 }], recnum := 3, procKind := 2 }] } }), { slot := 0, base := 2, mm1 := 0, chans := [(0, 0)], streams := [{ index := 0, off := 0x200, depth := 16, rowb := 4, dec := 1, pre := 4, post := 4, first := 0, next := 8, trig := some 4 }], recnum := 3, procKind := 2 }, [], by decide +kernel⟩⟩

/-- Meets the hypotheses of clauses of Obligations.Records. -/
theorem witness_Records_e :
    (∃ (s : State) (r : GeoRec) (rest : List GeoRec) (c : Nat) (x : Int), s.geo.proc = r :: rest ∧ r.slot < s.nrec ∧ s.runs bGEO = true ∧ s.geoState ≠ gStalled ∧ s.noReset srcGEO ∧ s.sys.eccCap = [] ∧ s.flag SYS.INJCTL.ARMED = false ∧ let m : State := { s.setFlag GEO.STAT.PROCBUSY (!rest.isEmpty) with geo := { s.geo with proc := rest } }; r.procKind = 2 ∧ m.maskTest r = some (c, x)) ∧
    (∃ (s : State) (r : GeoRec) (rest : List GeoRec) (n : Nat), s.geo.proc = r :: rest ∧ r.slot < s.nrec ∧ s.runs bGEO = true ∧ s.geoState ≠ gStalled ∧ s.noReset srcGEO ∧ s.sys.eccCap = [] ∧ s.flag SYS.INJCTL.ARMED = false ∧ let m : State := { s.setFlag GEO.STAT.PROCBUSY (!rest.isEmpty) with geo := { s.geo with proc := rest } }; n < 4 ∧ r.procKind = 1 ∧ s.get GEO.MEASCFG.EN = 2 ^ n) :=
  ⟨⟨(let d := put (device 0) [(GEO.CFG.PROC, 2), (GEO.MASKCFG.ENA, 1), (GEO.CFG.STOPFAIL, 1), (GEO.MASKSEG.WORD 0 0 0, 0xFFFFFF00), (GEO.MASKSEG.WORD 0 0 1, 0x40000000)]; { d with geo := { d.geo with proc := [{ slot := 0, base := 2, mm1 := 0, chans := [(0, 0)], streams := [{ index := 0, off := 0x200, depth := 16, rowb := 4, dec := 1, pre := 4, post := 4, first := 0, next := 8, trig := some 4 }], recnum := 3, procKind := 2 }] } }), { slot := 0, base := 2, mm1 := 0, chans := [(0, 0)], streams := [{ index := 0, off := 0x200, depth := 16, rowb := 4, dec := 1, pre := 4, post := 4, first := 0, next := 8, trig := some 4 }], recnum := 3, procKind := 2 }, [], 0, (-4 : Int), by decide +kernel⟩,
   ⟨(let d := put (device 0) [(GEO.CFG.PROC, 1), (GEO.MEASCFG.EN, 8)]; { d with geo := { d.geo with proc := [{ slot := 0, base := 2, mm1 := 0, chans := [(0, 0)], streams := [{ index := 0, off := 0x200, depth := 16, rowb := 4, dec := 1, pre := 4, post := 4, first := 0, next := 8, trig := some 4 }], recnum := 3, procKind := 1 }] } }), { slot := 0, base := 2, mm1 := 0, chans := [(0, 0)], streams := [{ index := 0, off := 0x200, depth := 16, rowb := 4, dec := 1, pre := 4, post := 4, first := 0, next := 8, trig := some 4 }], recnum := 3, procKind := 1 }, [], 3, by decide +kernel⟩⟩

/-- Meets the hypotheses of clauses of Obligations.MarksAndUploads. -/
theorem witness_MarksAndUploads_a :
    (∃ (s : State) (n : Nat) (f : Frame), n < 16 ∧ (s.arrive n f).1 = true ∧ f.ftype = ftMark ∧ f.dst = addrAll ∧ let m := (s.arrive n f).2; let id := f.field 1 0 4; let origin := f.field 2 0 2; let now : Int := ((m.time64 : Int) + m.govOffset64 (f.field 2 4 1 % 2)) / 64; let d := seqDiff 32 (f.field 1 4 4) (ofSigned 32 now); let tat := ((now + d) * 64 - m.govOffset64 (f.field 2 4 1 % 2)).toNat; m.firstCopy 1 origin id 65536 = false) ∧
    (∃ (s : State) (n : Nat) (f : Frame), n < 16 ∧ (s.arrive n f).1 = true ∧ f.ftype = ftMark ∧ f.dst = addrAll ∧ let m := (s.arrive n f).2; let id := f.field 1 0 4; let origin := f.field 2 0 2; let now : Int := ((m.time64 : Int) + m.govOffset64 (f.field 2 4 1 % 2)) / 64; let d := seqDiff 32 (f.field 1 4 4) (ofSigned 32 now); let tat := ((now + d) * 64 - m.govOffset64 (f.field 2 4 1 % 2)).toNat; m.firstCopy 1 origin id 65536 = true ∧ m.isCell = true ∧ m.forwarderOnly = false ∧ m.runs bGEO = true ∧ origin ≠ m.address ∧ (f.field 2 2 2 &&& m.get GEO.MARKCLASS.MASK) ≠ 0 ∧ (m.geoState = gPrefill ∨ m.geoState = gArmed) ∧ (m.unitsOfType 5).isEmpty = false ∧ 0 < d ∧ m.time64 < tat) ∧
    (∃ (s : State) (x : MarkSt), (s.geo.marks.find? (fun m => decide (m.tat ≤ s.time64)) = some x) ∧ s.geo.cur = none) :=
  ⟨⟨(let d := (let d := put (device 0) [(GEO.STAT.STATE, 2), (GEO.MARKCLASS.MASK, 1), (GEO.TRG_CFG.EN 3, 1), (GEO.TRG_CFG.TYPE 3, 5)]; { d with geo := { d.geo with cur := some { slot := 0, base := 0, mm1 := 0, chans := [(0, 0)], streams := [{ index := 0, off := 0x200, depth := 16, rowb := 2, dec := 1, pre := 4, post := 4, first := 0, next := 0 }], recnum := 3 } } }); { d with link := { d.link with dups := [⟨1, 0x7C00, 77, 0⟩] } }), 1, sealFrame ⟨3, 0, false, 1, 0, addrAll, toLE 4 77 ++ toLE 4 1000 ++ toLE 2 0x7C00 ++ toLE 2 1 ++ zeroB 4, false, 0, .eof, 0⟩, by decide +kernel⟩,
   ⟨(let d := put (device 0) [(GEO.STAT.STATE, 2), (GEO.MARKCLASS.MASK, 1), (GEO.TRG_CFG.EN 3, 1), (GEO.TRG_CFG.TYPE 3, 5)]; { d with geo := { d.geo with cur := some { slot := 0, base := 0, mm1 := 0, chans := [(0, 0)], streams := [{ index := 0, off := 0x200, depth := 16, rowb := 2, dec := 1, pre := 4, post := 4, first := 0, next := 0 }], recnum := 3 } } }), 0, sealFrame ⟨3, 0, false, 1, 0, addrAll, toLE 4 77 ++ toLE 4 1000 ++ toLE 2 0x7C00 ++ toLE 2 1 ++ zeroB 4, false, 0, .eof, 0⟩, by decide +kernel⟩,
   ⟨(let d := device 0; { d with geo := { d.geo with marks := [⟨77, 0x7C00, 1, 0, 0⟩] } }), ⟨77, 0x7C00, 1, 0, 0⟩, by decide +kernel⟩⟩

/-- Meets the hypotheses of clauses of Obligations.MarksAndUploads. -/
theorem witness_MarksAndUploads_b :
    (∃ (s : State) (x : MarkSt) (r : _), (s.geo.marks.find? (fun m => decide (m.tat ≤ s.time64)) = some x) ∧ s.geo.cur = some r ∧ s.geoState = gArmed ∧ s.isCell = true) ∧
    (∃ (s : State) (o : Origin) (v : Nat), s.mayWrite o GEO.CMD.MARK.addr = true ∧ s.runs bGEO = true ∧ v < 2 ^ 32 ∧ ((List.range 5).all (fun j => j == 3 || !v.testBit j) = true) ∧ s.isCell = true) ∧
    (∃ (s : State) (o : Origin) (v : Nat), s.mayWrite o GEO.CMD.MARK.addr = true ∧ s.runs bGEO = true ∧ v < 2 ^ 32 ∧ ((List.range 5).all (fun j => j == 3 || !v.testBit j) = true) ∧ s.isCell = false) ∧
    (∃ (s : State) (n : Nat) (f : Frame), ∃ got : Nat × State, s.executes n f opCapup (permNeed 128) (bodyLen 12) = some got ∧ (let i := got.1; let m := got.2; let k := byteAt (txnOf n f).body 0; let off := (txnOf n f).at 4 4; let used := m.slotUsed k; let len := if (txnOf n f).at 8 4 = 0xFFFFFFFF then used - off else (txnOf n f).at 8 4; let locks := [GEO.RECLOCK_LO.LOCK.addr, GEO.RECLOCK_HI.LOCK.addr]; (m.nrec ≤ k ∨ m.slotState k = 0))) :=
  ⟨⟨(let d := put (device 0) [(GEO.STAT.STATE, 2), (GEO.TRG_CFG.EN 3, 1), (GEO.TRG_CFG.TYPE 3, 5)]; { d with geo := { d.geo with cur := some { slot := 0, base := 0, mm1 := 0, chans := [(0, 0)], streams := [{ index := 0, off := 0x200, depth := 16, rowb := 2, dec := 1, pre := 4, post := 4, first := 0, next := 0 }], recnum := 3 }, marks := [⟨77, 0x7C00, 1, 0, 0⟩] } }), ⟨77, 0x7C00, 1, 0, 0⟩, ({ slot := 0, base := 0, mm1 := 0, chans := [(0, 0)], streams := [{ index := 0, off := 0x200, depth := 16, rowb := 2, dec := 1, pre := 4, post := 4, first := 0, next := 0 }], recnum := 3 } : GeoRec), by decide +kernel⟩,
   ⟨(let d := put (device 0) [(GEO.MARKOUT.CLASS, 5)]; { d with cnv := { d.cnv with ringEn := 0x801 } }), vendor, 8, by decide +kernel⟩,
   ⟨(let d := put (device 1) [(GEO.MARKOUT.CLASS, 5)]; { d with cnv := { d.cnv with ringEn := 0x801 } }), vendor, 8, by decide +kernel⟩,
   ⟨put (device 0) [(CNV.STAT.ACTIVE, 0), (CNV.STAT.BASECAMP, 1)], 0, mgmt (device 0).address addrHost (txn opCapup 0 (toLE 4 0 ++ toLE 4 0 ++ toLE 4 5)), found (by decide +kernel)⟩⟩

/-- Meets the hypotheses of clauses of Obligations.MarksAndUploads. -/
theorem witness_MarksAndUploads_c :
    (∃ (s : State) (n : Nat) (f : Frame), ∃ got : Nat × State, s.executes n f opCapup (permNeed 128) (bodyLen 12) = some got ∧ (let i := got.1; let m := got.2; let k := byteAt (txnOf n f).body 0; let off := (txnOf n f).at 4 4; let used := m.slotUsed k; let len := if (txnOf n f).at 8 4 = 0xFFFFFFFF then used - off else (txnOf n f).at 8 4; let locks := [GEO.RECLOCK_LO.LOCK.addr, GEO.RECLOCK_HI.LOCK.addr]; k < m.nrec ∧ m.slotState k ≠ 0 ∧ m.slotSize < off + len ∧ m.recordsOnly (srcMGT 1) = true)) ∧
    (∃ (s : State) (n : Nat) (f : Frame), ∃ got : Nat × State, s.executes n f opCapup (permNeed 128) (bodyLen 12) = some got ∧ (let i := got.1; let m := got.2; let k := byteAt (txnOf n f).body 0; let off := (txnOf n f).at 4 4; let used := m.slotUsed k; let len := if (txnOf n f).at 8 4 = 0xFFFFFFFF then used - off else (txnOf n f).at 8 4; let locks := [GEO.RECLOCK_LO.LOCK.addr, GEO.RECLOCK_HI.LOCK.addr]; k < m.nrec ∧ 2 ≤ m.slotState k ∧ off + len ≤ m.slotSize ∧ 0 < len ∧ len ≤ 448 ∧ m.sys.eccCap = [] ∧ m.geoState ≠ gStalled)) ∧
    (∃ (s : State) (k : Nat), k < 64 ∧ s.slotLocked k = true ∧ SMap.get 0 s.geo.upload k + 65535 ≤ s.tick ∧ s.geoState ≠ gStalled) ∧
    (∃ (s : State) (k : Nat), k < 64 ∧ (s.slotLocked k = false ∨ s.tick < SMap.get 0 s.geo.upload k + 65535)) :=
  ⟨⟨put (device 0) [(CNV.STAT.ACTIVE, 0), (CNV.STAT.BASECAMP, 1)] |>.capPut 0x30000004 [3], 0, mgmt (device 0).address addrHost (txn opCapup 0 (toLE 4 0 ++ toLE 4 0 ++ toLE 4 0x400001)), found (by decide +kernel)⟩,
   ⟨put (device 0) [(CNV.STAT.ACTIVE, 0), (CNV.STAT.BASECAMP, 1)] |>.capPut 0x30000004 [3], 0, mgmt (device 0).address addrHost (txn opCapup 0 (toLE 4 0 ++ toLE 4 0 ++ toLE 4 448)), found (by decide +kernel)⟩,
   ⟨atNow ((let d := put (device 0) [(GEO.RECLOCK_HI.LOCK, 0x80000001)]; { d with geo := { d.geo with upload := [(63, 1)] } })) (70000 * (device 0).tu), 63, by decide +kernel⟩,
   ⟨(let d := put (device 0) [(GEO.RECLOCK_HI.LOCK, 0x80000001)]; { d with geo := { d.geo with upload := [(63, 1)] } }), 63, by decide +kernel⟩⟩

/-- Meets the hypotheses of clauses of Obligations.MarksAndUploads. -/
theorem witness_MarksAndUploads_d :
    (∃ (s : State) (n : Nat) (f : Frame), ∃ got : Nat × State, s.executes n f opCapasm (permNeed 128) (bodyLen 6) = some got ∧ (let i := got.1; let m := got.2; m.isCell = true)) ∧
    (∃ (s : State) (n : Nat) (f : Frame), ∃ got : Nat × State, s.executes n f opCapasm (permNeed 128) (bodyLen 6) = some got ∧ (let i := got.1; let m := got.2; m.isCell = false ∧ m.mgt.asm = none ∧ m.asmDevices = [])) ∧
    (∃ (s : State) (n : Nat) (f : Frame), ∃ got : Nat × State, s.executes n f opCapasm (permNeed 128) (bodyLen 6) = some got ∧ (let i := got.1; let m := got.2; m.isCell = false ∧ m.mgt.asm = none ∧ m.asmDevices ≠ [])) :=
  ⟨⟨withSession (device 0), 0, tagged 5 opCapasm 0x7d9e02012b8e81f48a22124b0f6191ed (toLE 4 77 ++ toLE 2 0x7C00), found (by decide +kernel)⟩,
   ⟨withSession (put (device 1) [(GEO.LASTMARK.ID, 77), (GEO.LASTORIG.ORIGIN, 0x7C00)]), 12, tagged 0x7C00 opCapasm 0xfaf6e599f8502e373cd655a768f544cf (toLE 4 77 ++ toLE 2 0x7C00), found (by decide +kernel)⟩,
   ⟨withSession ((let d := device 1; { d with mgt := { d.mgt with cells := [(5, 2 ^ 24 + 5)] } })), 12, tagged 0x7C00 opCapasm 0xfaf6e599f8502e373cd655a768f544cf (toLE 4 77 ++ toLE 2 0x7C00), found (by decide +kernel)⟩⟩

/-- Meets the hypotheses of clauses of Obligations.PairForming. -/
theorem witness_PairForming_a :
    (∃ (s : State) (n : Nat) (f : Frame), ∃ got : State, s.notes n f opHello .group = some got ∧ (let m := got; let t := txnOf n f; let tag := t.at 0 4; let mine := m.get CNV.PAIRTAG.PAIRTAG; let st := t.at 5 1; let known := tag = mine ∧ tag ≠ 0; let regs := [RED.STAT.STATE.addr, RED.EPOCH.OWN.addr, RED.JOINSTAT.CTX.addr, (srcRED 0).stat.addr, (srcRED 0).live.addr]; m.redRuns = true ∧ t.src = m.partner ∧ t.body.length = 16 ∧ t.at 4 1 % 2 ≠ m.get RST.STRAPS.PAIRSEN ∧ m.noReset srcRED ∧ m.redState ≠ rsIsolated)) ∧
    (∃ (s : State) (n : Nat) (f : Frame), ∃ got : State, s.notes n f opHello .group = some got ∧ (let m := got; let t := txnOf n f; let tag := t.at 0 4; let mine := m.get CNV.PAIRTAG.PAIRTAG; let st := t.at 5 1; let known := tag = mine ∧ tag ≠ 0; let regs := [RED.STAT.STATE.addr, RED.EPOCH.OWN.addr, RED.JOINSTAT.CTX.addr, (srcRED 0).stat.addr, (srcRED 0).live.addr]; m.redRuns = true ∧ t.src = m.partner ∧ t.body.length = 16 ∧ t.at 4 1 % 2 ≠ m.get RST.STRAPS.PAIRSEN ∧ m.noReset srcRED ∧ m.redState = rsIsolated ∧ m.red.partFailed = false ∧ m.flag RED.STAT.PSERVE = true)) ∧
    (∃ (s : State), s.helloDue = false) ∧
    (∃ (s : State), s.redRuns = true ∧ s.helloDue = true) :=
  ⟨⟨put (device 1) [(RED.STAT.STATE, 0), (CNV.PAIRTAG.PAIRTAG, 77)], 14, mgmt 0x7C00 0x7C01 (txn opHello 0 (toLE 4 78 ++ [1, 0] ++ toLE 2 3 ++ toLE 2 9 ++ toLE 2 0xFFFF ++ toLE 2 0xFFFF ++ [0, 0])), found (by decide +kernel)⟩,
   ⟨put (device 1) [(RED.STAT.STATE, 4), (RED.STAT.PSERVE, 1)], 14, mgmt 0x7C00 0x7C01 (txn opHello 0 (toLE 4 77 ++ [1, 1] ++ toLE 2 3 ++ toLE 2 9 ++ toLE 2 0xFFFF ++ toLE 2 0xFFFF ++ [0, 0])), found (by decide +kernel)⟩,
   ⟨(let d := put (device 1) [(RED.STAT.STATE, 2)]; { d with red := { d.red with helloSent := some (0, 2) } }), by decide +kernel⟩,
   ⟨(let d := device 1; { d with cnv := { d.cnv with ringEn := 0x803 } }), by decide +kernel⟩⟩

/-- Meets the hypotheses of clauses of Obligations.PairForming. -/
theorem witness_PairForming_b :
    (∃ (s : State) (k : Nat), s.red.formTick = some k ∧ s.redRuns = true ∧ s.redState = rsForming ∧ k ≤ s.tick ∧ s.isHub = true ∧ s.noReset srcRED ∧ s.log.queue.length < 12) ∧
    (∃ (s : State), s.redRuns = true ∧ s.redState = rsForming ∧ s.isHub = true ∧ s.noReset srcRED ∧ max (s.red.helloTick.getD s.red.formingSince) s.red.formingSince + 256 * s.get RED.CFG.FORMWAIT ≤ s.tick) ∧
    (∃ (s : State), s.redRuns = true ∧ s.tickEvents = true ∧ s.isHub = true ∧ s.noReset srcRED) :=
  ⟨⟨(let d := put (device 1) [(RED.STAT.SENIOR, 0), (PWR.STAT.STATE, 0), (SCR.XIN.X, 5)]; { d with red := { d.red with formTick := some 0 }, scr := { d.scr with held := [(0, 4)] } }), 0, by decide +kernel⟩,
   ⟨(let d := put (device 1) [(RED.SEEN.OWN, 5), (RED.SEENTOT.T, 9)]; { d with red := { d.red with helloTick := some 0 }, time := { d.time with scale := 300 * 204800 * 2 ^ 32 * 300 } }), by decide +kernel⟩,
   ⟨atNow (let d := put (device 1) [(RED.STAT.STATE, 1), (RED.STAT.HBMISS, 0), (RED.CFG.K, 3), (RED.SEENTOT.T, 10), (RED.EPOCH.OWN, 4), (RED.EPOCH.PARTNER, 6)]; let s0 := (atNow d (70 * d.tu)).tickAt d.offO - 1; { d with red := { d.red with xTicks := [], pTicks := [], ringSeen := [(0, 7)], addrs := [1, 2] }, cnv := { d.cnv with ringEn := 1 } }) (70 * (device 1).tu), by decide +kernel⟩⟩

/-- Meets the hypotheses of clauses of Obligations.PairForming. -/
theorem witness_PairForming_c : ∃ (s : State) (n : Nat) (k : Nat) (f : Frame) (c : Instr), n < 16 ∧ ((c = .ringOrderArrive n f ∧ s.isRingLane n = true) ∨ (c = .trunkOrderArrive n f ∧ s.isCentral = true ∧ s.isTrunkLane n = true)) ∧ let m := (s.rxFrame n f).2; (s.rxFrame n f).1 = true ∧ f.ftype = ftOrder ∧ f.field 1 0 2 = m.partner ∧ m.redRuns = true ∧ m.expectedTick f.seq = some k ∧ m.redState ≠ rsIsolated :=
  ⟨put (device 1) [(RED.STAT.STATE, 1), (RED.EPOCH.OWN, 4)], 3, (seqTick (((put (device 1) [(RED.STAT.STATE, 1), (RED.EPOCH.OWN, 4)]).rxFrame (3) (sealFrame ⟨2, 0, false, 1, 0, addrAll, toLE 2 0x7C01 ++ toLE 2 9 ++ [2, 0, 0, 0] ++ [0, 0, 0, 0, 0, 0, 0, 0] ++ toLE 4 0x3F800000 ++ zeroB 4 ++ [0xFF, 0, 0, 0] ++ zeroB 4 ++ zeroB 32, false, 0, .eof, 0⟩)).2.tick) (sealFrame ⟨2, 0, false, 1, 0, addrAll, toLE 2 0x7C01 ++ toLE 2 9 ++ [2, 0, 0, 0] ++ [0, 0, 0, 0, 0, 0, 0, 0] ++ toLE 4 0x3F800000 ++ zeroB 4 ++ [0xFF, 0, 0, 0] ++ zeroB 4 ++ zeroB 32, false, 0, .eof, 0⟩).seq).getD 0, sealFrame ⟨2, 0, false, 1, 0, addrAll, toLE 2 0x7C01 ++ toLE 2 9 ++ [2, 0, 0, 0] ++ [0, 0, 0, 0, 0, 0, 0, 0] ++ toLE 4 0x3F800000 ++ zeroB 4 ++ [0xFF, 0, 0, 0] ++ zeroB 4 ++ zeroB 32, false, 0, .eof, 0⟩, Instr.ringOrderArrive (3) (sealFrame ⟨2, 0, false, 1, 0, addrAll, toLE 2 0x7C01 ++ toLE 2 9 ++ [2, 0, 0, 0] ++ [0, 0, 0, 0, 0, 0, 0, 0] ++ toLE 4 0x3F800000 ++ zeroB 4 ++ [0xFF, 0, 0, 0] ++ zeroB 4 ++ zeroB 32, false, 0, .eof, 0⟩), by decide +kernel⟩

/-- Meets the hypotheses of clauses of Obligations.YieldAndTransfer. -/
theorem witness_YieldAndTransfer_a :
    (∃ (s : State) (o : Origin) (v : Nat), s.mayWrite o RED.YIELD.SEQ.addr = true ∧ v < 2 ^ 16 ∧ s.redState = rsPrimary ∧ s.flag RED.STAT.PSERVE = true ∧ s.tick + 16 ≤ namedTick s.tick v) ∧
    (∃ (s : State) (o : Origin) (v : Nat), s.mayWrite o RED.YIELD.SEQ.addr = true ∧ v < 2 ^ 16 ∧ (s.redState ≠ rsPrimary ∨ s.flag RED.STAT.PSERVE = false ∨ namedTick s.tick v < s.tick + 16)) ∧
    (∃ (s : State), s.redRuns = true ∧ s.redState = rsPrimary ∧ s.flag RED.YIELD.ARMED = true ∧ s.red.yieldTick ≤ s.tickAt s.offO) ∧
    (∃ (s : State) (j : _), s.redRuns = true ∧ s.redState = rsStandby ∧ s.red.partYield = some j ∧ j ≤ s.tickAt s.offO ∧ s.isHub = true ∧ s.noReset srcRED) :=
  ⟨⟨put (device 1) [(RED.STAT.STATE, 1), (RED.STAT.PSERVE, 1)], vendor, 16, by decide +kernel⟩,
   ⟨put (device 1) [(RED.STAT.STATE, 1), (RED.STAT.PSERVE, 1)], vendor, 15, by decide +kernel⟩,
   ⟨put (device 1) [(RED.STAT.STATE, 1), (RED.YIELD.ARMED, 1), (RED.STAT.DIGCNT, 0)], by decide +kernel⟩,
   ⟨(let d := put (device 1) [(RED.STAT.STATE, 2), (RED.STAT.DIGCNT, 0)]; { d with red := { d.red with partYield := some 0 } }), 0, by decide +kernel⟩⟩

/-- Meets the hypotheses of clauses of Obligations.YieldAndTransfer. -/
theorem witness_YieldAndTransfer_b :
    (∃ (s : State) (o : Origin) (v : Nat), s.mayWrite o RED.CMD.JOIN.addr = true ∧ v < 2 ^ 32) ∧
    (∃ (s : State) (n : Nat) (f : Frame), ∃ got : State, s.notes n f opXfer .group = some got ∧ (let m := got; m.redRuns = true ∧ (txnOf n f).src = m.partner ∧ m.redState ≠ rsJoining)) ∧
    (∃ (s : State) (n : Nat) (f : Frame), ∃ got : State, s.notes n f opXfer .group = some got ∧ (let m := got; m.redRuns = true ∧ (txnOf n f).src = m.partner ∧ m.redState = rsJoining ∧ m.red.joinAsked = true ∧ m.flag RED.JOINSTAT.SCRDONE = false)) ∧
    (∃ (s : State) (c : Nat), s.redState = rsJoining ∧ s.red.joinAsked = true ∧ SMap.get false s.red.admitted c = false ∧ 1024 ≤ SMap.get 0 s.red.tries c ∧ s.recordsOnly (srcRED 4) = true) :=
  ⟨⟨put (device 1) [(RED.STAT.STATE, 3)], vendor, 1, by decide +kernel⟩,
   ⟨put (device 1) [(RED.STAT.STATE, 2)], 14, mgmt 0x7C00 0x7C01 (txn opXfer 0 (zeroB 8)), found (by decide +kernel)⟩,
   ⟨(let d := put (device 1) [(RED.STAT.STATE, 3)]; { d with red := { d.red with joinAsked := true, admitted := [(5, true)] } }), 14, mgmt 0x7C00 0x7C01 (txn opXfer 0 (zeroB 8)), found (by decide +kernel)⟩,
   ⟨(let d := put (device 1) [(RED.STAT.STATE, 3), (RED.JOINSTAT.TRIES, 0)]; { d with red := { d.red with joinAsked := true, tries := [(7, 1024)] } }), 7, by decide +kernel⟩⟩

/-- Meets the hypotheses of clauses of Obligations.YieldAndTransfer. -/
theorem witness_YieldAndTransfer_c :
    (∃ (s : State) (n : Nat) (f : Frame), ∃ got : Nat × State, s.executes n f opJquery groupNeed (bodyLen 8) = some got ∧ (let i := got.1; let m := got.2; let t := txnOf n f; let found := m.jLook (t.at 0 2) (byteAt t.body 2) (t.at 4 4); found = none)) ∧
    (∃ (s : State) (n : Nat) (f : Frame) (j : _), ∃ got : Nat × State, s.executes n f opJquery groupNeed (bodyLen 8) = some got ∧ (let i := got.1; let m := got.2; let t := txnOf n f; let found := m.jLook (t.at 0 2) (byteAt t.body 2) (t.at 4 4); found = some j ∧ 0 < (m.jReply j).length ∧ (m.jReply j).length ≤ 456)) :=
  ⟨⟨device 1, 14, mgmt 0x7C00 addrHost (txn opJquery 4 (toLE 2 0x7F00 ++ [0xFF, 0] ++ toLE 4 9)), found (by decide +kernel)⟩,
   ⟨(let d := device 1; let t : Txn := txnOf 0 (mgmt 0x7C00 addrHost (toLE 1 2 ++ [0, 0xFF, 0] ++ toLE 4 9 ++ toLE 2 0 ++ zeroB 22)); let r := (d.jNew t 0).getD (0, d); r.2.jDone r.1 (zeroB 32 ++ [1, 2, 3])), 14, mgmt 0x7C00 addrHost (txn opJquery 4 (toLE 2 0x7F00 ++ [0xFF, 0] ++ toLE 4 9)), 0, found (by decide +kernel)⟩⟩

/-- Meets the hypotheses of clauses of Obligations.FusesAndKeys. -/
theorem witness_FusesAndKeys_a :
    (∃ (s : State) (o : Origin) (v : Nat), s.mayWrite o FUSE.PROGCMD.GO.addr = true ∧ v < 2 ^ 32 ∧ s.log.queue.length < queuePlaces o) ∧
    (∃ (s : State) (w : Nat) (mask : Word), s.fuse.job = some (w, mask) ∧ s.recordsOnly (srcFUSE 1) = true) ∧
    (∃ (s : State) (n : Nat) (f : Frame), ∃ got : Nat × State, s.executes n f opKeyinst (permNeed 64) (bodyLen 33) = some got ∧ (let i := got.1; let m := got.2; m.log.queue.length < 11 ∧ let t := txnOf n f; let which := byteAt t.body 0; let key := xorBytes (sliceB t.body 1 32) (hmac256 (m.sessKey t.sess) ([0x04] ++ toLE 4 t.ctr)); let good := which ≤ 1 ∧ t.inSession = true ∧ sha256 key = (if which = 0 then m.rstHash else m.grpHash); good)) ∧
    (∃ (s : State) (n : Nat) (f : Frame), ∃ got : Nat × State, s.executes n f opKeyinst (permNeed 64) (bodyLen 33) = some got ∧ (let i := got.1; let m := got.2; m.log.queue.length < 11 ∧ let t := txnOf n f; let which := byteAt t.body 0; let key := xorBytes (sliceB t.body 1 32) (hmac256 (m.sessKey t.sess) ([0x04] ++ toLE 4 t.ctr)); let good := which ≤ 1 ∧ t.inSession = true ∧ sha256 key = (if which = 0 then m.rstHash else m.grpHash); ¬ good)) :=
  ⟨⟨put (withSession (device 0)) [(PWR.STAT.STATE, 1), (FUSE.PROGADDR.WORD, 9), (FUSE.PROGDATA.MASK, 5)], ⟨7, 0, 0, 0⟩, 1, by decide +kernel⟩,
   ⟨(let d := put (device 0) [(FUSE.PROGCMD.BUSY, 1)]; { d with fuse := { d.fuse with job := some (9, 5) } }), 9, 5, by decide +kernel⟩,
   ⟨(let d := withSession (device 0); { d with cnv := { d.cnv with security := sha256 (List.replicate 32 7) ++ sha256 (List.replicate 32 9) ++ zeroB 160 } }), 0, tagged 5 opKeyinst 0x9131bc7f7c25ab41af44598876ddd9ca ([0] ++ xorBytes (List.replicate 32 7) (hmac256 (zeroB 32) ([0x04] ++ toLE 4 1))), found (by decide +kernel)⟩,
   ⟨(let d := withSession (device 0); { d with cnv := { d.cnv with security := sha256 (List.replicate 32 7) ++ sha256 (List.replicate 32 9) ++ zeroB 160 } }), 0, tagged 5 opKeyinst 0xc42abeae91f3a5d99471460f4f75daba ([1] ++ xorBytes (List.replicate 32 7) (hmac256 (zeroB 32) ([0x04] ++ toLE 4 1))), found (by decide +kernel)⟩⟩

/-- Meets the hypotheses of clauses of Obligations.FusesAndKeys. -/
theorem witness_FusesAndKeys_b :
    (∃ (s : State) (n : Nat) (f : Frame), ∃ got : Nat × State, s.executes n f opAttest freeNeed (bodyLen 32) = some got ∧ (let i := got.1; let m := got.2; let busy := m.sec.quote.isSome || m.sec.rngBad || (m.sec.quoteTick.map (fun k => decide (m.tick < k + 1024))).getD false; busy = true ∧ m.recordsOnly (srcMGT 0) = true)) ∧
    (∃ (s : State) (n : Nat) (f : Frame), ∃ got : Nat × State, s.executes n f opAttest freeNeed (bodyLen 32) = some got ∧ (let i := got.1; let m := got.2; let busy := m.sec.quote.isSome || m.sec.rngBad || (m.sec.quoteTick.map (fun k => decide (m.tick < k + 1024))).getD false; busy = false)) ∧
    (∃ (s : State) (q : QuoteSt), s.sec.quote = some q ∧ q.entry < 256 ∧ s.log.queue.length < 12) ∧
    (∃ (s : State), s.recordsOnly (srcSEC 4) = true ∧ s.recordsOnly (srcSEC 2) = true ∧ s.sec.shakes.length + s.log.queue.length ≤ 12) :=
  ⟨⟨(let d := device 0; { d with sec := { d.sec with rngBad := true } }), 0, mgmt (device 0).address addrHost (txn opAttest 0 (zeroB 32)), found (by decide +kernel)⟩,
   ⟨device 0, 0, mgmt (device 0).address addrHost (txn opAttest 0 (zeroB 32)), found (by decide +kernel)⟩,
   ⟨(let d := device 0; { d with sec := { d.sec with quote := some ⟨0, addrHost, zeroB 12, 3, zeroB 32⟩ } }), ⟨0, addrHost, zeroB 12, 3, zeroB 32⟩, by decide +kernel⟩,
   ⟨device 0, by decide +kernel⟩⟩

/-- Meets the hypotheses of clauses of Obligations.Sessions. -/
theorem witness_Sessions_a :
    (∃ (s : State) (n : Nat) (f : Frame), let m := (s.mgmtArrive n f).2; let t := txnOf n f; (s.mgmtArrive n f).1 = true ∧ t.op = opSopen ∧ t.reply = false ∧ t.broadcast = false ∧ m.servesMgmt t = true ∧ m.tagGood t = true ∧ m.jFind t 0 = none ∧ m.ctrFresh t = true ∧ 32 + t.blen = t.pay.length ∧ 145 ≤ t.body.length ∧ m.active = false ∧ m.recordsOnly (srcMGT 2) = true) ∧
    (∃ (s : State) (n : Nat) (f : Frame), ∃ got : Nat × State, s.executes n f opSopen freeNeed (bodyLen 145) = some got ∧ (let i := got.1; let m := got.2; let t := txnOf n f; let opidx := byteAt t.body 144; let fits := opidx < 4 ∧ sha256 (sliceB t.body 64 64) = (m.opKey opidx).1 ∧ (m.opKey opidx).2 ≠ 0 ∧ (pubPoint (sliceB t.body 0 64)).isSome = true; m.active = true ∧ (m.sec.rngBad = true ∨ m.sec.backoff.isSome = true))) ∧
    (∃ (s : State) (n : Nat) (f : Frame), ∃ got : Nat × State, s.executes n f opSopen freeNeed (bodyLen 145) = some got ∧ (let i := got.1; let m := got.2; let t := txnOf n f; let opidx := byteAt t.body 144; let fits := opidx < 4 ∧ sha256 (sliceB t.body 64 64) = (m.opKey opidx).1 ∧ (m.opKey opidx).2 ≠ 0 ∧ (pubPoint (sliceB t.body 0 64)).isSome = true; m.active = true ∧ m.sec.rngBad = false ∧ m.sec.backoff = none ∧ ¬ fits ∧ m.recordsOnly (srcSEC 2) = true ∧ m.log.queue.length < 12)) :=
  ⟨⟨put (device 0) [(CNV.STAT.ACTIVE, 0), (CNV.STAT.BASECAMP, 1)], 0, mgmt (device 0).address addrHost (txn opSopen 0 (pubKey 7 ++ pubKey 5 ++ zeroB 16 ++ [1])), by decide +kernel⟩,
   ⟨(let d := (let d := device 0; { d with cnv := { d.cnv with security := zeroB 100 ++ sha256 (pubKey 5) ++ toLE 4 0x1FF ++ zeroB 100 } }); { d with sec := { d.sec with backoff := some 3 } }), 0, mgmt (device 0).address addrHost (txn opSopen 0 (pubKey 7 ++ pubKey 5 ++ zeroB 16 ++ [1])), found (by decide +kernel)⟩,
   ⟨(let d := device 0; { d with cnv := { d.cnv with security := zeroB 100 ++ sha256 (pubKey 5) ++ toLE 4 0x1FF ++ zeroB 100 } }), 0, mgmt (device 0).address addrHost (txn opSopen 0 (pubKey 7 ++ pubKey 5 ++ zeroB 16 ++ [0])), found (by decide +kernel)⟩⟩

/-- Meets the hypotheses of clauses of Obligations.Sessions. -/
theorem witness_Sessions_b :
    (∃ (s : State) (n : Nat) (f : Frame) (k : _), ∃ got : Nat × State, s.executes n f opSopen freeNeed (bodyLen 145) = some got ∧ (let i := got.1; let m := got.2; let t := txnOf n f; let opidx := byteAt t.body 144; let fits := opidx < 4 ∧ sha256 (sliceB t.body 64 64) = (m.opKey opidx).1 ∧ (m.opKey opidx).2 ≠ 0 ∧ (pubPoint (sliceB t.body 0 64)).isSome = true; m.active = true ∧ m.sec.rngBad = false ∧ m.sec.backoff = none ∧ fits ∧ m.freeSess = some k)) ∧
    (∃ (s : State) (n : Nat) (f : Frame), ∃ got : Nat × State, s.executes n f opSconf freeNeed (bodyLen 64) = some got ∧ (let i := got.1; let m := got.2; m.active = true ∧ m.log.queue.length < 12 ∧ let t := txnOf n f; let fails := [MGT.REFUSED.COUNT.addr, SEC.SESSFAILS.COUNT.addr, SEC.STAT.BACKOFF.addr, (srcSEC 2).stat.addr, (srcSEC 2).live.addr, LOG.STAT.QUEUE.addr]; m.shakeOf t = none ∧ m.recordsOnly (srcSEC 2) = true)) :=
  ⟨⟨(let d := device 0; { d with cnv := { d.cnv with security := zeroB 100 ++ sha256 (pubKey 5) ++ toLE 4 0x1FF ++ zeroB 100 } }), 0, mgmt (device 0).address addrHost (txn opSopen 0 (pubKey 7 ++ pubKey 5 ++ zeroB 16 ++ [1])), 0, found (by decide +kernel)⟩,
   ⟨(let d := device 0; { d with cnv := { d.cnv with security := zeroB 100 ++ sha256 (pubKey 5) ++ toLE 4 0x1FF ++ zeroB 100 } }), 0, mgmt (device 0).address addrHost (txn opSconf 0 (zeroB 64)), found (by decide +kernel)⟩⟩

/-- Meets the hypotheses of clauses of Obligations.Sessions. -/
theorem witness_Sessions_c : ∃ (s : State) (n : Nat) (f : Frame) (h : ShakeSt), ∃ got : Nat × State, s.executes n f opSconf freeNeed (bodyLen 64) = some got ∧ (let i := got.1; let m := got.2; m.active = true ∧ m.log.queue.length < 12 ∧ let t := txnOf n f; let fails := [MGT.REFUSED.COUNT.addr, SEC.SESSFAILS.COUNT.addr, SEC.STAT.BACKOFF.addr, (srcSEC 2).stat.addr, (srcSEC 2).live.addr, LOG.STAT.QUEUE.addr]; m.shakeOf t = some h ∧ h.sess < 8 ∧ t.inSession = false ∧ let msg := [0x02] ++ m.serial ++ h.qd ++ h.qh ++ h.nd ++ h.nh ++ toLE 2 m.address; let good := ecdsaVerify h.qo msg (sliceB t.body 0 32) (sliceB t.body 32 32) && decide (m.tick ≤ h.tick + 2 ^ 18); good = false ∧ m.recordsOnly (srcSEC 2) = true) :=
  ⟨(let d := (let d := device 0; { d with cnv := { d.cnv with security := zeroB 100 ++ sha256 (pubKey 5) ++ toLE 4 0x1FF ++ zeroB 100 } }); { d with sec := { d.sec with shakes := [⟨addrHost, 0, 1, pubKey 7, pubKey 5, zeroB 16, zeroB 16, pubKey 9, 9, 2, 0⟩] } }), 0, mgmt (device 0).address addrHost (txn opSconf 0 (zeroB 64)), (((let d := (let d := device 0; { d with cnv := { d.cnv with security := zeroB 100 ++ sha256 (pubKey 5) ++ toLE 4 0x1FF ++ zeroB 100 } }); { d with sec := { d.sec with shakes := [⟨addrHost, 0, 1, pubKey 7, pubKey 5, zeroB 16, zeroB 16, pubKey 9, 9, 2, 0⟩] } })).sec.shakes.find? (fun _ => true)).getD ⟨0, 0, 1, [], [], [], [], [], 9, 2, 0⟩, found (by decide +kernel)⟩

/-- Meets the hypotheses of clauses of Obligations.Sessions. -/
theorem witness_Sessions_d : ∃ (s : State) (n : Nat) (f : Frame) (h : ShakeSt) (x : _), ∃ got : Nat × State, s.executes n f opSconf freeNeed (bodyLen 64) = some got ∧ (let i := got.1; let m := got.2; m.active = true ∧ m.log.queue.length < 12 ∧ let t := txnOf n f; let fails := [MGT.REFUSED.COUNT.addr, SEC.SESSFAILS.COUNT.addr, SEC.STAT.BACKOFF.addr, (srcSEC 2).stat.addr, (srcSEC 2).live.addr, LOG.STAT.QUEUE.addr]; m.shakeOf t = some h ∧ h.sess < 8 ∧ t.inSession = false ∧ let msg := [0x02] ++ m.serial ++ h.qd ++ h.qh ++ h.nd ++ h.nh ++ toLE 2 m.address; let good := ecdsaVerify h.qo msg (sliceB t.body 0 32) (sliceB t.body 32 32) && decide (m.tick ≤ h.tick + 2 ^ 18); good = true ∧ ecdh h.priv h.qh = some x) :=
  ⟨(let d := (let d := device 0; { d with cnv := { d.cnv with security := zeroB 100 ++ sha256 (pubKey 5) ++ toLE 4 0x1FF ++ zeroB 100 } }); { d with sec := { d.sec with shakes := [⟨addrHost, 0, 1, pubKey 7, pubKey 5, zeroB 16, zeroB 16, pubKey 9, 9, 2, 0⟩] } }), 0, mgmt (device 0).address addrHost (txn opSconf 0 ((ecdsaSign 5 3 ([0x02] ++ (device 0).serial ++ pubKey 9 ++ pubKey 7 ++ zeroB 32 ++ toLE 2 5)).1 ++ (ecdsaSign 5 3 ([0x02] ++ (device 0).serial ++ pubKey 9 ++ pubKey 7 ++ zeroB 32 ++ toLE 2 5)).2)), (((let d := (let d := device 0; { d with cnv := { d.cnv with security := zeroB 100 ++ sha256 (pubKey 5) ++ toLE 4 0x1FF ++ zeroB 100 } }); { d with sec := { d.sec with shakes := [⟨addrHost, 0, 1, pubKey 7, pubKey 5, zeroB 16, zeroB 16, pubKey 9, 9, 2, 0⟩] } })).sec.shakes.find? (fun _ => true)).getD ⟨0, 0, 1, [], [], [], [], [], 9, 2, 0⟩, ((ecdh ((((let d := (let d := device 0; { d with cnv := { d.cnv with security := zeroB 100 ++ sha256 (pubKey 5) ++ toLE 4 0x1FF ++ zeroB 100 } }); { d with sec := { d.sec with shakes := [⟨addrHost, 0, 1, pubKey 7, pubKey 5, zeroB 16, zeroB 16, pubKey 9, 9, 2, 0⟩] } })).sec.shakes.find? (fun _ => true)).getD ⟨0, 0, 1, [], [], [], [], [], 9, 2, 0⟩).priv ((((let d := (let d := device 0; { d with cnv := { d.cnv with security := zeroB 100 ++ sha256 (pubKey 5) ++ toLE 4 0x1FF ++ zeroB 100 } }); { d with sec := { d.sec with shakes := [⟨addrHost, 0, 1, pubKey 7, pubKey 5, zeroB 16, zeroB 16, pubKey 9, 9, 2, 0⟩] } })).sec.shakes.find? (fun _ => true)).getD ⟨0, 0, 1, [], [], [], [], [], 9, 2, 0⟩).qh).getD []), found (by decide +kernel)⟩

/-- Meets the hypotheses of clauses of Obligations.Sessions. -/
theorem witness_Sessions_e :
    (∃ (s : State) (n : Nat) (h : ShakeSt), (s.sec.shakes.find? (fun x => x.sess == n) = some h) ∧ s.tick ≤ h.tick + 2 ^ 18) ∧
    (∃ (s : State) (n : Nat) (h : ShakeSt), (s.sec.shakes.find? (fun x => x.sess == n) = some h) ∧ h.tick + 2 ^ 18 < s.tick ∧ s.recordsOnly (srcSEC 2) = true ∧ s.log.queue.length < 12) ∧
    (∃ (s : State) (k : Nat), s.sec.backoff = some k ∧ s.tick < k + 2 ^ 20) ∧
    (∃ (s : State) (k : Nat), s.sec.backoff = some k ∧ k + 2 ^ 20 ≤ s.tick) :=
  ⟨⟨(let d := device 0; { d with sec := { d.sec with shakes := [⟨addrHost, 0, 1, pubKey 7, pubKey 5, zeroB 16, zeroB 16, pubKey 9, 9, 2, 0⟩] } }), 2, ⟨addrHost, 0, 1, pubKey 7, pubKey 5, zeroB 16, zeroB 16, pubKey 9, 9, 2, 0⟩, by decide +kernel⟩,
   ⟨(let d := device 0; { d with sec := { d.sec with shakes := [⟨addrHost, 0, 1, pubKey 7, pubKey 5, zeroB 16, zeroB 16, pubKey 9, 9, 2, 0⟩] }, time := { d.time with scale := (2 ^ 18 + 2) * 204800 * 2 ^ 32 } }), 2, ⟨addrHost, 0, 1, pubKey 7, pubKey 5, zeroB 16, zeroB 16, pubKey 9, 9, 2, 0⟩, by decide +kernel⟩,
   ⟨(let d := put (device 0) [(SEC.STAT.BACKOFF, 1)]; { d with sec := { d.sec with backoff := some 0 } }), 0, by decide +kernel⟩,
   ⟨(let d := put (device 0) [(SEC.STAT.BACKOFF, 1)]; { d with sec := { d.sec with backoff := some 0 }, time := { d.time with scale := (2 ^ 20 + 2) * 204800 * 2 ^ 32 } }), 0, by decide +kernel⟩⟩

/-- Meets the hypotheses of clauses of Obligations.Sessions. -/
theorem witness_Sessions_f :
    (∃ (s : State) (n : Nat) (x : SessSt), SMap.get none s.sec.sess n = some x ∧ s.sessOpen n = true ∧ x.last + s.sessIdle ≤ s.tick ∧ s.log.queue.length < 12) ∧
    (∃ (s : State) (n : Nat) (f : Frame), ∃ got : Nat × State, s.executes n f opSclose (permNeed 0) (bodyLen 1) = some got ∧ (let i := got.1; let m := got.2; let k := byteAt (txnOf n f).body 0; m.sessOpen k = false)) ∧
    (∃ (s : State) (n : Nat) (f : Frame), ∃ got : Nat × State, s.executes n f opSclose (permNeed 0) (bodyLen 1) = some got ∧ (let i := got.1; let m := got.2; let k := byteAt (txnOf n f).body 0; m.sessOpen k = true ∧ m.log.queue.length < 12)) :=
  ⟨⟨(let d := withSession (let d := device 0; let t : Txn := txnOf 0 (mgmt 0x7C00 addrHost (toLE 1 2 ++ [0, 0, 0] ++ toLE 4 9 ++ toLE 2 0 ++ zeroB 22)); let r := (d.jNew t 0).getD (0, d); r.2.jDone r.1 (zeroB 32 ++ [1, 2, 3])); { d with time := { d.time with scale := (2 ^ 26 + 2) * 204800 * 2 ^ 32 } }), 0, ⟨zeroB 32, 0⟩, by decide +kernel⟩,
   ⟨withSession (device 0), 0, tagged 5 opSclose 0x4e0c177261ee779945cf8b1d6ffcea75 [1], found (by decide +kernel)⟩,
   ⟨withSession (device 0), 0, tagged 5 opSclose 0x6c5f9cd5c5c446ad06db2ca4dfb74023 [0], found (by decide +kernel)⟩⟩

/-- Meets the hypotheses of clauses of Obligations.RemoteAccess. -/
theorem witness_RemoteAccess_a :
    (∃ (s : State) (n : Nat) (f : Frame), (n < 2 ∧ f.ftype = ftMgmt ∧ (s.rxFrame n f).1 = true) ∧ ∃ got : Nat × State, (s.set (LNK.STAT.HOPIN n) f.hop).reaches n f opDiscover (fun _ => .free) (fun t => decide (6 ≤ t.body.length)) = some got ∧ (let i := got.1; let m := got.2; m.isCell = true ∧ isHubAddr (txnOf n f).src = true ∧ let t := txnOf n f; let seg := byteAt t.body 0; let ring := byteAt t.body 1; let len := byteAt t.body 2; let told (addr p : Nat) (u : State) : Prop := u.get SYS.DEVADDR.ADDR = addr ∧ u.get SYS.DEVADDR.POS = p ∧ u.get (LNK.STAT.HOPIN n) = f.hop ∧ u.get SYS.SENIOR.ADDR = t.at 4 2 ∧ u.jState i = (if t.broadcast then 3 else 2) ∧ byteAt (u.jReply i) 3 = stOk ∧ (u.jReply i).drop 32 = u.discoverBody n ∧ ∀ a, replyWrites a = false → a ∉ [SYS.DEVADDR.ADDR.addr, SYS.SENIOR.ADDR.addr] → u.reg a = m.reg a; let place (p : Nat) : State → Prop := told (seg * 2 ^ 10 + ring * 2 ^ 6 + p) p; let same : State → Prop := told (m.get SYS.DEVADDR.ADDR) (m.get SYS.DEVADDR.POS); let apart : State → Prop := told addrUnjoined 0xFF; let member := byteAt t.body 3 % 2; f.hop < 256 ∧ (23 < seg ∨ 11 < ring))) ∧
    (∃ (s : State) (n : Nat) (f : Frame), (n < 2 ∧ f.ftype = ftMgmt ∧ (s.rxFrame n f).1 = true) ∧ ∃ got : Nat × State, (s.set (LNK.STAT.HOPIN n) f.hop).reaches n f opDiscover (fun _ => .free) (fun t => decide (6 ≤ t.body.length)) = some got ∧ (let i := got.1; let m := got.2; m.isCell = true ∧ isHubAddr (txnOf n f).src = true ∧ let t := txnOf n f; let seg := byteAt t.body 0; let ring := byteAt t.body 1; let len := byteAt t.body 2; let told (addr p : Nat) (u : State) : Prop := u.get SYS.DEVADDR.ADDR = addr ∧ u.get SYS.DEVADDR.POS = p ∧ u.get (LNK.STAT.HOPIN n) = f.hop ∧ u.get SYS.SENIOR.ADDR = t.at 4 2 ∧ u.jState i = (if t.broadcast then 3 else 2) ∧ byteAt (u.jReply i) 3 = stOk ∧ (u.jReply i).drop 32 = u.discoverBody n ∧ ∀ a, replyWrites a = false → a ∉ [SYS.DEVADDR.ADDR.addr, SYS.SENIOR.ADDR.addr] → u.reg a = m.reg a; let place (p : Nat) : State → Prop := told (seg * 2 ^ 10 + ring * 2 ^ 6 + p) p; let same : State → Prop := told (m.get SYS.DEVADDR.ADDR) (m.get SYS.DEVADDR.POS); let apart : State → Prop := told addrUnjoined 0xFF; let member := byteAt t.body 3 % 2; f.hop < 256 ∧ seg < 24 ∧ ring < 12 ∧ n = 0 ∧ member = 0 ∧ f.hop < 64)) :=
  ⟨⟨device 0, 0, sealFrame { mgmt addrAll 0x7C00 (txn opDiscover 0 ([24, 3, 20, 0] ++ toLE 2 0x7C00)) with hop := 7 }, by decide +kernel, found (by decide +kernel)⟩,
   ⟨device 0, 0, sealFrame { mgmt addrAll 0x7C00 (txn opDiscover 0 ([0, 3, 20, 0] ++ toLE 2 0x7C00)) with hop := 7 }, by decide +kernel, found (by decide +kernel)⟩⟩

/-- Meets the hypotheses of clauses of Obligations.RemoteAccess. -/
theorem witness_RemoteAccess_b :
    (∃ (s : State) (n : Nat) (f : Frame), (n < 2 ∧ f.ftype = ftMgmt ∧ (s.rxFrame n f).1 = true) ∧ ∃ got : Nat × State, (s.set (LNK.STAT.HOPIN n) f.hop).reaches n f opDiscover (fun _ => .free) (fun t => decide (6 ≤ t.body.length)) = some got ∧ (let i := got.1; let m := got.2; m.isCell = true ∧ isHubAddr (txnOf n f).src = true ∧ let t := txnOf n f; let seg := byteAt t.body 0; let ring := byteAt t.body 1; let len := byteAt t.body 2; let told (addr p : Nat) (u : State) : Prop := u.get SYS.DEVADDR.ADDR = addr ∧ u.get SYS.DEVADDR.POS = p ∧ u.get (LNK.STAT.HOPIN n) = f.hop ∧ u.get SYS.SENIOR.ADDR = t.at 4 2 ∧ u.jState i = (if t.broadcast then 3 else 2) ∧ byteAt (u.jReply i) 3 = stOk ∧ (u.jReply i).drop 32 = u.discoverBody n ∧ ∀ a, replyWrites a = false → a ∉ [SYS.DEVADDR.ADDR.addr, SYS.SENIOR.ADDR.addr] → u.reg a = m.reg a; let place (p : Nat) : State → Prop := told (seg * 2 ^ 10 + ring * 2 ^ 6 + p) p; let same : State → Prop := told (m.get SYS.DEVADDR.ADDR) (m.get SYS.DEVADDR.POS); let apart : State → Prop := told addrUnjoined 0xFF; let member := byteAt t.body 3 % 2; f.hop < 256 ∧ seg < 24 ∧ ring < 12 ∧ n = 0 ∧ member = 0 ∧ 64 ≤ f.hop)) ∧
    (∃ (s : State) (n : Nat) (f : Frame), (n < 2 ∧ f.ftype = ftMgmt ∧ (s.rxFrame n f).1 = true) ∧ ∃ got : Nat × State, (s.set (LNK.STAT.HOPIN n) f.hop).reaches n f opDiscover (fun _ => .free) (fun t => decide (6 ≤ t.body.length)) = some got ∧ (let i := got.1; let m := got.2; m.isCell = true ∧ isHubAddr (txnOf n f).src = true ∧ let t := txnOf n f; let seg := byteAt t.body 0; let ring := byteAt t.body 1; let len := byteAt t.body 2; let told (addr p : Nat) (u : State) : Prop := u.get SYS.DEVADDR.ADDR = addr ∧ u.get SYS.DEVADDR.POS = p ∧ u.get (LNK.STAT.HOPIN n) = f.hop ∧ u.get SYS.SENIOR.ADDR = t.at 4 2 ∧ u.jState i = (if t.broadcast then 3 else 2) ∧ byteAt (u.jReply i) 3 = stOk ∧ (u.jReply i).drop 32 = u.discoverBody n ∧ ∀ a, replyWrites a = false → a ∉ [SYS.DEVADDR.ADDR.addr, SYS.SENIOR.ADDR.addr] → u.reg a = m.reg a; let place (p : Nat) : State → Prop := told (seg * 2 ^ 10 + ring * 2 ^ 6 + p) p; let same : State → Prop := told (m.get SYS.DEVADDR.ADDR) (m.get SYS.DEVADDR.POS); let apart : State → Prop := told addrUnjoined 0xFF; let member := byteAt t.body 3 % 2; f.hop < 256 ∧ seg < 24 ∧ ring < 12 ∧ n = 1 ∧ member = 0)) :=
  ⟨⟨device 0, 0, sealFrame { mgmt addrAll 0x7C00 (txn opDiscover 0 ([23, 11, 20, 0] ++ toLE 2 0x7C00)) with hop := 64 }, by decide +kernel, found (by decide +kernel)⟩,
   ⟨device 0, 1, sealFrame { mgmt addrAll 0x7C00 (txn opDiscover 0 ([2, 3, 20, 0] ++ toLE 2 0x7C00)) with hop := 7 }, by decide +kernel, found (by decide +kernel)⟩⟩

/-- Meets the hypotheses of clauses of Obligations.RemoteAccess. -/
theorem witness_RemoteAccess_c : ∃ (s : State) (n : Nat) (f : Frame), (n < 2 ∧ f.ftype = ftMgmt ∧ (s.rxFrame n f).1 = true) ∧ ∃ got : Nat × State, (s.set (LNK.STAT.HOPIN n) f.hop).reaches n f opDiscover (fun _ => .free) (fun t => decide (6 ≤ t.body.length)) = some got ∧ (let i := got.1; let m := got.2; m.isCell = true ∧ isHubAddr (txnOf n f).src = true ∧ let t := txnOf n f; let seg := byteAt t.body 0; let ring := byteAt t.body 1; let len := byteAt t.body 2; let told (addr p : Nat) (u : State) : Prop := u.get SYS.DEVADDR.ADDR = addr ∧ u.get SYS.DEVADDR.POS = p ∧ u.get (LNK.STAT.HOPIN n) = f.hop ∧ u.get SYS.SENIOR.ADDR = t.at 4 2 ∧ u.jState i = (if t.broadcast then 3 else 2) ∧ byteAt (u.jReply i) 3 = stOk ∧ (u.jReply i).drop 32 = u.discoverBody n ∧ ∀ a, replyWrites a = false → a ∉ [SYS.DEVADDR.ADDR.addr, SYS.SENIOR.ADDR.addr] → u.reg a = m.reg a; let place (p : Nat) : State → Prop := told (seg * 2 ^ 10 + ring * 2 ^ 6 + p) p; let same : State → Prop := told (m.get SYS.DEVADDR.ADDR) (m.get SYS.DEVADDR.POS); let apart : State → Prop := told addrUnjoined 0xFF; let member := byteAt t.body 3 % 2; f.hop < 256 ∧ seg < 24 ∧ ring < 12 ∧ n = 0 ∧ member = 1) :=
  ⟨device 0, 0, sealFrame { mgmt addrAll 0x7C00 (txn opDiscover 0 ([2, 3, 20, 1] ++ toLE 2 0x7C00)) with hop := 7 }, by decide +kernel, found (by decide +kernel)⟩

/-- Meets the hypotheses of clauses of Obligations.RemoteAccess. -/
theorem witness_RemoteAccess_d : ∃ (s : State) (n : Nat) (f : Frame), (n < 2 ∧ f.ftype = ftMgmt ∧ (s.rxFrame n f).1 = true) ∧ ∃ got : Nat × State, (s.set (LNK.STAT.HOPIN n) f.hop).reaches n f opDiscover (fun _ => .free) (fun t => decide (6 ≤ t.body.length)) = some got ∧ (let i := got.1; let m := got.2; m.isCell = true ∧ isHubAddr (txnOf n f).src = true ∧ let t := txnOf n f; let seg := byteAt t.body 0; let ring := byteAt t.body 1; let len := byteAt t.body 2; let told (addr p : Nat) (u : State) : Prop := u.get SYS.DEVADDR.ADDR = addr ∧ u.get SYS.DEVADDR.POS = p ∧ u.get (LNK.STAT.HOPIN n) = f.hop ∧ u.get SYS.SENIOR.ADDR = t.at 4 2 ∧ u.jState i = (if t.broadcast then 3 else 2) ∧ byteAt (u.jReply i) 3 = stOk ∧ (u.jReply i).drop 32 = u.discoverBody n ∧ ∀ a, replyWrites a = false → a ∉ [SYS.DEVADDR.ADDR.addr, SYS.SENIOR.ADDR.addr] → u.reg a = m.reg a; let place (p : Nat) : State → Prop := told (seg * 2 ^ 10 + ring * 2 ^ 6 + p) p; let same : State → Prop := told (m.get SYS.DEVADDR.ADDR) (m.get SYS.DEVADDR.POS); let apart : State → Prop := told addrUnjoined 0xFF; let member := byteAt t.body 3 % 2; f.hop < 256 ∧ seg < 24 ∧ ring < 12 ∧ n = 1 ∧ member = 1 ∧ m.lately m.link.fromA = false ∧ f.hop + 1 ≤ len ∧ len ≤ 64) :=
  ⟨device 0, 1, sealFrame { mgmt addrAll 0x7C00 (txn opDiscover 0 ([23, 11, 20, 1] ++ toLE 2 0x7C00)) with hop := 19 }, by decide +kernel, found (by decide +kernel)⟩

/-- Meets the hypotheses of clauses of Obligations.RemoteAccess. -/
theorem witness_RemoteAccess_e :
    (∃ (s : State) (n : Nat) (f : Frame), (n < 2 ∧ f.ftype = ftMgmt ∧ (s.rxFrame n f).1 = true) ∧ ∃ got : Nat × State, (s.set (LNK.STAT.HOPIN n) f.hop).reaches n f opDiscover (fun _ => .free) (fun t => decide (6 ≤ t.body.length)) = some got ∧ (let i := got.1; let m := got.2; m.isCell = true ∧ isHubAddr (txnOf n f).src = true ∧ let t := txnOf n f; let seg := byteAt t.body 0; let ring := byteAt t.body 1; let len := byteAt t.body 2; let told (addr p : Nat) (u : State) : Prop := u.get SYS.DEVADDR.ADDR = addr ∧ u.get SYS.DEVADDR.POS = p ∧ u.get (LNK.STAT.HOPIN n) = f.hop ∧ u.get SYS.SENIOR.ADDR = t.at 4 2 ∧ u.jState i = (if t.broadcast then 3 else 2) ∧ byteAt (u.jReply i) 3 = stOk ∧ (u.jReply i).drop 32 = u.discoverBody n ∧ ∀ a, replyWrites a = false → a ∉ [SYS.DEVADDR.ADDR.addr, SYS.SENIOR.ADDR.addr] → u.reg a = m.reg a; let place (p : Nat) : State → Prop := told (seg * 2 ^ 10 + ring * 2 ^ 6 + p) p; let same : State → Prop := told (m.get SYS.DEVADDR.ADDR) (m.get SYS.DEVADDR.POS); let apart : State → Prop := told addrUnjoined 0xFF; let member := byteAt t.body 3 % 2; f.hop < 256 ∧ seg < 24 ∧ ring < 12 ∧ n = 1 ∧ member = 1 ∧ (m.lately m.link.fromA = true ∨ len < f.hop + 1 ∨ 64 < len))) ∧
    (∃ (s : State) (n : Nat) (f : Frame), ∃ got : Nat × State, s.executes n f opRead readNeed readLen = some got ∧ (let i := got.1; let m := got.2; let t := txnOf n f; let a := t.at 0 4; let bytes := t.at 4 2 * (wordBits a / 8); let r := m.readWords (m.remoteOrigin t) a (wordBits a) (t.at 4 2); a < 0x20300000 ∧ 0x20280000 < a + bytes)) ∧
    (∃ (s : State) (n : Nat) (f : Frame), ∃ got : Nat × State, s.executes n f opRead readNeed readLen = some got ∧ (let i := got.1; let m := got.2; let t := txnOf n f; let a := t.at 0 4; let bytes := t.at 4 2 * (wordBits a / 8); let r := m.readWords (m.remoteOrigin t) a (wordBits a) (t.at 4 2); (0x20300000 ≤ a ∨ a + bytes ≤ 0x20280000) ∧ r.2.2.replyLane t < 16)) :=
  ⟨⟨device 0, 1, sealFrame { mgmt addrAll 0x7C00 (txn opDiscover 0 ([23, 11, 20, 1] ++ toLE 2 0x7C00)) with hop := 20 }, by decide +kernel, found (by decide +kernel)⟩,
   ⟨put (device 0) [(CNV.STAT.ACTIVE, 0), (CNV.STAT.BASECAMP, 1)], 0, mgmt (device 0).address addrHost (txn opRead 0 (toLE 4 0x20280000 ++ toLE 2 4)), found (by decide +kernel)⟩,
   ⟨put (device 0) [(CNV.STAT.ACTIVE, 0), (CNV.STAT.BASECAMP, 1)], 0, mgmt (device 0).address addrHost (txn opRead 0 (toLE 4 0x2027FFF8 ++ toLE 2 1)), found (by decide +kernel)⟩⟩

/-- Meets the hypotheses of clauses of Obligations.RemoteAccess. -/
theorem witness_RemoteAccess_f :
    (∃ (s : State) (n : Nat) (f : Frame), ∃ got : Nat × State, s.executes n f opWrite writeNeed writeLen = some got ∧ (let i := got.1; let m := got.2; let t := txnOf n f; let a := t.at 0 4; let r := m.writeWords (m.remoteOrigin t) a (wordBits a) (t.body.drop 8) (t.at 4 2); let direct := (List.range (t.at 4 2)).any (fun j => m.hostinDirect (a + j * (wordBits a / 8))); direct = true)) ∧
    (∃ (s : State) (n : Nat) (f : Frame), ∃ got : Nat × State, s.executes n f opWrite writeNeed writeLen = some got ∧ (let i := got.1; let m := got.2; let t := txnOf n f; let a := t.at 0 4; let r := m.writeWords (m.remoteOrigin t) a (wordBits a) (t.body.drop 8) (t.at 4 2); let direct := (List.range (t.at 4 2)).any (fun j => m.hostinDirect (a + j * (wordBits a / 8))); direct = false ∧ r.2.replyLane t < 16)) ∧
    (∃ (s : State) (n : Nat) (f : Frame), ∃ got : Nat × State, s.executes n f opTwrite twriteNeed (bodyLen 16) = some got ∧ (let i := got.1; let m := got.2; let t := txnOf n f; (namedTick m.tick (t.at 0 2) < m.tick + 16 ∨ m.flag TB.STAT.ALIGNED = false ∨ m.sumRegs (t.at 4 4) = true))) :=
  ⟨⟨withSession (device 1), 14, tagged 0x7C00 opWrite 0xa3eac810eee6d635f3e94b8a329c10b6 (toLE 4 (LPE.HOSTIN.VALUE 3).addr ++ toLE 2 1 ++ [0, 0] ++ zeroB 4), found (by decide +kernel)⟩,
   ⟨withSession (device 0), 0, tagged 5 opWrite 0x29800811657f362f4c7635699fd7e48c (toLE 4 0x20000000 ++ toLE 2 3 ++ [0, 0] ++ List.replicate (8 * 3) 1), found (by decide +kernel)⟩,
   ⟨withSession (device 0), 0, tagged 5 opTwrite 0xe7d72406c913432935188d291950b29e (toLE 2 15 ++ [0, 0] ++ toLE 4 PIN.GPIOSET.SET.addr ++ toLE 4 3 ++ toLE 4 3), found (by decide +kernel)⟩⟩

/-- Meets the hypotheses of clauses of Obligations.RemoteAccess. -/
theorem witness_RemoteAccess_g :
    (∃ (s : State) (n : Nat) (f : Frame) (k : _), ∃ got : Nat × State, s.executes n f opTwrite twriteNeed (bodyLen 16) = some got ∧ (let i := got.1; let m := got.2; let t := txnOf n f; namedTick m.tick (t.at 0 2) = k ∧ m.tick + 16 ≤ k ∧ m.flag TB.STAT.ALIGNED = true ∧ m.sumRegs (t.at 4 4) = false ∧ 16 ≤ m.mgt.timed.length ∧ m.recordsOnly (srcMGT 0) = true)) ∧
    (∃ (s : State) (n : Nat) (f : Frame) (k : _), ∃ got : Nat × State, s.executes n f opTwrite twriteNeed (bodyLen 16) = some got ∧ (let i := got.1; let m := got.2; let t := txnOf n f; namedTick m.tick (t.at 0 2) = k ∧ m.tick + 16 ≤ k ∧ m.flag TB.STAT.ALIGNED = true ∧ m.sumRegs (t.at 4 4) = false ∧ m.mgt.timed.length < 16)) ∧
    (∃ (s : State) (o : Origin) (v : Nat), s.mayWrite o MGT.TWSEQ.ARM.addr = true ∧ v < 2 ^ 16) :=
  ⟨⟨(let d := withSession (device 0); { d with mgt := { d.mgt with timed := List.replicate 16 ⟨9, 0x40000000, 1, 1, vendor⟩ } }), 0, tagged 5 opTwrite 0x3ed9a14ca33dde6d98f31359c6ea63b9 (toLE 2 20 ++ [0, 0] ++ toLE 4 PIN.GPIOSET.SET.addr ++ toLE 4 3 ++ toLE 4 3), namedTick (((((let d := withSession (device 0); { d with mgt := { d.mgt with timed := List.replicate 16 ⟨9, 0x40000000, 1, 1, vendor⟩ } })).executes (0) (tagged 5 opTwrite 0x3ed9a14ca33dde6d98f31359c6ea63b9 (toLE 2 20 ++ [0, 0] ++ toLE 4 PIN.GPIOSET.SET.addr ++ toLE 4 3 ++ toLE 4 3)) opTwrite twriteNeed (bodyLen 16)).getD (0, ((let d := withSession (device 0); { d with mgt := { d.mgt with timed := List.replicate 16 ⟨9, 0x40000000, 1, 1, vendor⟩ } })))).2).tick ((txnOf (0) (tagged 5 opTwrite 0x3ed9a14ca33dde6d98f31359c6ea63b9 (toLE 2 20 ++ [0, 0] ++ toLE 4 PIN.GPIOSET.SET.addr ++ toLE 4 3 ++ toLE 4 3))).at 0 2), found (by decide +kernel)⟩,
   ⟨withSession (device 0), 0, tagged 5 opTwrite 0x3ed9a14ca33dde6d98f31359c6ea63b9 (toLE 2 20 ++ [0, 0] ++ toLE 4 PIN.GPIOSET.SET.addr ++ toLE 4 3 ++ toLE 4 3), namedTick ((((withSession (device 0)).executes (0) (tagged 5 opTwrite 0x3ed9a14ca33dde6d98f31359c6ea63b9 (toLE 2 20 ++ [0, 0] ++ toLE 4 PIN.GPIOSET.SET.addr ++ toLE 4 3 ++ toLE 4 3)) opTwrite twriteNeed (bodyLen 16)).getD (0, (withSession (device 0)))).2).tick ((txnOf (0) (tagged 5 opTwrite 0x3ed9a14ca33dde6d98f31359c6ea63b9 (toLE 2 20 ++ [0, 0] ++ toLE 4 PIN.GPIOSET.SET.addr ++ toLE 4 3 ++ toLE 4 3))).at 0 2), found (by decide +kernel)⟩,
   ⟨put (device 0) [(MGT.TWADDR.ADDR, 0x40000010), (MGT.TWVAL.VALUE, 7), (MGT.TWMASK.MASK, 9)], vendor, 1, by decide +kernel⟩⟩

/-- Meets the hypotheses of clauses of Obligations.RemoteAccess. -/
theorem witness_RemoteAccess_h :
    (∃ (s : State) (x : TimedSt), s.mgt.timed = [x] ∧ s.tick < x.tick) ∧
    (∃ (s : State) (x : TimedSt), s.mgt.timed = [x] ∧ x.tick ≤ s.tick ∧ isWindow x.addr = true ∧ x.addr % 4 = 0 ∧ s.mayWrite x.origin x.addr = true ∧ blockOf x.addr ∈ [bSEC, bADC, bSDM] ∧ fieldsAt x.addr ≠ [] ∧ cntclrOf x.addr = none ∧ hasAccess (fieldsAt x.addr) .rwa = false ∧ criticalReg x.addr = false) ∧
    (∃ (s : State) (n : Nat) (f : Frame), ∃ got : Nat × State, s.executes n f (txnOf n f).op freeNeed (fun _ => true) = some got ∧ (let i := got.1; let m := got.2; listedOps.contains (txnOf n f).op = false ∧ (txnOf n f).op ≠ 0xF0)) ∧
    (∃ (s : State) (n : Nat) (f : Frame), ∃ got : State, s.notes n f opEchorep .free = some got ∧ (let m := got; m.isHub = true ∧ m.runs bSCR = false ∧ (txnOf n f).body.length = 8 ∧ isCellAddr (txnOf n f).src = true ∧ cellSegment (txnOf n f).src = m.segment ∧ (txnOf n f).src ≠ m.partner)) :=
  ⟨⟨(let d := device 0; { d with mgt := { d.mgt with timed := [⟨4, 0x40000000, 0xFFFFFFFF, 0xFF, vendor⟩] } }), ⟨4, 0x40000000, 0xFFFFFFFF, 0xFF, vendor⟩, by decide +kernel⟩,
   ⟨(let d := device 0; { d with mgt := { d.mgt with timed := [⟨0, SEC.STAT.OPEN.addr, 0xFFFFFFFF, 0xFF, vendor⟩] } }), ⟨0, SEC.STAT.OPEN.addr, 0xFFFFFFFF, 0xFF, vendor⟩, by decide +kernel⟩,
   ⟨device 0, 0, mgmt (device 0).address addrHost (txn 0x77 0 ([1, 2])), found (by decide +kernel)⟩,
   ⟨put (device 1) [(CLK.GATE.RUN, 0x7FFBFF)], 3, mgmt 0x7C00 0x00C5 (txn opEchorep 0 (toLE 2 0 ++ [0, 0] ++ toLE 4 1234)), found (by decide +kernel)⟩⟩

/-- Meets the hypotheses of clauses of Obligations.RemoteAccess. -/
theorem witness_RemoteAccess_i :
    (∃ (s : State) (i : Nat), i < 256 ∧ s.jState i = 2 ∧ SMap.get 0 s.mgt.replied i ≠ 0 ∧ SMap.get 0 s.mgt.replied i + 65536 ≤ s.tick + 1) ∧
    (∃ (s : State) (i : Nat), i < 256 ∧ s.jState i = 2 ∧ SMap.get 0 s.mgt.replied i ≠ 0 ∧ s.tick + 1 < SMap.get 0 s.mgt.replied i + 65536) :=
  ⟨⟨(let d := (let d := device 1; let t : Txn := txnOf 0 (mgmt 0x7C00 addrHost (toLE 1 2 ++ [0, 0xFF, 0] ++ toLE 4 9 ++ toLE 2 0 ++ zeroB 22)); let r := (d.jNew t 0).getD (0, d); r.2.jDone r.1 (zeroB 32 ++ [1, 2, 3])); { d with time := { d.time with scale := (2 ^ 17 + 2) * 204800 * 2 ^ 32 } }), 0, by decide +kernel⟩,
   ⟨(let d := device 1; let t : Txn := txnOf 0 (mgmt 0x7C00 addrHost (toLE 1 2 ++ [0, 0xFF, 0] ++ toLE 4 9 ++ toLE 2 0 ++ zeroB 22)); let r := (d.jNew t 0).getD (0, d); r.2.jDone r.1 (zeroB 32 ++ [1, 2, 3])), 0, by decide +kernel⟩⟩

/-- Meets the hypotheses of clauses of Obligations.LogAndRelay. -/
theorem witness_LogAndRelay_a :
    (∃ (s : State) (n : Nat) (f : Frame), ∃ got : Nat × State, s.executes n f opLogdrain (permNeed 128) drainLen = some got ∧ (let i := got.1; let m := got.2; True)) ∧
    (∃ (s : State) (n : Nat) (f : Frame), ∃ got : Nat × State, s.executes n f opLogack (permNeed 128) (bodyLen 8) = some got ∧ (let i := got.1; let m := got.2; let k := (txnOf n f).at 0 8; let regs := [LOG.RDSEQ_LO.SEQ.addr, LOG.RDSEQ_HI.SEQ.addr, LOG.RUNLOST.COUNT.addr, (srcLOG 0).live.addr, LOG.STAT.QUEUE.addr]; m.rdseq ≤ k ∧ k ≤ m.wrseq ∧ m.log.queue.length < 12)) ∧
    (∃ (s : State) (n : Nat) (f : Frame), ∃ got : Nat × State, s.executes n f opLogack (permNeed 128) (bodyLen 8) = some got ∧ (let i := got.1; let m := got.2; let k := (txnOf n f).at 0 8; let regs := [LOG.RDSEQ_LO.SEQ.addr, LOG.RDSEQ_HI.SEQ.addr, LOG.RUNLOST.COUNT.addr, (srcLOG 0).live.addr, LOG.STAT.QUEUE.addr]; (k < m.rdseq ∨ m.wrseq < k) ∧ m.recordsOnly (srcLOG 2) = true)) ∧
    (∃ (s : State) (o : Origin) (v : Nat), s.mayWrite o LOG.ACKSEQ_HI.SEQ.addr = true ∧ v < 2 ^ 32 ∧ s.log.queue.length < queuePlaces o ∧ let h := SMap.get 0 s.sys.held LOG.ACKSEQ_LO.SEQ.addr; let k := (if h = 0 then s.get LOG.ACKSEQ_LO.SEQ else (h - 1) % 2 ^ 32) + 2 ^ 32 * v; s.rdseq ≤ k ∧ k ≤ s.wrseq) :=
  ⟨⟨withSession (put (device 0) [(LOG.WRSEQ_LO.SEQ, 5), (LOG.RDSEQ_LO.SEQ, 2)]), 0, tagged 5 opLogdrain 0x736ea1511729e01d74edace05517d211 (toLE 8 0 ++ toLE 2 3), found (by decide +kernel)⟩,
   ⟨withSession (put (device 0) [(LOG.WRSEQ_LO.SEQ, 5), (LOG.RDSEQ_LO.SEQ, 2), (LOG.RUNLOST.COUNT, 4)]), 0, tagged 5 opLogack 0x201c48888038b1baaa7a332a302f7965 (toLE 8 2), found (by decide +kernel)⟩,
   ⟨withSession (put (device 0) [(LOG.WRSEQ_LO.SEQ, 5), (LOG.RDSEQ_LO.SEQ, 2), (LOG.RUNLOST.COUNT, 4)]), 0, tagged 5 opLogack 0xf61982a09c63c66f0a0421a7cf87bdd6 (toLE 8 1), found (by decide +kernel)⟩,
   ⟨put (device 0) [(LOG.WRSEQ_LO.SEQ, 5), (LOG.RDSEQ_LO.SEQ, 2), (LOG.ACKSEQ_LO.SEQ, 4)], vendor, 0, by decide +kernel⟩⟩

/-- Meets the hypotheses of clauses of Obligations.LogAndRelay. -/
theorem witness_LogAndRelay_b :
    (∃ (s : State), s.log.queue = []) ∧
    (∃ (s : State) (e : _) (q : _), s.log.queue = e :: q ∧ e.length = 24 ∧ s.chainGood = true ∧ s.wrseq < s.rdseq + logEntries ∧ s.wrseq + 1 < 2 ^ 64) ∧
    (∃ (s : State) (e : _) (q : _), s.log.queue = e :: q ∧ e.length = 24 ∧ s.chainGood = true ∧ s.wrseq = s.rdseq + logEntries ∧ s.get LOG.RUNLOST.COUNT % 1024 ≠ 0 ∧ s.wrseq + 1 < 2 ^ 64) ∧
    (∃ (s : State) (n : Nat), s.forwarderOnly = false ∧ s.get SER.CORESTAT.VENDOR ≠ 0 ∧ s.flag LOG.CTRL.FLASHEN = true ∧ s.recordsOnly (srcLOG 2) = true) :=
  ⟨⟨device 0, by decide +kernel⟩,
   ⟨(let d := device 0; { d with log := { d.log with queue := [List.replicate 24 3, zeroB 24] } }), List.replicate 24 3, [zeroB 24], by decide +kernel⟩,
   ⟨(let d := (put (device 0) [(LOG.WRSEQ_LO.SEQ, 16384), (LOG.RUNLOST.COUNT, 5)]).sramPut (logAddr 16383) (zeroB 24 ++ chainOf ((put (device 0) [(LOG.WRSEQ_LO.SEQ, 16384)]).logPrev 16383) (zeroB 24)); { d with log := { d.log with queue := [List.replicate 24 3] } }), List.replicate 24 3, ([] : List (List Byte)), by decide +kernel⟩,
   ⟨(put (device 0) [(LOG.WRSEQ_LO.SEQ, 5), (LOG.RDSEQ_LO.SEQ, 2), (LOG.CTRL.FLASHEN, 1), (SER.CORESTAT.VENDOR, 1), (LOG.FLASHBASE.ADDR, 0x200000), (LOG.FLASHSIZE.BYTES, 0x1000)]).sramPut (logAddr 2) (List.replicate 32 7), 3, by decide +kernel⟩⟩

/-- Meets the hypotheses of clauses of Obligations.LogAndRelay. -/
theorem witness_LogAndRelay_c :
    (∃ (s : State), s.forwarderOnly = false ∧ s.get SER.CORESTAT.VENDOR ≠ 0 ∧ s.flag LOG.CTRL.FLASHEN = true ∧ s.rdseq < s.wrseq ∧ s.get LOG.FLASHSIZE.BYTES ≠ 0 ∧ s.log.queue.length < 12) ∧
    (∃ (s : State) (o : Origin) (v : Nat), s.mayWrite o LOG.APPCMD.GO.addr = true ∧ s.log.queue.length < queuePlaces o ∧ v < 128) ∧
    (∃ (s : State) (n : Nat) (f : Frame), s.isCell = false ∧ (s.rxFrame n f).1 = true ∧ f.ftype = ftMgmt ∧ f.dst ≠ addrAll ∧ f.dst ≠ s.address ∧ let m := (s.rxFrame n f).2.forward n f false; let t := txnOf n f; m.forwarderOnly = false ∧ n < 16 ∧ isReservedAddr f.dst = true ∧ (s.isHub && s.isTrunkLane n) = false) ∧
    (∃ (s : State) (n : Nat) (f : Frame) (e : _), s.isCell = false ∧ (s.rxFrame n f).1 = true ∧ f.ftype = ftMgmt ∧ f.dst ≠ addrAll ∧ f.dst ≠ s.address ∧ let m := (s.rxFrame n f).2.forward n f false; let t := txnOf n f; m.forwarderOnly = false ∧ n < 16 ∧ s.isHub = true ∧ n < 12 ∧ isReservedAddr f.dst = false ∧ f.dst ≠ s.partner ∧ (isCellAddr f.dst && decide (cellSegment f.dst = s.segment)) = false ∧ t.reply = false ∧ m.jFind t 1 = none ∧ m.ctxFree = true ∧ let l := if m.laneUp 12 then 12 else 13; m.laneUp l = true ∧ m.jNew t 1 = some e) :=
  ⟨⟨(put (device 0) [(LOG.WRSEQ_LO.SEQ, 5), (LOG.RDSEQ_LO.SEQ, 2), (LOG.CTRL.FLASHEN, 1), (SER.CORESTAT.VENDOR, 1), (LOG.FLASHBASE.ADDR, 0x200000), (LOG.FLASHSIZE.BYTES, 0x1000)]).sramPut (logAddr 2) (List.replicate 32 7), by decide +kernel⟩,
   ⟨put (device 0) [(LOG.APPADDR.ADDR, 5)], vendor, 0x40, by decide +kernel⟩,
   ⟨device 1, 3, mgmt 0x7FFC 0x00C5 (txn 2 0 (toLE 4 0x40000000 ++ toLE 2 1)), by decide +kernel⟩,
   ⟨device 1, 3, mgmt 0x7E00 0x00C5 (txn 2 0 (toLE 4 0x40000000 ++ toLE 2 1)), (((((device 1).rxFrame (3) (mgmt 0x7E00 0x00C5 (txn 2 0 (toLE 4 0x40000000 ++ toLE 2 1)))).2.forward (3) (mgmt 0x7E00 0x00C5 (txn 2 0 (toLE 4 0x40000000 ++ toLE 2 1))) false).jNew (txnOf (3) (mgmt 0x7E00 0x00C5 (txn 2 0 (toLE 4 0x40000000 ++ toLE 2 1)))) 1).getD (0, (device 1))), by decide +kernel⟩⟩

/-- Meets the hypotheses of clauses of Obligations.LogAndRelay. -/
theorem witness_LogAndRelay_d :
    (∃ (s : State) (n : Nat) (f : Frame), let m := (s.mgmtArrive n f).2; let t := txnOf n f; (s.mgmtArrive n f).1 = true ∧ t.reply = true ∧ t.op = opDiscover ∧ m.isHub = true ∧ n < 12 ∧ t.at 0 2 ≠ addrUnjoined ∧ byteAt t.body 2 ≠ 0xFF) ∧
    (∃ (s : State) (n : Nat) (f : Frame), let m := (s.mgmtArrive n f).2; let t := txnOf n f; (s.mgmtArrive n f).1 = true ∧ t.reply = true ∧ t.op = opDiscover ∧ m.isHub = true ∧ n < 12 ∧ t.at 0 2 = addrUnjoined) ∧
    (∃ (s : State) (n : Nat) (f : Frame) (x : _), let m := (s.mgmtArrive n f).2; let t := txnOf n f; (s.mgmtArrive n f).1 = true ∧ t.reply = true ∧ t.op ≠ opDiscover ∧ m.sendOf t = some x ∧ t.more = false ∧ x.customer = true) ∧
    (∃ (s : State) (n : Nat) (f : Frame) (x : _), let m := (s.mgmtArrive n f).2; let t := txnOf n f; (s.mgmtArrive n f).1 = true ∧ t.reply = true ∧ t.op ≠ opDiscover ∧ m.sendOf t = some x ∧ t.more = false ∧ x.customer = false ∧ x.replay = none ∧ t.op ≠ opRead) :=
  ⟨⟨device 1, 3, mgmt 0x7C00 0x00C5 (toLE 1 1 ++ [1, 0xFF, 0] ++ toLE 4 1 ++ toLE 2 ((toLE 2 0x00C5 ++ [5, 0] ++ zeroB 20 ++ [9, 0])).length ++ zeroB 22 ++ (toLE 2 0x00C5 ++ [5, 0] ++ zeroB 20 ++ [9, 0])), by decide +kernel⟩,
   ⟨device 1, 3, mgmt 0x7C00 0x00C5 (toLE 1 1 ++ [1, 0xFF, 0] ++ toLE 4 1 ++ toLE 2 ((toLE 2 addrUnjoined ++ [0xFF, 9] ++ zeroB 20 ++ [9, 0])).length ++ zeroB 22 ++ (toLE 2 addrUnjoined ++ [0xFF, 9] ++ zeroB 20 ++ [9, 0])), by decide +kernel⟩,
   ⟨(let d := device 1; { d with mgt := { d.mgt with sends := [⟨1, 0x00C5, txn 3 0 [], 0, 1, none, [], 0, none, true, 0xFF⟩] } }), 3, mgmt 0x7C00 0x00C5 (toLE 1 3 ++ [1, 0xFF, 0] ++ toLE 4 1 ++ toLE 2 (([] : List Byte)).length ++ zeroB 22 ++ ([] : List Byte)), (⟨1, 0x00C5, txn 3 0 [], 0, 1, none, [], 0, none, true, 0xFF⟩ : SendSt), by decide +kernel⟩,
   ⟨(let d := device 1; { d with mgt := { d.mgt with sends := [⟨1, 0x00C5, txn 3 0 [], 0, 1, none, [], 0, none, false, 0xFF⟩] } }), 3, mgmt 0x7C00 0x00C5 (toLE 1 3 ++ [1, 0xFF, 0] ++ toLE 4 1 ++ toLE 2 (([] : List Byte)).length ++ zeroB 22 ++ ([] : List Byte)), (⟨1, 0x00C5, txn 3 0 [], 0, 1, none, [], 0, none, false, 0xFF⟩ : SendSt), by decide +kernel⟩⟩

/-- Meets the hypotheses of clauses of Obligations.LogAndRelay. -/
theorem witness_LogAndRelay_e :
    (∃ (s : State) (c : Nat) (x : SendSt), (s.mgt.sends.find? (fun y => y.ctx == c && y.ended.isNone) = some x) ∧ s.tick < x.since + s.get MGT.CTRL.TIMEOUT) ∧
    (∃ (s : State) (c : Nat) (x : SendSt), (s.mgt.sends.find? (fun y => y.ctx == c && y.ended.isNone) = some x) ∧ x.since + s.get MGT.CTRL.TIMEOUT ≤ s.tick ∧ x.launches ≤ s.get MGT.CTRL.RETRIES) ∧
    (∃ (s : State) (c : Nat) (x : SendSt), (s.mgt.sends.find? (fun y => y.ctx == c && y.ended.isNone) = some x) ∧ x.since + s.get MGT.CTRL.TIMEOUT ≤ s.tick ∧ s.get MGT.CTRL.RETRIES < x.launches ∧ byteAt x.payload 0 ≠ opRead ∧ s.recordsOnly (srcMGT 4) = true) ∧
    (∃ (s : State) (key : Nat), s.isHub = true ∧ s.basecamp = true ∧ s.tickEvents = false ∧ s.forwarderOnly = false ∧ SMap.get 0 s.mgt.cells key ≠ 0 ∧ key % 128 < 64 ∧ SMap.get 0 s.mgt.cells key % 2 ^ 16 ≠ addrAll ∧ s.mgt.sends = []) :=
  ⟨⟨(let d := put (device 1) [(MGT.CTRL.TIMEOUT, 10), (MGT.CTRL.RETRIES, 1)]; { d with mgt := { d.mgt with sends := [⟨1, 0x00C5, txn 3 0 [], 0, 1, none, [], 0, none, true, 0xFF⟩] } }), 1, ⟨1, 0x00C5, txn 3 0 [], 0, 1, none, [], 0, none, true, 0xFF⟩, by decide +kernel⟩,
   ⟨(let d := put (device 1) [(MGT.CTRL.TIMEOUT, 0), (MGT.CTRL.RETRIES, 1)]; { d with mgt := { d.mgt with sends := [⟨1, 0x00C5, txn 3 0 [], 0, 1, none, [], 0, none, true, 0xFF⟩] } }), 1, ⟨1, 0x00C5, txn 3 0 [], 0, 1, none, [], 0, none, true, 0xFF⟩, by decide +kernel⟩,
   ⟨(let d := put (device 1) [(MGT.CTRL.TIMEOUT, 0), (MGT.CTRL.RETRIES, 1)]; { d with mgt := { d.mgt with sends := [⟨1, 0x00C5, txn 3 0 [], 0, 9, none, [], 0, none, true, 0xFF⟩] } }), 1, ⟨1, 0x00C5, txn 3 0 [], 0, 9, none, [], 0, none, true, 0xFF⟩, by decide +kernel⟩,
   ⟨(let d := put (device 1) [(CNV.STAT.ACTIVE, 0), (CNV.STAT.BASECAMP, 1), (TB.STAT.ALIGNED, 0)]; { d with mgt := { d.mgt with cells := [(389, 2 ^ 24 + 0x00C5)] } }), 389, by decide +kernel⟩⟩

/-- Meets the hypotheses of clauses of Obligations.ServiceCores. -/
theorem witness_ServiceCores_a :
    (∃ (s : State) (core : Nat) (pay : List Byte) (dst : Nat), s.customerCore core = true ∧ 32 ≤ pay.length ∧ pay.length ≤ 488 ∧ 32 + leAt pay 8 2 = pay.length ∧ dst ≠ addrAll ∧ s.ctxFree = true) ∧
    (∃ (s : State) (core : Nat) (pay : List Byte) (dst : Nat), s.customerCore core = true ∧ (pay.length < 32 ∨ 488 < pay.length ∨ 32 + leAt pay 8 2 ≠ pay.length)) ∧
    (∃ (s : State) (core : Nat) (c : _) (x : _), s.customerCore core = true ∧ (s.mgt.sends.find? (fun y => y.ctx == c && y.customer) = some x)) ∧
    (∃ (s : State) (core : Nat) (c : _), s.customerCore core = true ∧ (s.mgt.sends.find? (fun y => y.ctx == c && y.customer) = none)) :=
  ⟨⟨(let d := put (device 0) [(SER.CORESTAT.CUSTOMER, 2)]; { d with mgt := { d.mgt with sends := [⟨5, 7, txn 3 0 [], 0, 1, none, [], 4096, none, true, 0xFF⟩] } }), 1, txn 3 0 [1, 2], 9, by decide +kernel⟩,
   ⟨(let d := put (device 0) [(SER.CORESTAT.CUSTOMER, 2)]; { d with mgt := { d.mgt with sends := [⟨5, 7, txn 3 0 [], 0, 1, some 4, [], 4096, none, true, 0xFF⟩] } }), 1, [1], 9, by decide +kernel⟩,
   ⟨(let d := put (device 0) [(SER.CORESTAT.CUSTOMER, 2)]; { d with mgt := { d.mgt with sends := [⟨5, 7, txn 3 0 [], 0, 1, none, [], 4096, none, true, 0xFF⟩] } }), 1, 5, (((let d := put (device 0) [(SER.CORESTAT.CUSTOMER, 2)]; { d with mgt := { d.mgt with sends := [⟨5, 7, txn 3 0 [], 0, 1, none, [], 4096, none, true, 0xFF⟩] } })).mgt.sends.find? (fun (y : SendSt) => y.ctx == (5) && y.customer)).getD ⟨5, 7, [], 0, 1, none, [], 4096, none, true, 0xFF⟩, by decide +kernel⟩,
   ⟨(let d := put (device 0) [(SER.CORESTAT.CUSTOMER, 2)]; { d with mgt := { d.mgt with sends := [⟨5, 7, txn 3 0 [], 0, 1, some 4, [], 4096, none, true, 0xFF⟩] } }), 1, 6, by decide +kernel⟩⟩

/-- Meets the hypotheses of clauses of Obligations.ServiceCores. -/
theorem witness_ServiceCores_b :
    (∃ (s : State) (core : Nat) (src : _) (handler : Nat), s.customerCore core = true ∧ src < 24) ∧
    (∃ (s : State) (core : Nat) (src : _) (handler : Nat), s.customerCore core = true ∧ 24 ≤ src) ∧
    (∃ (s : State) (core : Nat) (typ : _) (addr : Nat) (old : Nat) (new : Nat), s.customerCore core = true ∧ 0x40 ≤ typ ∧ typ ≤ 0x7E ∧ s.log.queue.length < 12) ∧
    (∃ (s : State) (core : Nat) (typ : _) (addr : Nat) (old : Nat) (new : Nat), s.customerCore core = true ∧ (typ < 0x40 ∨ 0x7E < typ)) :=
  ⟨⟨(let d := put (device 0) [(SER.CORESTAT.CUSTOMER, 2)]; { d with mgt := { d.mgt with sends := [⟨5, 7, txn 3 0 [], 0, 1, none, [], 4096, none, true, 0xFF⟩] } }), 1, 23, 77, by decide +kernel⟩,
   ⟨(let d := put (device 0) [(SER.CORESTAT.CUSTOMER, 2)]; { d with mgt := { d.mgt with sends := [⟨5, 7, txn 3 0 [], 0, 1, some 4, [], 4096, none, true, 0xFF⟩] } }), 1, 24, 77, by decide +kernel⟩,
   ⟨(let d := put (device 0) [(SER.CORESTAT.CUSTOMER, 2)]; { d with mgt := { d.mgt with sends := [⟨5, 7, txn 3 0 [], 0, 1, none, [], 4096, none, true, 0xFF⟩] } }), 1, 0x40, 5, 6, 7, by decide +kernel⟩,
   ⟨(let d := put (device 0) [(SER.CORESTAT.CUSTOMER, 2)]; { d with mgt := { d.mgt with sends := [⟨5, 7, txn 3 0 [], 0, 1, some 4, [], 4096, none, true, 0xFF⟩] } }), 1, 0x7F, 5, 6, 7, by decide +kernel⟩⟩

/-- Meets the hypotheses of clauses of Obligations.ServiceCores. -/
theorem witness_ServiceCores_c :
    (∃ (s : State) (o : Origin) (v : Nat), s.mayWrite o SER.SWISET.SET.addr = true ∧ v < 16) ∧
    (∃ (s : State) (core : Nat), s.getBit SER.CORESTAT.RUN core = true ∧ s.getBit SER.CORESTAT.HALTED core = false ∧ s.recordsOnly (srcSER 2) = true) ∧
    (∃ (s : State) (core : Nat), (s.getBit SER.CORESTAT.RUN core = false ∨ s.getBit SER.CORESTAT.HALTED core = true)) :=
  ⟨⟨put (device 0) [(SER.SWI.PEND, 4)], vendor, 9, by decide +kernel⟩,
   ⟨put (device 0) [(SER.CORESTAT.RUN, 2)], 1, by decide +kernel⟩,
   ⟨put (device 0) [(SER.CORESTAT.RUN, 2)], 0, by decide +kernel⟩⟩

end Sys2Proof.Tests
end

/-!
PROOFS. Fields under writes and resets: what writes (R3, R4) and resets (R6) do to one field of a register. Both go through the fields of a register word
one after another, and every step touches the bits of its own field alone, so a bit of a field that shares no bit with the others sees one step only.
-/

namespace Sys2Proof.Machine

/-! ## One pass over the fields of a word -/

/-- Words that agree on the bits of a field read the same there. -/
theorem wordGet_congr {w u : Word} {f : Fld} (h : ∀ i, f.lo ≤ i → i < f.lo + f.w → i < 32 → w.getLsbD i = u.getLsbD i) :
    wordGet w f = wordGet u f := by
  apply Nat.eq_of_testBit_eq
  intro j
  rw [wordGet_testBit, wordGet_testBit]
  by_cases hj : j < f.w
  · by_cases hb : f.lo + j < 32
    · rw [h _ (by omega) (by omega) hb]
    · rw [BitVec.getLsbD_of_ge _ _ (by omega), BitVec.getLsbD_of_ge _ _ (by omega)]
  · simp [hj]

/-- A bit that only the step of `f` changes, and changes by the idempotent `φ`, is changed by `φ` once, however often `f` is listed. -/
theorem foldl_getLsbD_of_mem {step : Word → FieldSpec → Word} {φ : Bool → Bool} {f : FieldSpec} {i : Nat}
    (hidem : ∀ b, φ (φ b) = φ b) (hself : ∀ w, (step w f).getLsbD i = φ (w.getLsbD i)) :
    ∀ {fs : List FieldSpec}, f ∈ fs → (∀ g ∈ fs, g ≠ f → ∀ w, (step w g).getLsbD i = w.getLsbD i) →
      ∀ w, (fs.foldl step w).getLsbD i = φ (w.getLsbD i)
  | g :: fs, hf, hother, w => by
    have hrest : ∀ h ∈ fs, h ≠ f → ∀ u, (step u h).getLsbD i = u.getLsbD i := fun h hh => hother h (List.mem_cons_of_mem g hh)
    rw [List.foldl_cons]
    by_cases hmem : f ∈ fs
    · rw [foldl_getLsbD_of_mem hidem hself hmem hrest]
      by_cases hg : g = f
      · rw [hg, hself, hidem]
      · rw [hother g List.mem_cons_self hg]
    · have hg : f = g := (List.mem_cons.mp hf).resolve_right hmem
      have hkeep : ∀ u, (fs.foldl step u).getLsbD i = u.getLsbD i := fun u =>
        List.foldlRecOn (motive := fun x => x.getLsbD i = u.getLsbD i) fs step rfl
          (fun x hx h hh => (hrest h hh (fun e => hmem (e ▸ hh)) x).trans hx)
      rw [hkeep, ← hg, hself]

/-! ## Writing (R3, R4) -/

/-- One bit of a field of each access type after a write: `v` meets `old` under mask `m`; `kept` says that hardware has set the bit in this cycle. -/
def storeBit (acc : Access) (locked kept v m old : Bool) : Bool :=
  match acc with
  | .ro | .wo => old
  | .rw | .rwa => if m then v else old
  | .rwl => if locked then old else if m then v else old
  | .w1c => old && !(v && m && !kept)

theorem storeBit_idem (acc : Access) (locked kept v m old : Bool) :
    storeBit acc locked kept v m (storeBit acc locked kept v m old) = storeBit acc locked kept v m old := by
  cases acc <;> revert locked kept v m old <;> decide

/-- A write to a word of one field meets the bits of that field by its access type and leaves the others. -/
theorem storeWord_singleton_getLsbD (g : FieldSpec) (locked : Bool) (kept v m old : Word) {i : Nat} (hi : i < 32) :
    (storeWord [g] locked kept v m old).getLsbD i =
      if g.lo ≤ i ∧ i < g.lo + g.w then storeBit g.access locked (kept.getLsbD i) (v.getLsbD i) (m.getLsbD i) (old.getLsbD i)
      else old.getLsbD i := by
  have hmask : (fldMask ⟨0, g.lo, g.w⟩).getLsbD i = decide (g.lo ≤ i ∧ i < g.lo + g.w) := by
    rw [fldMask_getLsbD _ _ hi, Bool.decide_and]
  simp only [storeWord, List.foldl_cons, List.foldl_nil]
  by_cases hin : g.lo ≤ i ∧ i < g.lo + g.w
  · rw [if_pos hin]
    cases g.access <;> cases locked <;> cases hm : m.getLsbD i <;>
      simp [storeBit, hmask, hin, hi, hm, -BitVec.getLsbD_eq_getElem]
  · rw [if_neg hin]
    cases g.access <;> cases locked <;> simp [hmask, hin, hi, -BitVec.getLsbD_eq_getElem]

/-- A write meets the bits of a field that shares none with the others by that field's access type. -/
theorem storeWord_getLsbD {fs : List FieldSpec} {f : FieldSpec} (hf : f ∈ fs)
    (hdisj : ∀ g ∈ fs, g ≠ f → g.lo + g.w ≤ f.lo ∨ f.lo + f.w ≤ g.lo) (locked : Bool) (kept v m old : Word) {i : Nat}
    (hlo : f.lo ≤ i) (hhi : i < f.lo + f.w) (hi : i < 32) :
    (storeWord fs locked kept v m old).getLsbD i =
      storeBit f.access locked (kept.getLsbD i) (v.getLsbD i) (m.getLsbD i) (old.getLsbD i) := by
  have hself : ∀ w, (storeWord [f] locked kept v m w).getLsbD i =
      storeBit f.access locked (kept.getLsbD i) (v.getLsbD i) (m.getLsbD i) (w.getLsbD i) := fun w => by
    rw [storeWord_singleton_getLsbD _ _ _ _ _ _ hi, if_pos ⟨hlo, hhi⟩]
  have hother : ∀ g ∈ fs, g ≠ f → ∀ w, (storeWord [g] locked kept v m w).getLsbD i = w.getLsbD i := fun g hg hne w => by
    have := hdisj g hg hne
    rw [storeWord_singleton_getLsbD _ _ _ _ _ _ hi, if_neg (by omega)]
  exact foldl_getLsbD_of_mem (step := fun w g => storeWord [g] locked kept v m w) (storeBit_idem _ _ _ _ _) hself hf hother old

/-- A field reads as the word `u` reads there, where `u` has in each bit what the field's access type makes of the write. -/
theorem wordGet_storeWord {fs : List FieldSpec} {f : FieldSpec} (hf : f ∈ fs)
    (hdisj : ∀ g ∈ fs, g ≠ f → g.lo + g.w ≤ f.lo ∨ f.lo + f.w ≤ g.lo) {locked : Bool} {kept v m old u : Word}
    (hu : ∀ i < 32, storeBit f.access locked (kept.getLsbD i) (v.getLsbD i) (m.getLsbD i) (old.getLsbD i) = u.getLsbD i) :
    wordGet (storeWord fs locked kept v m old) ⟨0, f.lo, f.w⟩ = wordGet u ⟨0, f.lo, f.w⟩ :=
  wordGet_congr fun i hlo hhi hi => (storeWord_getLsbD hf hdisj locked kept v m old hlo hhi hi).trans (hu i hi)

/-- The bits of a plain write under a mask. -/
theorem getLsbD_maskedWrite (v m old : Word) {i : Nat} (hi : i < 32) :
    ((old &&& ~~~ m) ||| (v &&& m)).getLsbD i = if m.getLsbD i then v.getLsbD i else old.getLsbD i := by
  cases hm : m.getLsbD i <;> simp [hm, hi, -BitVec.getLsbD_eq_getElem]

/-- Settles O8: every access type keeps to its rule bit by bit, and no other field's step touches the bits of this one. -/
theorem writeByAccessType : Obligations.WriteByAccessType := by
  intro fs f locked kept v m old hf _ hdisj
  refine ⟨fun hacc => ?_, fun hacc => ?_, fun ⟨hacc, hlock⟩ => ?_, fun hacc => ?_⟩
    <;> refine wordGet_storeWord hf hdisj fun i hi => ?_
  · rcases hacc with hacc | hacc <;> rw [hacc, storeBit]
  · rw [getLsbD_maskedWrite v m old hi]
    rcases hacc with hacc | hacc | ⟨hacc, hlock⟩
    · rw [hacc, storeBit]
    · rw [hacc, storeBit]
    · rw [hacc, hlock, storeBit, if_neg Bool.false_ne_true]
  · rw [hacc, hlock, storeBit, if_pos rfl]
  · simp [hacc, storeBit, hi, -BitVec.getLsbD_eq_getElem]

end Sys2Proof.Machine

/-!
PROOFS. The register file under a reset: what a reset restores (R6). A register that the file lists is restored field by field; one that it does not list
holds the word of its listed reset values, which the tables, whose fields stand in rising order and whose reset values fit, give back field by field.
-/

namespace Sys2Proof.Machine

/-! ## The listed reset values -/

/-- The fields stand in rising order without overlap, and every reset value fits its field. -/
def fieldsInOrder (fs : List FieldSpec) : Bool :=
  fs.all (fun f => decide (f.reset < 2 ^ f.w)) && decide (fs.Pairwise (fun f g => f.lo + f.w ≤ g.lo))

theorem fieldsInOrder_cons {f : FieldSpec} {fs : List FieldSpec} :
    fieldsInOrder (f :: fs) = true ↔ f.reset < 2 ^ f.w ∧ (∀ g ∈ fs, f.lo + f.w ≤ g.lo) ∧ fieldsInOrder fs = true := by
  simp only [fieldsInOrder, List.all_cons, List.pairwise_cons, Bool.and_eq_true, decide_eq_true_eq]
  tauto

/-- All tables of the 23 blocks are in order. -/
theorem blockRegs_inOrder (n : Nat) : ∀ g ∈ blockRegs n, fieldsInOrder g.fields = true := by
  have hblocks : ∀ n < 23, (blockRegs n).all (fun g => fieldsInOrder g.fields) = true := by decide +kernel
  by_cases hn : n < 23
  · exact List.all_eq_true.mp (hblocks n hn)
  · obtain ⟨k, rfl⟩ := Nat.exists_eq_add_of_le' (Nat.not_lt.mp hn)
    exact fun g hg => absurd hg List.not_mem_nil

theorem fieldsAt_inOrder (a : Nat) : fieldsInOrder (fieldsAt a) = true := by
  unfold fieldsAt
  split
  · split
    · next g hg => exact blockRegs_inOrder _ g (List.mem_of_find?_eq_some hg)
    · rfl
  · rfl

/-- The sum of reset values, begun at `acc`. -/
def resetSum (acc : Nat) (fs : List FieldSpec) : Nat := fs.foldl (fun w f => w + f.reset <<< f.lo) acc

/-- Fields above bit `k` leave the bits below it. -/
theorem resetSum_mod {k : Nat} {fs : List FieldSpec} (acc : Nat) (h : ∀ g ∈ fs, k ≤ g.lo) : resetSum acc fs % 2 ^ k = acc % 2 ^ k := by
  induction fs generalizing acc with
  | nil => rfl
  | cons g fs ih =>
    have hdvd : 2 ^ k ∣ g.reset <<< g.lo := by
      rw [Nat.shiftLeft_eq]
      exact Dvd.dvd.mul_left (Nat.pow_dvd_pow 2 (h g List.mem_cons_self)) _
    calc resetSum acc (g :: fs) % 2 ^ k = (acc + g.reset <<< g.lo) % 2 ^ k := ih _ (fun x hx => h x (List.mem_cons_of_mem g hx))
      _ = acc % 2 ^ k := by rw [Nat.add_mod, Nat.mod_eq_zero_of_dvd hdvd, Nat.add_zero, Nat.mod_mod]

/-- Each field of an ordered list finds its own reset value in the sum: what is below it does not carry, what is above it does not reach down. -/
theorem resetSum_testBit {fs : List FieldSpec} {f : FieldSpec} (acc : Nat) (hord : fieldsInOrder fs = true) (hacc : ∀ g ∈ fs, acc < 2 ^ g.lo)
    (hf : f ∈ fs) {i : Nat} (hi : i < f.w) : (resetSum acc fs).testBit (f.lo + i) = f.reset.testBit i := by
  induction fs generalizing acc with
  | nil => cases hf
  | cons g fs ih =>
    obtain ⟨hfit, habove, htail⟩ := fieldsInOrder_cons.mp hord
    have hg : acc < 2 ^ g.lo := hacc g List.mem_cons_self
    have hsum : acc + g.reset <<< g.lo = 2 ^ g.lo * g.reset + acc := by rw [Nat.shiftLeft_eq]; ring
    rcases List.mem_cons.mp hf with rfl | hmem
    · have hlow : (resetSum acc (f :: fs)).testBit (f.lo + i) = (acc + f.reset <<< f.lo).testBit (f.lo + i) := by
        have hbits := congrArg (Nat.testBit · (f.lo + i)) (resetSum_mod (acc + f.reset <<< f.lo) habove)
        simp only [Nat.testBit_mod_two_pow, Nat.add_lt_add_left hi f.lo, decide_true, Bool.true_and] at hbits
        exact hbits
      rw [hlow, hsum, Nat.testBit_two_pow_mul_add _ hg, if_neg (by omega), Nat.add_sub_cancel_left]
    · have hnext : acc + g.reset <<< g.lo < 2 ^ (g.lo + g.w) := by
        rw [hsum, Nat.pow_add]
        calc 2 ^ g.lo * g.reset + acc < 2 ^ g.lo * (g.reset + 1) := by rw [Nat.mul_succ]; omega
          _ ≤ 2 ^ g.lo * 2 ^ g.w := Nat.mul_le_mul_left _ hfit
      exact ih _ htail (fun x hx => hnext.trans_le (Nat.pow_le_pow_right (by decide) (habove x hx))) hmem

/-- A register that holds its reset word reads in each field the listed value. -/
theorem wordGet_regDefault {a : Nat} {f : FieldSpec} (hf : f ∈ fieldsAt a) (hw : f.lo + f.w ≤ 32) :
    wordGet (regDefault a) ⟨0, f.lo, f.w⟩ = f.reset % 2 ^ f.w := by
  apply Nat.eq_of_testBit_eq
  intro i
  rw [wordGet_testBit, Nat.testBit_mod_two_pow]
  by_cases hi : i < f.w
  · have hbit : (resetWord (fieldsAt a)).testBit (f.lo + i) = f.reset.testBit i :=
      resetSum_testBit 0 (fieldsAt_inOrder a) (fun _ _ => Nat.two_pow_pos _) hf hi
    have hlt : f.lo + i < 32 := by omega
    simp only [regDefault, BitVec.getLsbD_ofNat, hlt, hbit]
    rfl
  · simp [hi]

/-! ## Resets (R6) -/

/-- A reset of a word of one field sets that field where its reach is as narrow as the reset, and no bit outside it. -/
theorem restoreWord_singleton_getLsbD (g : FieldSpec) (r : Nat) (w : Word) {i : Nat} (hi : i < 32) :
    (restoreWord [g] r w).getLsbD i =
      if g.reach.rank ≤ r ∧ g.lo ≤ i ∧ i < g.lo + g.w then g.reset.testBit (i - g.lo) else w.getLsbD i := by
  simp only [restoreWord, List.foldl_cons, List.foldl_nil]
  by_cases hr : g.reach.rank ≤ r
  · simp only [hr, if_true, true_and, wordSet_getLsbD _ _ _ _ hi]
  · simp only [hr, if_false, false_and]

/-- A field that shares no bit with the others takes its listed value where its reach is as narrow as the reset, and keeps its bits otherwise. -/
theorem wordGet_restoreWord {fs : List FieldSpec} {f : FieldSpec} (hf : f ∈ fs) (hw : f.lo + f.w ≤ 32)
    (hdisj : ∀ g ∈ fs, g ≠ f → g.lo + g.w ≤ f.lo ∨ f.lo + f.w ≤ g.lo) (r : Nat) (w : Word) :
    wordGet (restoreWord fs r w) ⟨0, f.lo, f.w⟩ = if f.reach.rank ≤ r then f.reset % 2 ^ f.w else wordGet w ⟨0, f.lo, f.w⟩ := by
  have hone : wordGet (restoreWord fs r w) ⟨0, f.lo, f.w⟩ = wordGet (restoreWord [f] r w) ⟨0, f.lo, f.w⟩ := by
    refine wordGet_congr fun i (hlo : f.lo ≤ i) (hhi : i < f.lo + f.w) hi => ?_
    have hother : ∀ g ∈ fs, g ≠ f → ∀ u, (restoreWord [g] r u).getLsbD i = u.getLsbD i := fun g hg hne u => by
      have := hdisj g hg hne
      rw [restoreWord_singleton_getLsbD _ _ _ hi, if_neg (by omega)]
    rw [restoreWord_singleton_getLsbD _ _ _ hi]
    exact foldl_getLsbD_of_mem (step := fun u g => restoreWord [g] r u)
      (φ := fun b => if f.reach.rank ≤ r ∧ f.lo ≤ i ∧ i < f.lo + f.w then f.reset.testBit (i - f.lo) else b)
      (fun b => by split <;> rfl) (fun u => restoreWord_singleton_getLsbD f r u hi) hf hother w
  rw [hone]
  simp only [restoreWord, List.foldl_cons, List.foldl_nil]
  split
  · exact wordGet_wordSet_self _ _ _ hw
  · rfl

/-- The word at `a` after a reset of rank `r` over `blocks`, where the file held `w`. -/
def resetWordAt (r blocks a : Nat) (w : Word) : Word :=
  if blocks.testBit (blockOf a) then restoreWord (fieldsAt a) r w else w

theorem restoreRegs_cons (r blocks : Nat) (e : Nat × Word) (m : SMap Word) :
    restoreRegs r blocks (e :: m) =
      if resetWordAt r blocks e.1 e.2 = regDefault e.1 then restoreRegs r blocks m
      else (e.1, resetWordAt r blocks e.1 e.2) :: restoreRegs r blocks m := rfl

theorem SMap.get_cons_self {α : Type} (d : α) (e : Nat × α) (m : SMap α) : SMap.get d (e :: m) e.1 = e.2 := if_pos rfl

theorem SMap.get_cons_ne {α : Type} (d : α) {e : Nat × α} (m : SMap α) {k : Nat} (h : e.1 ≠ k) :
    SMap.get d (e :: m) k = SMap.get d m k := if_neg h

/-- A key above which every entry stands is not listed. -/
theorem SMap.get_of_above {α : Type} (d : α) {k : Nat} {m : SMap α} (h : SMap.above k m = true) : SMap.get d m k = d := by
  induction m with
  | nil => rfl
  | cons e m ih =>
    simp only [SMap.above, List.all_cons, Bool.and_eq_true, decide_eq_true_eq] at h
    obtain ⟨hlt, hrest⟩ := h
    rw [SMap.get_cons_ne d m (by omega), ih hrest]

/-- A reset lists no register that was not listed. -/
theorem restoreRegs_above (r blocks : Nat) {k : Nat} {m : SMap Word} (h : SMap.above k m = true) :
    SMap.above k (restoreRegs r blocks m) = true := by
  induction m with
  | nil => rfl
  | cons e m ih =>
    simp only [SMap.above, List.all_cons, Bool.and_eq_true] at h ih ⊢
    obtain ⟨hlt, hrest⟩ := h
    rw [restoreRegs_cons]
    split
    · exact ih hrest
    · rw [List.all_cons, Bool.and_eq_true]
      exact ⟨hlt, ih hrest⟩

/-- The word at `a` after a reset: that of a reached block is restored, or held its reset word and still does; any other stays. -/
theorem get_restoreRegs (r blocks : Nat) {m : SMap Word} (a : Nat) (hwf : SMap.wf regDefault m = true) :
    SMap.get (regDefault a) (restoreRegs r blocks m) a =
        resetWordAt r blocks a (SMap.get (regDefault a) m a) ∨
      SMap.get (regDefault a) m a = regDefault a ∧ SMap.get (regDefault a) (restoreRegs r blocks m) a = regDefault a := by
  induction m with
  | nil => exact .inr ⟨rfl, rfl⟩
  | cons e m ih =>
    simp only [SMap.wf, Bool.and_eq_true] at hwf
    obtain ⟨⟨habove, -⟩, hwf⟩ := hwf
    by_cases ha : e.1 = a
    · subst ha
      left
      rw [restoreRegs_cons, SMap.get_cons_self]
      split
      · next hdef => rw [SMap.get_of_above _ (restoreRegs_above r blocks habove), hdef]
      · exact SMap.get_cons_self _ (e.1, resetWordAt r blocks e.1 e.2) _
    · have hget : SMap.get (regDefault a) (restoreRegs r blocks (e :: m)) a = SMap.get (regDefault a) (restoreRegs r blocks m) a := by
        rw [restoreRegs_cons]
        split
        · rfl
        · exact SMap.get_cons_ne _ _ ha
      rw [hget, SMap.get_cons_ne _ _ ha]
      exact ih hwf

/-- Settles O9: a listed register is restored field by field, and an unlisted one reads its listed reset values before and after. -/
theorem resetByReach : Obligations.ResetByReach := by
  intro r blocks m a hwf
  have hword := get_restoreRegs r blocks a hwf
  refine ⟨fun hout => ?_, fun hin f hf hw hdisj => ?_⟩
  · rcases hword with hword | ⟨hold, hnew⟩
    · rw [hword, resetWordAt, hout, if_neg Bool.false_ne_true]
    · rw [hold, hnew]
  · rcases hword with hword | ⟨hold, hnew⟩
    · rw [hword, resetWordAt, if_pos hin, wordGet_restoreWord hf hw hdisj]
    · rw [hold, hnew, wordGet_regDefault hf hw, ite_self]

end Sys2Proof.Machine
